-- ==== Sys2Proof/Word.lean ====
section
/-!
DEFINITION. The word types of the Ifeyr 9 (R1, R27) and the small records that instruction fields and
hardware events carry. Nothing here computes: field extraction and arithmetic are in Machine/Bits.lean.
-/
namespace Sys2Proof

/-- One byte of memory (R1: multi-byte values are little-endian). -/
abbrev Byte := BitVec 8

/-- One vector lane, an instruction word, or a 32-bit special register (R27). -/
abbrev W32 := BitVec 32

/-- One uniform register or a virtual address (R27, R42). -/
abbrev W64 := BitVec 64

/-- A vector source field (R231): a 7-bit register number and a 2-bit read-path selector. -/
structure VSrc where
  sel : Nat
  reg : Nat
  deriving DecidableEq, Repr

/-- The format tag of a rind or of an L1 copy (R88, R91): full precision, one of the two 16-bit
formats, or the resolved descriptor of a narrow format. -/
inductive Tag where
  | full
  | bf16
  | fp16
  | narrow (d : W32)
  deriving DecidableEq, Repr

end Sys2Proof
end

