-- ==== Sys2Proof/Syntax.lean ====
section
/-!
DEFINITION. The steps of the Ifeyr 9: one constructor for every row of spec/opcode_table.json, in the table's order.
The first kind is an instruction word (216 rows); its fields are those the table and chapters 12 to 18 give the word,
register numbers and codes as natural numbers (bounded by WellFormed), single bits as Booleans. The second kind is a
hardware event (89 rows without a word, spec/95_what_each_step_holds.md): a step the module takes beside its
instruction streams; its fields say which core, group, line or register the event concerns and what data came from
outside.
-/
namespace Sys2Proof

/-- Every step of the part (one constructor per row of the table of operations and events). -/
inductive Instr where
  /-- `nop`: Issues, uses no unit and changes nothing. (R234) -/
  | nop
  /-- `hint.sch`: Carries stall counts and yield bits for the next four non-hint instructions of the path. (R240) -/
  | hintSch (ymask c4 c3 c2 c1 : Nat)
  /-- `hint.imm`: Widens the immediate of the following VI, SI, SL or MS target. (R235) -/
  | hintImm (payload : Nat)
  /-- `hint.ord`: Attaches an order and scope to the next non-hint instruction of the path. (R131) -/
  | hintOrd (scope order : Nat)
  /-- `hint.mod`: Attaches rounding, saturation, packing, zeroing, subscription and cache modifiers to the target. (R236) -/
  | hintMod (upd : Bool) (sub : Nat) (zero : Bool) (pk : Nat) (sat : Bool) (rnd cache : Nat)
  /-- `hint.ext`: Supplies one extra register operand to the target. (R237) -/
  | hintExt (sel cls reg : Nat)
  /-- `br`: Branches unconditionally to the word offset; a long-held backward branch may yield the slot. (R256) -/
  | br (off : Nat)
  /-- `bxz`: Branches when the path's execution mask is zero. (R256) -/
  | bxz (off : Nat)
  /-- `bxnz`: Branches when the path's execution mask is nonzero. (R256) -/
  | bxnz (off : Nat)
  /-- `bxall`: Branches when the path has no claimable lane outside its execution mask. (R256) -/
  | bxall (off : Nat)
  /-- `bs`: Branches when a uniform register, compared signed with zero, satisfies the condition. (R256) -/
  | bs (sa cond off : Nat)
  /-- `call`: Writes each active lane's link record and enters the target at depth plus one with a new frame tag. (R258) -/
  | call (off : Nat)
  /-- `bdiv`: Splits the path's active lanes by a predicate between the target and the next word. (R261) -/
  | bdiv (p : Nat) (neg : Bool) (off : Nat)
  /-- `ret`: Returns each active lane through its link record, grouping lanes into paths by return address and tag. (R259) -/
  | ret
  /-- `calli`: Calls the address held in a uniform register. (R258) -/
  | calli (sa : Nat)
  /-- `jmpi`: Sets the path's PC to a uniform register. (R260) -/
  | jmpi (sa : Nat)
  /-- `bjt`: Sends each active lane through a jump table, splitting the path by target. (R262) -/
  | bjt (sa sb vi : Nat)
  /-- `join`: The path leaves its slot and merges into a waiting entry keyed by PC, depth and tag. (R204) -/
  | join
  /-- `yield`: Writes the path back as a ready entry if one is ready, otherwise gives way for one clock. (R263) -/
  | yield
  /-- `exit`: Ends the active lanes and the path, freeing its slot. (R263) -/
  | exit
  /-- `mwait`: Arms a monitor, reads a word and parks the lanes whose comparison fails. (R264) -/
  | mwait (sa sb : Nat) (dbl uns : Bool) (cond : Nat)
  /-- `spawn`: Reads a launch header and creates a child launch, writing its handle or a refusal. (R265) -/
  | spawn (sa sb : Nat) (sup : Bool)
  /-- `waitc`: Waits until a child launch ends and writes its status word. (R266) -/
  | waitc (sa sb : Nat)
  /-- `trap`: Raises TRAPI with the immediate in xaddr. (R268) -/
  | trap (n : Nat)
  /-- `brk`: Raises BRK with the immediate in xaddr. (R268) -/
  | brk (n : Nat)
  /-- `xm.get`: Copies the execution mask into a uniform register. (R269) -/
  | xmGet (sd : Nat)
  /-- `xm.set`: Sets the execution mask to a register value limited to claimable lanes. (R269) -/
  | xmSet (sd sa : Nat)
  /-- `xm.and`: ANDs the execution mask with a register, detaching cleared lanes. (R269) -/
  | xmAnd (sd sa : Nat)
  /-- `xm.andn`: ANDs the execution mask with the complement of a register. (R269) -/
  | xmAndn (sd sa : Nat)
  /-- `xm.fromp`: ANDs the execution mask with a predicate register. (R269) -/
  | xmFromp (sd p : Nat)
  /-- `xm.pop`: Writes the population count of the execution mask. (R269) -/
  | xmPop (sd : Nat)
  /-- `sadd`: Uniform add. (R270) -/
  | sadd (sd sa sb : Nat) (w32 : Bool)
  /-- `ssub`: Uniform subtract. (R270) -/
  | ssub (sd sa sb : Nat) (w32 : Bool)
  /-- `smul`: Uniform multiply, low half. (R270) -/
  | smul (sd sa sb : Nat) (w32 : Bool)
  /-- `smulh`: Uniform multiply, signed high half. (R270) -/
  | smulh (sd sa sb : Nat) (w32 : Bool)
  /-- `smulhu`: Uniform multiply, unsigned high half. (R270) -/
  | smulhu (sd sa sb : Nat) (w32 : Bool)
  /-- `sdiv`: Uniform signed divide rounding toward zero. (R270) -/
  | sdiv (sd sa sb : Nat) (w32 : Bool)
  /-- `sdivu`: Uniform unsigned divide. (R270) -/
  | sdivu (sd sa sb : Nat) (w32 : Bool)
  /-- `srem`: Uniform signed remainder. (R270) -/
  | srem (sd sa sb : Nat) (w32 : Bool)
  /-- `sand`: Uniform bitwise and. (R270) -/
  | sand (sd sa sb : Nat) (w32 : Bool)
  /-- `sor`: Uniform bitwise or. (R270) -/
  | sor (sd sa sb : Nat) (w32 : Bool)
  /-- `sxor`: Uniform bitwise xor. (R270) -/
  | sxor (sd sa sb : Nat) (w32 : Bool)
  /-- `sandn`: Uniform and-not. (R270) -/
  | sandn (sd sa sb : Nat) (w32 : Bool)
  /-- `sshl`: Uniform shift left. (R270) -/
  | sshl (sd sa sb : Nat) (w32 : Bool)
  /-- `sshr`: Uniform logical shift right. (R270) -/
  | sshr (sd sa sb : Nat) (w32 : Bool)
  /-- `ssra`: Uniform arithmetic shift right. (R270) -/
  | ssra (sd sa sb : Nat) (w32 : Bool)
  /-- `srot`: Uniform rotate left. (R270) -/
  | srot (sd sa sb : Nat) (w32 : Bool)
  /-- `smin`: Uniform signed minimum. (R270) -/
  | smin (sd sa sb : Nat) (w32 : Bool)
  /-- `sminu`: Uniform unsigned minimum. (R270) -/
  | sminu (sd sa sb : Nat) (w32 : Bool)
  /-- `smax`: Uniform signed maximum. (R270) -/
  | smax (sd sa sb : Nat) (w32 : Bool)
  /-- `smaxu`: Uniform unsigned maximum. (R270) -/
  | smaxu (sd sa sb : Nat) (w32 : Bool)
  /-- `spopc`: Uniform population count. (R270) -/
  | spopc (sd sa : Nat) (w32 : Bool)
  /-- `sclz`: Uniform count of leading zeros. (R270) -/
  | sclz (sd sa : Nat) (w32 : Bool)
  /-- `sctz`: Uniform count of trailing zeros. (R270) -/
  | sctz (sd sa : Nat) (w32 : Bool)
  /-- `sbrev`: Uniform bit reversal. (R270) -/
  | sbrev (sd sa : Nat) (w32 : Bool)
  /-- `sbfx`: Extracts a bit field, zero-extended. (R271) -/
  | sbfx (sd sa sb : Nat) (w32 : Bool)
  /-- `sbfi`: Inserts a bit field into the destination. (R271) -/
  | sbfi (sd sa sb : Nat) (w32 : Bool)
  /-- `sseq`: Sets 1 if the operands are equal. (R270) -/
  | sseq (sd sa sb : Nat) (w32 : Bool)
  /-- `sslt`: Sets 1 if a is less than b, signed. (R270) -/
  | sslt (sd sa sb : Nat) (w32 : Bool)
  /-- `ssltu`: Sets 1 if a is less than b, unsigned. (R270) -/
  | ssltu (sd sa sb : Nat) (w32 : Bool)
  /-- `saddi`: Adds a sign-extended immediate to a uniform register. (R272) -/
  | saddi (sd sa imm : Nat)
  /-- `sli`: Loads a sign-extended immediate. (R272) -/
  | sli (sd imm : Nat)
  /-- `sandi`: Ands with a sign-extended immediate. (R272) -/
  | sandi (sd sa imm : Nat)
  /-- `sori`: Ors with a zero-extended immediate. (R272) -/
  | sori (sd sa imm : Nat)
  /-- `sshi`: Shifts or rotates a uniform register by an immediate amount. (R273) -/
  | sshi (sd sa : Nat) (w32 : Bool) (kind amt : Nat)
  /-- `smfs`: Reads a special register into a uniform register. (R274) -/
  | smfs (sd num : Nat)
  /-- `smts`: Writes a special register from a uniform register. (R274) -/
  | smts (sa num : Nat)
  /-- `vmfs`: Reads a per-lane special register into a vector register. (R274) -/
  | vmfs (lo num : Nat) (hi : Bool)
  /-- `satom`: Scalar atomic with return at the address in sa. (R305) -/
  | satom (sd sa sb space op : Nat)
  /-- `scas`: Scalar compare-and-swap of 4, 8 or 16 bytes. (R305) -/
  | scas (sd sa sb space size : Nat)
  /-- `vadd`: Vector integer add. (R278) -/
  | vadd (vd : Nat) (va vb : VSrc)
  /-- `vsub`: Vector integer subtract. (R278) -/
  | vsub (vd : Nat) (va vb : VSrc)
  /-- `vmul`: Vector multiply, low 32 bits. (R278) -/
  | vmul (vd : Nat) (va vb : VSrc)
  /-- `vmulh`: Vector multiply, signed high 32 bits. (R278) -/
  | vmulh (vd : Nat) (va vb : VSrc)
  /-- `vmulhu`: Vector multiply, unsigned high 32 bits. (R278) -/
  | vmulhu (vd : Nat) (va vb : VSrc)
  /-- `vmad`: Vector multiply-add into the destination. (R278) -/
  | vmad (vd : Nat) (va vb : VSrc)
  /-- `vand`: Vector bitwise and. (R278) -/
  | vand (vd : Nat) (va vb : VSrc)
  /-- `vor`: Vector bitwise or. (R278) -/
  | vor (vd : Nat) (va vb : VSrc)
  /-- `vxor`: Vector bitwise xor. (R278) -/
  | vxor (vd : Nat) (va vb : VSrc)
  /-- `vandn`: Vector and-not. (R278) -/
  | vandn (vd : Nat) (va vb : VSrc)
  /-- `vshl`: Vector shift left. (R278) -/
  | vshl (vd : Nat) (va vb : VSrc)
  /-- `vshr`: Vector logical shift right. (R278) -/
  | vshr (vd : Nat) (va vb : VSrc)
  /-- `vsra`: Vector arithmetic shift right. (R278) -/
  | vsra (vd : Nat) (va vb : VSrc)
  /-- `vrot`: Vector rotate left. (R278) -/
  | vrot (vd : Nat) (va vb : VSrc)
  /-- `vmin`: Vector signed minimum. (R278) -/
  | vmin (vd : Nat) (va vb : VSrc)
  /-- `vmax`: Vector signed maximum. (R278) -/
  | vmax (vd : Nat) (va vb : VSrc)
  /-- `vminu`: Vector unsigned minimum. (R278) -/
  | vminu (vd : Nat) (va vb : VSrc)
  /-- `vmaxu`: Vector unsigned maximum. (R278) -/
  | vmaxu (vd : Nat) (va vb : VSrc)
  /-- `vabsd`: Vector absolute difference of signed operands. (R278) -/
  | vabsd (vd : Nat) (va vb : VSrc)
  /-- `vaddc`: Vector carry out of the unsigned sum. (R278) -/
  | vaddc (vd : Nat) (va vb : VSrc)
  /-- `vdot4`: Signed four-byte dot product accumulated into the destination. (R278) -/
  | vdot4 (vd : Nat) (va vb : VSrc)
  /-- `vdot4u`: Unsigned four-byte dot product accumulated into the destination. (R278) -/
  | vdot4u (vd : Nat) (va vb : VSrc)
  /-- `vcmp`: Integer compare of each active lane into a predicate register. (R281) -/
  | vcmp (p cond : Nat) (va vb : VSrc) (uns : Bool)
  /-- `vfcmp`: FP32 compare of each active lane into a predicate register. (R281) -/
  | vfcmp (p cond : Nat) (va vb : VSrc)
  /-- `vmov`: Vector move, a permutation when a selector is given. (R280) -/
  | vmov (vd : Nat) (va : VSrc)
  /-- `vnot`: Vector bitwise not. (R280) -/
  | vnot (vd : Nat) (va : VSrc)
  /-- `vneg`: Vector integer negate. (R280) -/
  | vneg (vd : Nat) (va : VSrc)
  /-- `vabs`: Vector integer absolute value. (R280) -/
  | vabs (vd : Nat) (va : VSrc)
  /-- `vpopc`: Vector population count. (R280) -/
  | vpopc (vd : Nat) (va : VSrc)
  /-- `vclz`: Vector count of leading zeros. (R280) -/
  | vclz (vd : Nat) (va : VSrc)
  /-- `vctz`: Vector count of trailing zeros. (R280) -/
  | vctz (vd : Nat) (va : VSrc)
  /-- `vbrev`: Vector bit reversal. (R280) -/
  | vbrev (vd : Nat) (va : VSrc)
  /-- `vext`: Sign- or zero-extends the low byte or half of each lane. (R280) -/
  | vext (vd : Nat) (va : VSrc) (half zext : Bool)
  /-- `vlid`: Writes each lane's own number. (R280) -/
  | vlid (vd : Nat)
  /-- `vaddi`: Vector add of a sign-extended immediate. (R279) -/
  | vaddi (vd : Nat) (va : VSrc) (imm : Nat)
  /-- `vandi`: Vector and with a sign-extended immediate. (R279) -/
  | vandi (vd : Nat) (va : VSrc) (imm : Nat)
  /-- `vori`: Vector or with a zero-extended immediate. (R279) -/
  | vori (vd : Nat) (va : VSrc) (imm : Nat)
  /-- `vshi`: Vector shift or rotate by an immediate amount. (R279) -/
  | vshi (vd : Nat) (va : VSrc) (kind amt : Nat)
  /-- `vmovi`: Vector move of a sign-extended immediate. (R279) -/
  | vmovi (vd imm : Nat)
  /-- `vperm`: Gathers each lane's value from the lane its index names. (R287) -/
  | vperm (vd : Nat) (va vb : VSrc)
  /-- `vpermx`: Scatters each active lane's value to the lane its index names. (R287) -/
  | vpermx (vd : Nat) (va vb : VSrc)
  /-- `vballot`: Writes the mask of active lanes holding nonzero values to a uniform register. (R288) -/
  | vballot (sd : Nat) (va : VSrc)
  /-- `vredadd`: Exact 64-bit sum over active lanes. (R288) -/
  | vredadd (sd : Nat) (va : VSrc) (uns : Bool)
  /-- `vredmin`: Minimum over active lanes, signed or unsigned. (R288) -/
  | vredmin (sd : Nat) (va : VSrc) (uns : Bool)
  /-- `vredmax`: Maximum over active lanes, signed or unsigned. (R288) -/
  | vredmax (sd : Nat) (va : VSrc) (uns : Bool)
  /-- `vfredadd`: FP32 butterfly sum over all lanes into a uniform register. (R289) -/
  | vfredadd (sd : Nat) (va : VSrc)
  /-- `vfredmax`: FP32 maximum over active lanes. (R288) -/
  | vfredmax (sd : Nat) (va : VSrc)
  /-- `vfirst`: Lowest active lane with a nonzero value, or 32. (R288) -/
  | vfirst (sd : Nat) (va : VSrc)
  /-- `vread`: Reads lane k of a vector register into a uniform register. (R288) -/
  | vread (sd : Nat) (va : VSrc) (k : Nat)
  /-- `vwrite`: Writes a uniform register into lane k of a vector register if active. (R288) -/
  | vwrite (sd vd k : Nat)
  /-- `vbcast`: Writes a uniform register into every active lane. (R288) -/
  | vbcast (sd vd : Nat)
  /-- `vscan`: Inclusive prefix operation over active lanes. (R290) -/
  | vscan (vd : Nat) (va : VSrc) (op : Nat)
  /-- `vscanx`: Exclusive prefix operation over active lanes. (R290) -/
  | vscanx (vd : Nat) (va : VSrc) (op : Nat)
  /-- `vcompact`: Packs active lanes' values into a dense run. (R291) -/
  | vcompact (vd : Nat) (va : VSrc)
  /-- `vexpand`: Spreads a dense run over the active lanes. (R291) -/
  | vexpand (vd : Nat) (va : VSrc)
  /-- `vprune`: Keeps the k most salient weights of each block of 16 and zeroes the rest. (R292) -/
  | vprune (vd : Nat) (va vb : VSrc)
  /-- `vbmap`: Writes the nonzero bitmap of each block of 16 elements. (R293) -/
  | vbmap (vd : Nat) (va vb : VSrc)
  /-- `vfadd`: Floating-point add, rounded once. (R282) -/
  | vfadd (vd : Nat) (va vb : VSrc)
  /-- `vfsub`: Floating-point subtract. (R282) -/
  | vfsub (vd : Nat) (va vb : VSrc)
  /-- `vfmul`: Floating-point multiply. (R282) -/
  | vfmul (vd : Nat) (va vb : VSrc)
  /-- `vfma`: Fused multiply-add into the destination. (R282) -/
  | vfma (vd : Nat) (va vb : VSrc)
  /-- `vfmin`: Floating-point minimum by FSel. (R282) -/
  | vfmin (vd : Nat) (va vb : VSrc)
  /-- `vfmax`: Floating-point maximum by FSel. (R282) -/
  | vfmax (vd : Nat) (va vb : VSrc)
  /-- `vfdiv`: Floating-point divide. (R282) -/
  | vfdiv (vd : Nat) (va vb : VSrc)
  /-- `vfms`: Fused multiply-subtract of the destination. (R282) -/
  | vfms (vd : Nat) (va vb : VSrc)
  /-- `vbdot2`: BF16 pair dot product accumulated into FP32. (R282) -/
  | vbdot2 (vd : Nat) (va vb : VSrc)
  /-- `vhdot2`: FP16 pair dot product accumulated into FP32. (R282) -/
  | vhdot2 (vd : Nat) (va vb : VSrc)
  /-- `vfabs`: Clears the sign. (R283) -/
  | vfabs (vd : Nat) (va : VSrc)
  /-- `vfneg`: Inverts the sign. (R283) -/
  | vfneg (vd : Nat) (va : VSrc)
  /-- `vfrcp`: Correctly rounded reciprocal. (R283) -/
  | vfrcp (vd : Nat) (va : VSrc)
  /-- `vfrsq`: Correctly rounded reciprocal square root. (R283) -/
  | vfrsq (vd : Nat) (va : VSrc)
  /-- `vfsqrt`: Correctly rounded square root. (R283) -/
  | vfsqrt (vd : Nat) (va : VSrc)
  /-- `vfexp2`: Correctly rounded power of two. (R283) -/
  | vfexp2 (vd : Nat) (va : VSrc)
  /-- `vflog2`: Correctly rounded base-2 logarithm. (R283) -/
  | vflog2 (vd : Nat) (va : VSrc)
  /-- `vfsin`: Correctly rounded sine. (R283) -/
  | vfsin (vd : Nat) (va : VSrc)
  /-- `vfcos`: Correctly rounded cosine. (R283) -/
  | vfcos (vd : Nat) (va : VSrc)
  /-- `vfclass`: One-hot class of each value. (R283) -/
  | vfclass (vd : Nat) (va : VSrc)
  /-- `vfrint`: Rounds to an integral value in the mode. (R283) -/
  | vfrint (vd : Nat) (va : VSrc)
  /-- `vcvt`: Converts one element per lane between FP32 and a named type. (R284) -/
  | vcvt (vd : Nat) (va : VSrc) (dir : Bool) (x : Nat)
  /-- `vpack`: Rounds two FP32 values into a packed pair. (R285) -/
  | vpack (vd : Nat) (va vb : VSrc)
  /-- `vunpk`: Widens one half of a packed pair to FP32. (R285) -/
  | vunpk (vd : Nat) (va vb : VSrc)
  /-- `vqblk`: Quantises two blocks of 16 values by BlockScale. (R286) -/
  | vqblk (vd : Nat) (va : VSrc)
  /-- `vdqblk`: Dequantises two block-scaled blocks to FP32. (R286) -/
  | vdqblk (vd : Nat) (va : VSrc)
  /-- `vld`: Vector load from global memory. (R298) -/
  | vld (vdata vaddr sbase size mode : Nat)
  /-- `vst`: Vector store to global memory. (R298) -/
  | vst (vdata vaddr sbase size mode : Nat)
  /-- `vlds`: Vector load from the scratchpad or a lane-private slice. (R298) -/
  | vlds (vdata vaddr sbase size mode : Nat)
  /-- `vsts`: Vector store to the scratchpad or a lane-private slice. (R298) -/
  | vsts (vdata vaddr sbase size mode : Nat)
  /-- `vldc`: Vector load from cluster memory. (R298) -/
  | vldc (vdata vaddr sbase size mode : Nat)
  /-- `vstc`: Vector store to cluster memory. (R298) -/
  | vstc (vdata vaddr sbase size mode : Nat)
  /-- `vldk`: Vector load from the Cave window. (R298) -/
  | vldk (vdata vaddr sbase size mode : Nat)
  /-- `vstk`: Vector store to the Cave window. (R298) -/
  | vstk (vdata vaddr sbase size mode : Nat)
  /-- `vldsub`: Global load with precision subscription. (R299) -/
  | vldsub (vdata vaddr sbase size mode : Nat)
  /-- `sld`: Scalar load from global memory. (R300) -/
  | sld (sd sbase size mode off : Nat)
  /-- `sst`: Scalar store to global memory. (R300) -/
  | sst (sd sbase size mode off : Nat)
  /-- `slds`: Scalar load from the core scratchpad. (R300) -/
  | slds (sd sbase size mode off : Nat)
  /-- `ssts`: Scalar store to the core scratchpad. (R300) -/
  | ssts (sd sbase size mode off : Nat)
  /-- `vatom`: Vector atomic, with return when a hint.ext names the return register. (R303) -/
  | vatom (vdata vaddr sbase space op : Nat)
  /-- `vcas.w`: Vector 4-byte compare-and-swap. (R304) -/
  | vcasW (vdata vaddr sbase space : Nat)
  /-- `vcas.d`: Vector 8-byte compare-and-swap. (R304) -/
  | vcasD (vdata vaddr sbase space : Nat)
  /-- `vcas2`: Vector 16-byte compare-and-swap. (R304) -/
  | vcas2 (vdata vaddr sbase space : Nat)
  /-- `vred`: Vector reduction without return, op 3 to 15. (R304) -/
  | vred (vdata vaddr sbase space op : Nat)
  /-- Event. The cluster service group applies one queued scratchpad or cluster-memory atomic entry and fills return slots. (R106) -/
  | serviceGroupEntryApply (cluster : Nat)
  /-- `prf`: Prefetches a line into the L1 and L2 or the L2 only. (R308) -/
  | prf (sa lvl : Nat)
  /-- `fls`: Writes back dirty bytes of a range at a scope. (R309) -/
  | fls (sa sb scope : Nat)
  /-- `inv`: Writes back and discards device copies of a range at a scope. (R309) -/
  | inv (sa sb scope : Nat)
  /-- `fence`: Orders the thread's accesses at an order and scope. (R143) -/
  | fence (scope order : Nat)
  /-- Event. A fence completes once earlier accesses and wheel instructions are performed at its scope; deferred fabric faults are raised here. (R143) -/
  | fenceComplete (core slot : Nat) (inB : Bool)
  /-- `wfetch`: Brings a vat-managed wheel to the home slice or to a frame, pressing any vat. (R122) -/
  | wfetch (sa sb kind : Nat)
  /-- `wevict`: Presses or evicts a vat-managed wheel back to IDLE. (R122) -/
  | wevict (sa : Nat)
  /-- `wpress`: Presses a VATTED wheel into its lines at the home slice. (R122) -/
  | wpress (sa : Nat)
  /-- `bar.init`: Initialises a barrier object with expected arrivals and waiters. (R312) -/
  | barInit (sa sb : Nat)
  /-- `bar.arr`: Arrives at a barrier, writing acceptance to a predicate. (R312) -/
  | barArr (sa : Nat) (grp : Bool) (p : Nat)
  /-- `bar.wait`: Observes the barrier phase or parks until it changes. (R313) -/
  | barWait (sa sb : Nat)
  /-- Event. A parked bar.wait entry becomes ready when the object's PHASE or EXP changes. (R313) -/
  | barWaitWake (core slot seq : Nat)
  /-- `bar.exp`: Adds a count owed by engines to the barrier's PEND. (R312) -/
  | barExp (sa sb p : Nat)
  /-- `bar.try`: Tests the barrier phase without waiting. (R312) -/
  | barTry (sa sb p : Nat)
  /-- `bar.inval`: Clears a barrier object to invalid. (R312) -/
  | barInval (sa : Nat)
  /-- `tbeg.val`: Opens a transaction in each active lane validated by value. (R155) -/
  | tbegVal (sa n : Nat)
  /-- `tbeg.ts`: Opens a transaction in each active lane validated by version. (R155) -/
  | tbegTs (sa n : Nat)
  /-- Event. A waiting tbeg or tord takes a log slab when one frees. (R156) -/
  | logSlabGrant (core slot : Nat)
  /-- `tend`: Requests commit for the transactional active lanes. (R161) -/
  | tend
  /-- Event. Conflict-checks, locks, validates and writes a batch of lanes at their home slices. (R161) -/
  | groupCommit (core slot region : Nat)
  /-- Event. A die's commit token is granted to a waiting commit. (R161) -/
  | commitTokenGrant (die core slot : Nat)
  /-- Event. When the order token reaches the lowest waiting iteration, the gapless batch is committed in iteration order. (R168) -/
  | orderedBatchCommit (core slot region : Nat)
  /-- Event. An aborted path's back-off count reaches zero and the entry resumes at its tbeg or tord. (R164) -/
  | txBackoffExpiry (core slot seq : Nat)
  /-- Event. Every 65,536 cycles a lane's read log is validated and failing lanes abort. (R172) -/
  | txPeriodicValidation (core slot lane : Nat)
  /-- Event. The module's fallback token is granted to an irrevocable attempt, blocking new commit tokens. (R166) -/
  | fallbackTokenGrant (core slot lane : Nat)
  /-- `tabt`: Ends the transaction of each transactional active lane with cause EXPLICIT. (R165) -/
  | tabt (code : Nat)
  /-- `tstat`: Writes a lane mask selected from txst fields. (R155) -/
  | tstat (sa sel : Nat)
  /-- `tord`: Opens an ordered transaction per lane with an iteration and order token. (R167) -/
  | tord (sa sb n : Nat)
  /-- `ecmd`: Accepts a job card from the scratchpad with declared footprints. (R335) -/
  | ecmd (sa sb : Nat) (guard : Bool) (k : Nat)
  /-- `ewait`: Waits for a job, or the group's matrix requests, and returns its status. (R337) -/
  | ewait (sa sb : Nat)
  /-- `eyield`: Continues at once if the job ended, otherwise parks until it does. (R338) -/
  | eyield (sa sb : Nat)
  /-- Event. A parked eyield entry becomes ready at its continuation when its job ends. (R338) -/
  | eyieldResume (core slot seq : Nat)
  /-- `eguard`: Claims a guard slot for the workgroup. (R339) -/
  | eguard (k : Nat)
  /-- `gres`: Resolves a guard slot true or false. (R339) -/
  | gres (sa k : Nat)
  /-- `ecopy`: Accepts a job card from four uniform registers with derived footprints. (R335) -/
  | ecopy (sa sn : Nat) (guard : Bool) (k : Nat)
  /-- `rrot`: Accepts one party's card of a ring rotation of tiles. (R341) -/
  | rrot (sa sb : Nat) (guard : Bool) (k : Nat)
  /-- `ecoll`: Accepts one party's card of a cluster collective. (R342) -/
  | ecoll (sa sn : Nat) (guard : Bool) (k : Nat)
  /-- `rebal`: Assigns each active lane one item of a list of rows and detaches surplus lanes. (R343) -/
  | rebal (sa sb : Nat) (ptrs : Bool) (vs : Nat)
  /-- `resort`: Arrives at the workgroup collective that re-sorts threads by key. (R344) -/
  | resort (sa vk : Nat)
  /-- `tdesc`: Writes a tile register from two uniform registers. (R345) -/
  | tdescTWrite (sa sb t : Nat)
  /-- `tdesc.r`: Reads a tile register into two uniform registers. (R345) -/
  | tdescTRead (sa sb t : Nat)
  /-- `tdesc`: Writes an accumulator handle. (R345) -/
  | tdescAWrite (sa acc : Nat)
  /-- `tdesc.r`: Reads an accumulator handle. (R345) -/
  | tdescARead (sa acc : Nat)
  /-- `mwld`: Accepts a request to latch a weight block into a sub-array's back latch. (R347) -/
  | mwld (sa sub tb : Nat)
  /-- `mloop`: Accepts a request of C accumulation steps on a sub-array. (R347) -/
  | mloop (sa sb sub ta tb : Nat)
  /-- `mzero`: Accepts a request clearing an accumulator tile. (R348) -/
  | mzero (sa sub acc : Nat)
  /-- `mget`: Accepts a request copying an accumulator tile to memory exactly. (R348) -/
  | mget (sa sub t acc : Nat)
  /-- `mput`: Accepts a request loading an accumulator tile from memory. (R348) -/
  | mput (sa sub t acc : Nat)
  /-- `mstore`: Accepts a request converting an accumulator tile to memory. (R348) -/
  | mstore (sa sub t acc : Nat)
  /-- Event. A free sub-array is granted to the winning candidate request for one pass. (R220) -/
  | subarrayGrant (cluster sub : Nat)
  /-- Event. A granted pass completes; the request retires with its stamp record after its last pass. (R326) -/
  | matrixPassDone (cluster sub : Nat)
  /-- `rfe`: Ends the trap routine and applies ACTION to the stopped group. (R359) -/
  | rfe
  /-- `tlbi`: Starts invalidation of selected TLB entries on the module. (R61) -/
  | tlbi (sa sb kind : Nat)
  /-- Event. A tlbi completes once stores, walks, accesses and engine translations have drained. (R62) -/
  | tlbiComplete (core slot : Nat)
  /-- `ctxsv`: Writes a stopped group's context to a save area. (R350) -/
  | ctxsv (sa sb : Nat)
  /-- `ctxld`: Loads a stopped group's context from a save area. (R350) -/
  | ctxld (sa sb : Nat)
  /-- `sysc`: Sends 64 bytes of supervisor mail to a die's mail ring. (R351) -/
  | sysc (sa sb cls : Nat)
  /-- Event. Mail is written to the destination ring and its tail advanced. (R351) -/
  | syscMailArrival (die src cls : Nat) (body : List Byte)
  /-- `dump`: Freezes the cores named in a mask for a time limit. (R352) -/
  | dump (sa sb : Nat)
  /-- Event. A frozen core's release deadline passes and its groups continue. (R372) -/
  | dumpTimeLimit (core : Nat)
  /-- Event. A write to a monitored line makes the parked entry ready to issue its hint run again. (R206) -/
  | mwaitWake (core slot seq : Nat)
  /-- Event. A parked entry's LEFT reaches zero and its lanes continue after the mwait. (R206) -/
  | mwaitTimeLimit (core slot seq : Nat)
  /-- Event. All active lanes' data have returned and the destination is written. (R298) -/
  | loadDataReturn (core slot : Nat)
  /-- Event. A page walk completes and answers every pending miss its leaf covers. (R55) -/
  | pageWalkDone (die asid : Nat) (va : W64)
  /-- Event. The directory serialises a load request and changes the line's state and rinds. (R101) -/
  | dirLoadRequest (core pa : Nat) (tag : Tag) (upd : Bool)
  /-- Event. The directory serialises an upgrade to a new format and replies with the line. (R94) -/
  | dirUpgradeRequest (core pa : Nat) (tag : Tag)
  /-- Event. A store from an L1 takes the line in M or is written through to the home slice. (R97) -/
  | dirStoreRequest (core pa : Nat) (data : List Byte)
  /-- Event. A write at a home slice is compared rind by rind and sharers disturbed are invalidated or updated. (R98) -/
  | sliceWrite (pa : Nat) (data : List Byte)
  /-- Event. An owner evicts its M line and the write-back is merged at the slice. (R101) -/
  | ownerWriteback (core pa : Nat)
  /-- Event. An owning core receives a recall, writes back dirty bytes and invalidates or downgrades. (R103) -/
  | recallArrival (core pa : Nat) (downgrade : Bool)
  /-- Event. A core drops copies of a line at the rind's format and acknowledges. (R90) -/
  | l1InvalidateArrival (core pa : Nat) (tag : Tag)
  /-- Event. A core replaces its copy with SubWord of the new line and acknowledges. (R99) -/
  | l1UpdateArrival (core pa : Nat) (tag : Tag)
  /-- Event. The last acknowledgement arrives and the waiting write is performed at device scope. (R100) -/
  | sharerAckArrival (pa : Nat)
  /-- Event. A service group appends a unit to a wheel's vat with compaction or applies it to a resident wheel. (R117) -/
  | vatUnitIntake (die cluster : Nat)
  /-- Event. A load of a VATTED or PRESSING wheel returns the line with pending entries applied. (R120) -/
  | mergedRead (pa size : Nat)
  /-- Event. A press writes the wheel, frees the vat and releases the units that waited for it. (R121) -/
  | pressDone (wheel : Nat)
  /-- Event. A fabric read, write or atomic is served at the owning module. (R188) -/
  | remoteRequestArrival (src op pa size : Nat) (tag : Tag) (data : List Byte)
  /-- Event. A remote wheel fill is installed as 32 lines at the issuer's home slice. (R190) -/
  | remoteFillArrival (wheel : Nat) (tag : Tag) (data : List Byte)
  /-- Event. A module drops all lines and L1 copies of a remote wheel and acknowledges. (R190) -/
  | wheelInvalidateArrival (wheel : Nat)
  /-- Event. A fabric or host-port request's timeout expires. (R192) -/
  | fabricTimeoutExpiry (req : Nat)
  /-- Event. An error completion or Completer Abort is treated as an expired timeout. (R192) -/
  | fabricErrorCompletion (req : Nat)
  /-- Event. A module's invalidation acknowledgement times out and it is marked failed. (R193) -/
  | invalAckTimeout (module pa : Nat)
  /-- Event. A host AtomicOp completes with Unsupported Request and ATOM_UNSUP is raised after issue. (R185) -/
  | hostAtomicUrCompletion (req : Nat)
  /-- Event. A posted host write is performed at the Cave's coherent window and wakes monitors. (R176) -/
  | hostWriteBar2 (off : Nat) (data : List Byte)
  /-- Event. A host read is served at the coherent window. (R176) -/
  | hostReadBar2 (off size : Nat)
  /-- Event. A host FetchAdd, Swap or CAS is performed at the Cave. (R181) -/
  | hostAtomicopBar2 (op off size : Nat) (operand compare : BitVec 128)
  /-- Event. A posted host write to HBM is performed at the home slice. (R176) -/
  | hostWriteBar4 (off : Nat) (data : List Byte)
  /-- Event. A host read of HBM is served at full precision at the home slice. (R176) -/
  | hostReadBar4 (off size : Nat)
  /-- Event. Writes a control register that has no behaviour of its own. (R178) -/
  | controlRegisterWrite (byHost : Bool) (addr size : Nat) (value : W64)
  /-- Event. Raises the written MSI-X vector as a posted write. (R177) -/
  | msixtrigWrite (byHost : Bool) (value : W64)
  /-- Event. Writes a Cave window entry and re-decides which entries of the die are in use. (R77) -/
  | cavewinWrite (die entry word : Nat) (value : W64)
  /-- Event. Kills the named launch. (R365) -/
  | lkillKill (handle : W32)
  /-- Event. Kills the named launch and every launch spawned from it. (R365) -/
  | lkillKillTree (handle : W32)
  /-- Event. Raises a stop event for every group of the named launch. (R371) -/
  | dbgstopWrite (handle : W32)
  /-- Event. Releases every frozen core of the module. (R372) -/
  | dumprelWrite
  /-- Event. Turns record and replay off. (R377) -/
  | rrctlModeOff (value : W64)
  /-- Event. Starts recording, invalidating enabled lines from L1s and clearing logs. (R377) -/
  | rrctlModeRecord (value : W64)
  /-- Event. Starts replay with the loaded logs gating enabled lines. (R378) -/
  | rrctlModeReplay (value : W64)
  /-- Event. Clears DIVERGED or LOGOVF by writing one. (R370) -/
  | rrstatClear (value : W64)
  /-- Event. A gate makes no progress for 1 ms while a request waits, reports divergence and opens. (R378) -/
  | replayGateTimeout (die entry : Nat)
  /-- Event. Every 2^K cycles each core writes one stall sample. (R375) -/
  | sampleTimer (core : Nat)
  /-- Event. Starts verification of the staged firmware image. (R382) -/
  | fwctlVerify (value : W64)
  /-- Event. Verification ends, setting STAGED or REJECTED. (R382) -/
  | fwVerifyDone
  /-- Event. Starts an attestation over the nonce. (R384) -/
  | attctlStart
  /-- Event. The signed report is written to the coherent window and BUSY clears. (R384) -/
  | attestationDone
  /-- Event. Requests the ACTIVE power state. (R385) -/
  | pwrctlActive
  /-- Event. Requests the IDLE state, gating clusters with no resident group. (R385) -/
  | pwrctlIdle
  /-- Event. Requests RETAIN, refused if any launch has resident or saved groups. (R385) -/
  | pwrctlRetain
  /-- Event. At each 1 ms window the main clock is adjusted to keep power at or below PCAP. (R386) -/
  | powerCapWindow (mhz : Nat)
  /-- Event. A junction reaches 105 °C; the clock is lowered and MSI-X vector 4 raised. (R387) -/
  | thermalThrottle (die : Nat) (reading : Byte)
  /-- Event. A junction reaches 115 °C and the module enters reset. (R387) -/
  | thermalTrip (die : Nat) (reading : Byte)
  /-- Event. Module reset starts the boot sequence. (R380) -/
  | moduleReset
  /-- Event. A boot stage completes and the next begins. (R380) -/
  | bootStageDone (ok : Bool)
  /-- Event. A distributor places its next unit on the core or cluster that fits best. (R216) -/
  | unitPlacement (die : Nat)
  /-- Event. 100 µs after a unit is first passed over, later launches stop placing on its die. (R214) -/
  | passOverTimeout (die : Nat)
  /-- Event. A victim distributor gives up half its unplaced units and replies. (R215) -/
  | stealRequestArrival (victim thief : Nat)
  /-- Event. A thief receives stolen unit indices, or an empty reply. (R215) -/
  | stealReplyArrival (thief : Nat)
  /-- Event. A distributor reports its unplaced count at most 2 µs after its last report. (R215) -/
  | countReportTimer (die : Nat)
  /-- Event. A distributor records another die's reported count. (R215) -/
  | countReportArrival (die src count : Nat)
  /-- Event. A group with no lanes finishes draining; workgroup and launch end and DONE is written. (R208) -/
  | groupDrainDone (core slot : Nat)
  /-- Event. A ready card at the head of its queue runs its elements in order. (R336) -/
  | engineJobStart (core : Nat)
  /-- Event. A copied chunk or row arrives and decrements its barrier's PEND. (R84) -/
  | engineChunkArrival (core card elem : Nat)
  /-- Event. A job ends, writes its status word, settles barrier counts and releases its edges. (R334) -/
  | engineJobEnd (core card : Nat)
  /-- Event. A job suspended on PAGE_NP resumes when its ring entry reads 2, or ends faulted on 3. (R60) -/
  | engineJobResume (core card : Nat)
  /-- Event. When all four parties' cards reach their queue heads, the rotation or collective runs. (R340) -/
  | collectiveStart (cluster : Nat)
  /-- Event. A trapping group stops once its outstanding results are written and its trap registers are set. (R356) -/
  | groupStopped (core slot : Nat)
  /-- Event. The trap context starts the routine for its next event at the vector base. (R355) -/
  | trapEventStart (core : Nat)
  /-- Event. A corrected error is repaired, counted and may become a lasting fault. (R367) -/
  | correctedEccError (die : Nat) (loc : Nat)
  /-- Event. An uncorrectable error raises ECC_UNCORR at the consumer or poisons the line. (R86) -/
  | uncorrectableEccError (pa : Nat)
  /-- Event. A device global load, store or atomic to the coherent window is performed at the Cave of the die that its address names, in program order per core, and wakes monitors on the line. (R78) -/
  | coherentWindowAccess (core pa size op : Nat) (data : List Byte)
  /-- Event. A cluster-memory access that crosses the cluster crossbar is performed at another core's share, in the order the issuing core sent its requests to that share. (R74) -/
  | clusterCrossbarAccess (core slot off size : Nat) (store : Bool) (data : List Byte)
  /-- Event. A variable-latency producer that is not a memory access, such as sdiv, vfdiv or smfs, delivers its result, which is written or discarded if a later write to the register is already in flight. (R238) -/
  | variableLatencyResult (core slot : Nat)
  /-- Event. System software clears the failed mark of a module, so that requests to and from it no longer fail at once with FABRIC_TIMEOUT. (R193) -/
  | failedModuleMarkClear (module : Nat)
  deriving DecidableEq, Repr

end Sys2Proof
end

