-- ==== Sys2Proof/WellFormed.lean ====
section
/-!
DEFINITION. Which instruction terms are well formed: every field within its width (Table 12-1) and holding a value that its
form defines (R233, R251 and the chapters that define the forms). A word whose fields break one of these
conditions raises IIN; conditions that depend on the group (its register allocation, user or supervisor code, the hints
before the word) are checked by the meanings. A hardware event carries no word, and nothing restricts its fields here.
-/
namespace Sys2Proof

/-- A vector source field holds a 7-bit number and a 2-bit selector (R231). -/
def VSrc.wf (x : VSrc) : Bool := decide (x.reg < 128) && decide (x.sel < 4)

/-- A doubleword names an even data register and a quadword one that is a multiple of 4 (Table 16-1). -/
def mvAlign (vdata size : Nat) : Bool := (size != 3 || vdata % 2 == 0) && (size != 4 || vdata % 4 == 0)

/-- The numbers of Table 10-3 that `smfs` may name. -/
def smfsNum (n : Nat) : Bool := (n == 1 || n == 2 || n == 3 || n == 7) || (decide (8 ≤ n) && decide (n ≤ 23)) || (decide (32 ≤ n) && decide (n ≤ 35))

/-- The numbers of Table 10-3 that `smts` may name. -/
def smtsNum (n : Nat) : Bool := (n == 1 || n == 2 || n == 7) || (decide (8 ≤ n) && decide (n ≤ 23)) || (decide (32 ≤ n) && decide (n ≤ 35))

/-- Size and mode of an MV word (Table 13-3, Table 16-1): `m2` says whether the form takes mode 2, `m4` whether it takes mode 4. -/
def mvMode (vdata vaddr size mode : Nat) (m2 m4 : Bool) : Bool :=
  decide (size ≤ 4) && decide (mode ≤ 4) && (mode != 2 || m2) && (mode != 4 || m4) && ((mode != 1 && mode != 3) || vaddr == 0)
    && (mode != 2 || decide (vaddr < 8)) && mvAlign vdata size

/-- Size and mode of an SO word (R300, Table 16-2): `top` is the highest mode of the form. -/
def ssMode (sd sbase size mode off top : Nat) (load : Bool) : Bool :=
  decide (size ≤ 4) && decide (mode ≤ top) && (size != 4 || sd % 2 == 0) && (mode != 2 || decide (off < 8))
    && (!load || mode == 0 || (sd != sbase && (size != 4 || sd + 1 != sbase)))

/-- Whether a step is well formed; `tlbi` takes any sa and sb where its kind uses neither. (DESIGN CHOICE, log entry 88, unsafe.) -/
def Instr.wellFormed : Instr → Bool
  | .nop => true
  | .hintSch ymask c4 c3 c2 c1 => decide (ymask < 16) && decide (c4 < 16) && decide (c3 < 16) && decide (c2 < 16) && decide (c1 < 16)
  | .hintImm payload => decide (payload < 4194304)
  | .hintOrd scope order => decide (scope < 8) && decide (order < 8) && decide (order ≤ 4) && decide (scope ≤ 5)
  | .hintMod _ sub _ pk _ rnd cache => decide (sub < 8) && decide (pk < 4) && decide (rnd < 8) && decide (cache < 4) && decide (sub ≤ 6) && decide (pk ≤ 2) && decide (rnd ≤ 4)
  | .hintExt sel cls reg => decide (sel < 4) && decide (cls < 8) && decide (reg < 128) && decide (cls ≤ 5) && (sel == 0 || cls == 0)
  | .br off => decide (off < 4194304)
  | .bxz off => decide (off < 4194304)
  | .bxnz off => decide (off < 4194304)
  | .bxall off => decide (off < 4194304)
  | .bs sa cond off => decide (sa < 64) && decide (cond < 16) && decide (off < 65536) && decide (cond ≤ 5)
  | .call off => decide (off < 4194304)
  | .bdiv p _ off => decide (p < 8) && decide (off < 4194304)
  | .ret => true
  | .calli sa => decide (sa < 64)
  | .jmpi sa => decide (sa < 64)
  | .bjt sa sb vi => decide (sa < 64) && decide (sb < 64) && decide (vi < 128)
  | .join => true
  | .yield => true
  | .exit => true
  | .mwait sa sb _ _ cond => decide (sa < 64) && decide (sb < 64) && decide (cond < 8) && decide (cond ≤ 5)
  | .spawn sa sb sup => decide (sa < 64) && decide (sb < 64) && (!sup || sa != 63)
  | .waitc sa sb => decide (sa < 64) && decide (sb < 64)
  | .trap n => decide (n < 256)
  | .brk n => decide (n < 256)
  | .xmGet sd => decide (sd < 64)
  | .xmSet sd sa => decide (sd < 64) && decide (sa < 64)
  | .xmAnd sd sa => decide (sd < 64) && decide (sa < 64)
  | .xmAndn sd sa => decide (sd < 64) && decide (sa < 64)
  | .xmFromp sd p => decide (sd < 64) && decide (p < 8)
  | .xmPop sd => decide (sd < 64)
  | .sadd sd sa sb _ => decide (sd < 64) && decide (sa < 64) && decide (sb < 64)
  | .ssub sd sa sb _ => decide (sd < 64) && decide (sa < 64) && decide (sb < 64)
  | .smul sd sa sb _ => decide (sd < 64) && decide (sa < 64) && decide (sb < 64)
  | .smulh sd sa sb _ => decide (sd < 64) && decide (sa < 64) && decide (sb < 64)
  | .smulhu sd sa sb _ => decide (sd < 64) && decide (sa < 64) && decide (sb < 64)
  | .sdiv sd sa sb _ => decide (sd < 64) && decide (sa < 64) && decide (sb < 64)
  | .sdivu sd sa sb _ => decide (sd < 64) && decide (sa < 64) && decide (sb < 64)
  | .srem sd sa sb _ => decide (sd < 64) && decide (sa < 64) && decide (sb < 64)
  | .sand sd sa sb _ => decide (sd < 64) && decide (sa < 64) && decide (sb < 64)
  | .sor sd sa sb _ => decide (sd < 64) && decide (sa < 64) && decide (sb < 64)
  | .sxor sd sa sb _ => decide (sd < 64) && decide (sa < 64) && decide (sb < 64)
  | .sandn sd sa sb _ => decide (sd < 64) && decide (sa < 64) && decide (sb < 64)
  | .sshl sd sa sb _ => decide (sd < 64) && decide (sa < 64) && decide (sb < 64)
  | .sshr sd sa sb _ => decide (sd < 64) && decide (sa < 64) && decide (sb < 64)
  | .ssra sd sa sb _ => decide (sd < 64) && decide (sa < 64) && decide (sb < 64)
  | .srot sd sa sb _ => decide (sd < 64) && decide (sa < 64) && decide (sb < 64)
  | .smin sd sa sb _ => decide (sd < 64) && decide (sa < 64) && decide (sb < 64)
  | .sminu sd sa sb _ => decide (sd < 64) && decide (sa < 64) && decide (sb < 64)
  | .smax sd sa sb _ => decide (sd < 64) && decide (sa < 64) && decide (sb < 64)
  | .smaxu sd sa sb _ => decide (sd < 64) && decide (sa < 64) && decide (sb < 64)
  | .spopc sd sa _ => decide (sd < 64) && decide (sa < 64)
  | .sclz sd sa _ => decide (sd < 64) && decide (sa < 64)
  | .sctz sd sa _ => decide (sd < 64) && decide (sa < 64)
  | .sbrev sd sa _ => decide (sd < 64) && decide (sa < 64)
  | .sbfx sd sa sb _ => decide (sd < 64) && decide (sa < 64) && decide (sb < 64)
  | .sbfi sd sa sb _ => decide (sd < 64) && decide (sa < 64) && decide (sb < 64)
  | .sseq sd sa sb _ => decide (sd < 64) && decide (sa < 64) && decide (sb < 64)
  | .sslt sd sa sb _ => decide (sd < 64) && decide (sa < 64) && decide (sb < 64)
  | .ssltu sd sa sb _ => decide (sd < 64) && decide (sa < 64) && decide (sb < 64)
  | .saddi sd sa imm => decide (sd < 64) && decide (sa < 64) && decide (imm < 16384)
  | .sli sd imm => decide (sd < 64) && decide (imm < 1048576)
  | .sandi sd sa imm => decide (sd < 64) && decide (sa < 64) && decide (imm < 16384)
  | .sori sd sa imm => decide (sd < 64) && decide (sa < 64) && decide (imm < 16384)
  | .sshi sd sa w32 kind amt => decide (sd < 64) && decide (sa < 64) && decide (kind < 4) && decide (amt < 64) && (!w32 || decide (amt < 32))
  | .smfs sd num => decide (sd < 64) && decide (num < 64) && smfsNum num
  | .smts sa num => decide (sa < 64) && decide (num < 64) && smtsNum num
  | .vmfs lo num _ => decide (lo < 64) && decide (num < 64) && (num == 4 || num == 5 || num == 6)
  | .satom sd sa sb space op => decide (sd < 64) && decide (sa < 64) && decide (sb < 64) && decide (space < 4) && decide (op < 16) && decide (space ≤ 2) && op != 15
  | .scas sd sa sb space size => decide (sd < 64) && decide (sa < 64) && decide (sb < 64) && decide (space < 4) && decide (size < 4) && decide (space ≤ 2) && decide (size ≤ 2) && (size != 2 || (sd % 2 == 0 && sb % 2 == 0))
  | .vadd vd va vb => decide (vd < 128) && va.wf && vb.wf
  | .vsub vd va vb => decide (vd < 128) && va.wf && vb.wf
  | .vmul vd va vb => decide (vd < 128) && va.wf && vb.wf
  | .vmulh vd va vb => decide (vd < 128) && va.wf && vb.wf
  | .vmulhu vd va vb => decide (vd < 128) && va.wf && vb.wf
  | .vmad vd va vb => decide (vd < 128) && va.wf && vb.wf
  | .vand vd va vb => decide (vd < 128) && va.wf && vb.wf
  | .vor vd va vb => decide (vd < 128) && va.wf && vb.wf
  | .vxor vd va vb => decide (vd < 128) && va.wf && vb.wf
  | .vandn vd va vb => decide (vd < 128) && va.wf && vb.wf
  | .vshl vd va vb => decide (vd < 128) && va.wf && vb.wf
  | .vshr vd va vb => decide (vd < 128) && va.wf && vb.wf
  | .vsra vd va vb => decide (vd < 128) && va.wf && vb.wf
  | .vrot vd va vb => decide (vd < 128) && va.wf && vb.wf
  | .vmin vd va vb => decide (vd < 128) && va.wf && vb.wf
  | .vmax vd va vb => decide (vd < 128) && va.wf && vb.wf
  | .vminu vd va vb => decide (vd < 128) && va.wf && vb.wf
  | .vmaxu vd va vb => decide (vd < 128) && va.wf && vb.wf
  | .vabsd vd va vb => decide (vd < 128) && va.wf && vb.wf
  | .vaddc vd va vb => decide (vd < 128) && va.wf && vb.wf
  | .vdot4 vd va vb => decide (vd < 128) && va.wf && vb.wf
  | .vdot4u vd va vb => decide (vd < 128) && va.wf && vb.wf
  | .vcmp p cond va vb _ => decide (p < 8) && decide (cond < 16) && va.wf && vb.wf && decide (cond ≤ 5)
  | .vfcmp p cond va vb => decide (p < 8) && decide (cond < 16) && va.wf && vb.wf && decide (cond ≤ 7)
  | .vmov vd va => decide (vd < 128) && va.wf
  | .vnot vd va => decide (vd < 128) && va.wf
  | .vneg vd va => decide (vd < 128) && va.wf
  | .vabs vd va => decide (vd < 128) && va.wf
  | .vpopc vd va => decide (vd < 128) && va.wf
  | .vclz vd va => decide (vd < 128) && va.wf
  | .vctz vd va => decide (vd < 128) && va.wf
  | .vbrev vd va => decide (vd < 128) && va.wf
  | .vext vd va _ _ => decide (vd < 128) && va.wf
  | .vlid vd => decide (vd < 128)
  | .vaddi vd va imm => decide (vd < 128) && va.wf && decide (imm < 1024)
  | .vandi vd va imm => decide (vd < 128) && va.wf && decide (imm < 1024)
  | .vori vd va imm => decide (vd < 128) && va.wf && decide (imm < 1024)
  | .vshi vd va kind amt => decide (vd < 128) && va.wf && decide (kind < 4) && decide (amt < 32)
  | .vmovi vd imm => decide (vd < 128) && decide (imm < 1024)
  | .vperm vd va vb => decide (vd < 128) && va.wf && vb.wf
  | .vpermx vd va vb => decide (vd < 128) && va.wf && vb.wf
  | .vballot sd va => decide (sd < 64) && va.wf
  | .vredadd sd va _ => decide (sd < 64) && va.wf
  | .vredmin sd va _ => decide (sd < 64) && va.wf
  | .vredmax sd va _ => decide (sd < 64) && va.wf
  | .vfredadd sd va => decide (sd < 64) && va.wf
  | .vfredmax sd va => decide (sd < 64) && va.wf
  | .vfirst sd va => decide (sd < 64) && va.wf
  | .vread sd va k => decide (sd < 64) && va.wf && decide (k < 32)
  | .vwrite sd vd k => decide (sd < 64) && decide (vd < 128) && decide (k < 32)
  | .vbcast sd vd => decide (sd < 64) && decide (vd < 128)
  | .vscan vd va op => decide (vd < 128) && va.wf && decide (op < 8) && decide (op ≤ 5)
  | .vscanx vd va op => decide (vd < 128) && va.wf && decide (op < 8) && decide (op ≤ 5)
  | .vcompact vd va => decide (vd < 128) && va.wf
  | .vexpand vd va => decide (vd < 128) && va.wf
  | .vprune vd va vb => decide (vd < 128) && va.wf && vb.wf
  | .vbmap vd va vb => decide (vd < 128) && va.wf && vb.wf
  | .vfadd vd va vb => decide (vd < 128) && va.wf && vb.wf
  | .vfsub vd va vb => decide (vd < 128) && va.wf && vb.wf
  | .vfmul vd va vb => decide (vd < 128) && va.wf && vb.wf
  | .vfma vd va vb => decide (vd < 128) && va.wf && vb.wf
  | .vfmin vd va vb => decide (vd < 128) && va.wf && vb.wf
  | .vfmax vd va vb => decide (vd < 128) && va.wf && vb.wf
  | .vfdiv vd va vb => decide (vd < 128) && va.wf && vb.wf
  | .vfms vd va vb => decide (vd < 128) && va.wf && vb.wf
  | .vbdot2 vd va vb => decide (vd < 128) && va.wf && vb.wf
  | .vhdot2 vd va vb => decide (vd < 128) && va.wf && vb.wf
  | .vfabs vd va => decide (vd < 128) && va.wf
  | .vfneg vd va => decide (vd < 128) && va.wf
  | .vfrcp vd va => decide (vd < 128) && va.wf
  | .vfrsq vd va => decide (vd < 128) && va.wf
  | .vfsqrt vd va => decide (vd < 128) && va.wf
  | .vfexp2 vd va => decide (vd < 128) && va.wf
  | .vflog2 vd va => decide (vd < 128) && va.wf
  | .vfsin vd va => decide (vd < 128) && va.wf
  | .vfcos vd va => decide (vd < 128) && va.wf
  | .vfclass vd va => decide (vd < 128) && va.wf
  | .vfrint vd va => decide (vd < 128) && va.wf
  | .vcvt vd va _ x => decide (vd < 128) && va.wf && decide (x < 16)
  | .vpack vd va vb => decide (vd < 128) && va.wf && vb.wf
  | .vunpk vd va vb => decide (vd < 128) && va.wf && vb.wf
  | .vqblk vd va => decide (vd < 128) && va.wf
  | .vdqblk vd va => decide (vd < 128) && va.wf
  | .vld vdata vaddr sbase size mode => decide (vdata < 128) && decide (vaddr < 128) && decide (sbase < 64) && decide (size < 8) && decide (mode < 8) && mvMode vdata vaddr size mode false false
  | .vst vdata vaddr sbase size mode => decide (vdata < 128) && decide (vaddr < 128) && decide (sbase < 64) && decide (size < 8) && decide (mode < 8) && mvMode vdata vaddr size mode false false
  | .vlds vdata vaddr sbase size mode => decide (vdata < 128) && decide (vaddr < 128) && decide (sbase < 64) && decide (size < 8) && decide (mode < 8) && mvMode vdata vaddr size mode true true
  | .vsts vdata vaddr sbase size mode => decide (vdata < 128) && decide (vaddr < 128) && decide (sbase < 64) && decide (size < 8) && decide (mode < 8) && mvMode vdata vaddr size mode true true
  | .vldc vdata vaddr sbase size mode => decide (vdata < 128) && decide (vaddr < 128) && decide (sbase < 64) && decide (size < 8) && decide (mode < 8) && mvMode vdata vaddr size mode true false
  | .vstc vdata vaddr sbase size mode => decide (vdata < 128) && decide (vaddr < 128) && decide (sbase < 64) && decide (size < 8) && decide (mode < 8) && mvMode vdata vaddr size mode true false
  | .vldk vdata vaddr sbase size mode => decide (vdata < 128) && decide (vaddr < 128) && decide (sbase < 64) && decide (size < 8) && decide (mode < 8) && mvMode vdata vaddr size mode false false
  | .vstk vdata vaddr sbase size mode => decide (vdata < 128) && decide (vaddr < 128) && decide (sbase < 64) && decide (size < 8) && decide (mode < 8) && mvMode vdata vaddr size mode false false
  | .vldsub vdata vaddr sbase size mode => decide (vdata < 128) && decide (vaddr < 128) && decide (sbase < 64) && decide (size < 8) && decide (mode < 8) && mvMode vdata vaddr size mode false false
  | .sld sd sbase size mode off => decide (sd < 64) && decide (sbase < 64) && decide (size < 8) && decide (mode < 4) && decide (off < 256) && ssMode sd sbase size mode off 1 true
  | .sst sd sbase size mode off => decide (sd < 64) && decide (sbase < 64) && decide (size < 8) && decide (mode < 4) && decide (off < 256) && ssMode sd sbase size mode off 1 false
  | .slds sd sbase size mode off => decide (sd < 64) && decide (sbase < 64) && decide (size < 8) && decide (mode < 4) && decide (off < 256) && ssMode sd sbase size mode off 2 true
  | .ssts sd sbase size mode off => decide (sd < 64) && decide (sbase < 64) && decide (size < 8) && decide (mode < 4) && decide (off < 256) && ssMode sd sbase size mode off 2 false
  | .vatom vdata vaddr sbase space op => decide (vdata < 128) && decide (vaddr < 128) && decide (sbase < 64) && decide (space < 4) && decide (op < 16) && decide (space ≤ 2) && op != 15 && ((op != 12 && op != 13) || vdata % 2 == 0)
  | .vcasW vdata vaddr sbase space => decide (vdata < 128) && decide (vaddr < 128) && decide (sbase < 64) && decide (space < 4) && decide (space ≤ 2) && vdata % 2 == 0
  | .vcasD vdata vaddr sbase space => decide (vdata < 128) && decide (vaddr < 128) && decide (sbase < 64) && decide (space < 4) && decide (space ≤ 2) && vdata % 4 == 0
  | .vcas2 vdata vaddr sbase space => decide (vdata < 128) && decide (vaddr < 128) && decide (sbase < 64) && decide (space < 4) && decide (space ≤ 2) && vdata % 8 == 0
  | .vred vdata vaddr sbase space op => decide (vdata < 128) && decide (vaddr < 128) && decide (sbase < 64) && decide (space < 4) && decide (op < 16) && decide (3 ≤ op) && decide (space ≤ 2) && (op != 14 || vdata % 2 == 0)
  | .serviceGroupEntryApply .. => true
  | .prf sa lvl => decide (sa < 64) && decide (lvl < 4) && decide (lvl ≤ 1)
  | .fls sa sb scope => decide (sa < 64) && decide (sb < 64) && decide (scope < 8) && decide (scope ≤ 5)
  | .inv sa sb scope => decide (sa < 64) && decide (sb < 64) && decide (scope < 8) && decide (scope ≤ 5)
  | .fence scope order => decide (scope < 8) && decide (order < 8) && (order != 0 && decide (order ≤ 4)) && decide (scope ≤ 5)
  | .fenceComplete .. => true
  | .wfetch sa sb kind => decide (sa < 64) && decide (sb < 64) && decide (kind < 4) && decide (kind ≤ 2) && (kind != 0 || sb == 0)
  | .wevict sa => decide (sa < 64)
  | .wpress sa => decide (sa < 64)
  | .barInit sa sb => decide (sa < 64) && decide (sb < 64)
  | .barArr sa _ p => decide (sa < 64) && decide (p < 8)
  | .barWait sa sb => decide (sa < 64) && decide (sb < 64)
  | .barWaitWake .. => true
  | .barExp sa sb p => decide (sa < 64) && decide (sb < 64) && decide (p < 8)
  | .barTry sa sb p => decide (sa < 64) && decide (sb < 64) && decide (p < 8)
  | .barInval sa => decide (sa < 64)
  | .tbegVal sa n => decide (sa < 64) && decide (n < 16) && n != 0
  | .tbegTs sa n => decide (sa < 64) && decide (n < 16) && n != 0
  | .logSlabGrant .. => true
  | .tend => true
  | .groupCommit .. => true
  | .commitTokenGrant .. => true
  | .orderedBatchCommit .. => true
  | .txBackoffExpiry .. => true
  | .txPeriodicValidation .. => true
  | .fallbackTokenGrant .. => true
  | .tabt code => decide (code < 256)
  | .tstat sa sel => decide (sa < 64) && decide (sel < 4) && decide (sel ≤ 3)
  | .tord sa sb n => decide (sa < 64) && decide (sb < 64) && decide (n < 16) && n != 0
  | .ecmd sa sb guard k => decide (sa < 64) && decide (sb < 64) && decide (k < 16) && (guard || k == 0)
  | .ewait sa sb => decide (sa < 64) && decide (sb < 64)
  | .eyield sa sb => decide (sa < 64) && decide (sb < 64)
  | .eyieldResume .. => true
  | .eguard k => decide (k < 16)
  | .gres sa k => decide (sa < 64) && decide (k < 16)
  | .ecopy sa sn guard k => decide (sa < 64) && decide (sn < 64) && decide (k < 16) && (guard || k == 0) && sn % 4 == 0 && sn != 0
  | .rrot sa sb guard k => decide (sa < 64) && decide (sb < 64) && decide (k < 16) && (guard || k == 0)
  | .ecoll sa sn guard k => decide (sa < 64) && decide (sn < 64) && decide (k < 16) && (guard || k == 0) && sn % 2 == 0
  | .rebal sa sb _ vs => decide (sa < 64) && decide (sb < 64) && decide (vs < 128)
  | .resort sa vk => decide (sa < 64) && decide (vk < 128) && sa % 2 == 0
  | .tdescTWrite sa sb t => decide (sa < 64) && decide (sb < 64) && decide (t < 8)
  | .tdescTRead sa sb t => decide (sa < 64) && decide (sb < 64) && decide (t < 8)
  | .tdescAWrite sa acc => decide (sa < 64) && decide (acc < 8)
  | .tdescARead sa acc => decide (sa < 64) && decide (acc < 8)
  | .mwld sa sub tb => decide (sa < 64) && decide (sub < 4) && decide (tb < 8)
  | .mloop sa sb sub ta tb => decide (sa < 64) && decide (sb < 64) && decide (sub < 4) && decide (ta < 8) && decide (tb < 8)
  | .mzero sa sub acc => decide (sa < 64) && decide (sub < 4) && decide (acc < 8)
  | .mget sa sub t acc => decide (sa < 64) && decide (sub < 4) && decide (t < 8) && decide (acc < 8)
  | .mput sa sub t acc => decide (sa < 64) && decide (sub < 4) && decide (t < 8) && decide (acc < 8)
  | .mstore sa sub t acc => decide (sa < 64) && decide (sub < 4) && decide (t < 8) && decide (acc < 8)
  | .subarrayGrant .. => true
  | .matrixPassDone .. => true
  | .rfe => true
  | .tlbi sa sb kind => decide (sa < 64) && decide (sb < 64) && decide (kind < 256) && decide (kind ≤ 3)
  | .tlbiComplete .. => true
  | .ctxsv sa sb => decide (sa < 64) && decide (sb < 64)
  | .ctxld sa sb => decide (sa < 64) && decide (sb < 64)
  | .sysc sa sb cls => decide (sa < 64) && decide (sb < 64) && decide (cls < 256)
  | .syscMailArrival .. => true
  | .dump sa sb => decide (sa < 64) && decide (sb < 64) && sa % 2 == 0
  | .dumpTimeLimit .. => true
  | .mwaitWake .. => true
  | .mwaitTimeLimit .. => true
  | .loadDataReturn .. => true
  | .pageWalkDone .. => true
  | .dirLoadRequest .. => true
  | .dirUpgradeRequest .. => true
  | .dirStoreRequest .. => true
  | .sliceWrite .. => true
  | .ownerWriteback .. => true
  | .recallArrival .. => true
  | .l1InvalidateArrival .. => true
  | .l1UpdateArrival .. => true
  | .sharerAckArrival .. => true
  | .vatUnitIntake .. => true
  | .mergedRead .. => true
  | .pressDone .. => true
  | .remoteRequestArrival .. => true
  | .remoteFillArrival .. => true
  | .wheelInvalidateArrival .. => true
  | .fabricTimeoutExpiry .. => true
  | .fabricErrorCompletion .. => true
  | .invalAckTimeout .. => true
  | .hostAtomicUrCompletion .. => true
  | .hostWriteBar2 .. => true
  | .hostReadBar2 .. => true
  | .hostAtomicopBar2 .. => true
  | .hostWriteBar4 .. => true
  | .hostReadBar4 .. => true
  | .controlRegisterWrite .. => true
  | .msixtrigWrite .. => true
  | .cavewinWrite .. => true
  | .lkillKill .. => true
  | .lkillKillTree .. => true
  | .dbgstopWrite .. => true
  | .dumprelWrite .. => true
  | .rrctlModeOff .. => true
  | .rrctlModeRecord .. => true
  | .rrctlModeReplay .. => true
  | .rrstatClear .. => true
  | .replayGateTimeout .. => true
  | .sampleTimer .. => true
  | .fwctlVerify .. => true
  | .fwVerifyDone .. => true
  | .attctlStart .. => true
  | .attestationDone .. => true
  | .pwrctlActive .. => true
  | .pwrctlIdle .. => true
  | .pwrctlRetain .. => true
  | .powerCapWindow .. => true
  | .thermalThrottle .. => true
  | .thermalTrip .. => true
  | .moduleReset .. => true
  | .bootStageDone .. => true
  | .unitPlacement .. => true
  | .passOverTimeout .. => true
  | .stealRequestArrival .. => true
  | .stealReplyArrival .. => true
  | .countReportTimer .. => true
  | .countReportArrival .. => true
  | .groupDrainDone .. => true
  | .engineJobStart .. => true
  | .engineChunkArrival .. => true
  | .engineJobEnd .. => true
  | .engineJobResume .. => true
  | .collectiveStart .. => true
  | .groupStopped .. => true
  | .trapEventStart .. => true
  | .correctedEccError .. => true
  | .uncorrectableEccError .. => true
  | .coherentWindowAccess .. => true
  | .clusterCrossbarAccess .. => true
  | .variableLatencyResult .. => true
  | .failedModuleMarkClear .. => true

end Sys2Proof
end

