-- ==== Sys2Proof/Decode.lean ====
section
/-!
DEFINITION. Decoding and encoding of the 32-bit words (R229 to R233, R250 to R253), from the field tables of chapters 12 to 18
and spec/opcode_table.json. `decode` is total: it reads the fields that a word's major and minor code give, and accepts the
instruction only if it is well formed and its own encoding is the word again, so that a reserved value or a nonzero unused
bit is refused and never read as another form. The meaning of a refused word is IIN (R233). The encoder follows.
-/
namespace Sys2Proof

/-- The `len` bits of `w` that start at bit `lo`. -/
def bitsAt (w lo len : Nat) : Nat := w / 2 ^ lo % 2 ^ len

/-- One bit of `w`. -/
def bitAt (w lo : Nat) : Bool := w / 2 ^ lo % 2 == 1

/-- A 9-bit vector source field at bit `lo` (R231). -/
def vsrcAt (w lo : Nat) : VSrc := { sel := bitsAt w (lo + 7) 2, reg := bitsAt w lo 7 }

/-- The value of a 9-bit vector source field. -/
def vsrcBits (x : VSrc) : Nat := x.reg + x.sel * 128

/-- The forms of major 0x00 (Table 13-1). -/
def major00 (w : Nat) : Option Instr :=
  match bitsAt w 22 4 with
  | 0 => some (.nop)
  | 1 => some (.hintSch (bitsAt w 16 4) (bitsAt w 12 4) (bitsAt w 8 4) (bitsAt w 4 4) (bitsAt w 0 4))
  | 2 => some (.hintImm (bitsAt w 0 22))
  | 3 => some (.hintOrd (bitsAt w 3 3) (bitsAt w 0 3))
  | 4 => some (.hintMod (bitAt w 12) (bitsAt w 9 3) (bitAt w 8) (bitsAt w 6 2) (bitAt w 5) (bitsAt w 2 3) (bitsAt w 0 2))
  | 5 => some (.hintExt (bitsAt w 10 2) (bitsAt w 7 3) (bitsAt w 0 7))
  | _ => none

/-- The forms of major 0x01 (Table 13-1). -/
def major01 (w : Nat) : Option Instr :=
  match bitsAt w 22 4 with
  | 0 => some (.br (bitsAt w 0 22))
  | 1 => some (.bxz (bitsAt w 0 22))
  | 2 => some (.bxnz (bitsAt w 0 22))
  | 3 => some (.bxall (bitsAt w 0 22))
  | _ => none

/-- The forms of major 0x02 (Table 13-1). -/
def major02 (w : Nat) : Option Instr := some (.bs (bitsAt w 20 6) (bitsAt w 16 4) (bitsAt w 0 16))

/-- The forms of major 0x03 (Table 13-1). -/
def major03 (w : Nat) : Option Instr :=
  match bitsAt w 22 4 with
  | 0 => some (.call (bitsAt w 0 22))
  | _ => none

/-- The forms of major 0x04 (Table 13-1). -/
def major04 (w : Nat) : Option Instr := some (.bdiv (bitsAt w 23 3) (bitAt w 22) (bitsAt w 0 22))

/-- The forms of major 0x05 (Table 13-1). -/
def major05 (w : Nat) : Option Instr :=
  match bitsAt w 20 6 with
  | 0 => some (.ret)
  | 1 => some (.calli (bitsAt w 14 6))
  | 2 => some (.jmpi (bitsAt w 14 6))
  | 3 => some (.bjt (bitsAt w 14 6) (bitsAt w 8 6) (bitsAt w 0 7))
  | 4 => some (.join)
  | 5 => some (.yield)
  | 6 => some (.exit)
  | 7 => some (.mwait (bitsAt w 14 6) (bitsAt w 8 6) (bitAt w 4) (bitAt w 3) (bitsAt w 0 3))
  | 8 => some (.spawn (bitsAt w 14 6) (bitsAt w 8 6) (bitAt w 0))
  | 9 => some (.waitc (bitsAt w 14 6) (bitsAt w 8 6))
  | 10 => some (.trap (bitsAt w 0 8))
  | 11 => some (.brk (bitsAt w 0 8))
  | _ => none

/-- The forms of major 0x06 (Table 13-1). -/
def major06 (w : Nat) : Option Instr :=
  match bitsAt w 0 5 with
  | 0 => some (.xmGet (bitsAt w 20 6))
  | 1 => some (.xmSet (bitsAt w 20 6) (bitsAt w 14 6))
  | 2 => some (.xmAnd (bitsAt w 20 6) (bitsAt w 14 6))
  | 3 => some (.xmAndn (bitsAt w 20 6) (bitsAt w 14 6))
  | 4 => some (.xmFromp (bitsAt w 20 6) (bitsAt w 14 3))
  | 5 => some (.xmPop (bitsAt w 20 6))
  | _ => none

/-- The forms of major 0x07 (Table 13-1). -/
def major07 (w : Nat) : Option Instr :=
  match bitsAt w 0 5 with
  | 0 => some (.sadd (bitsAt w 20 6) (bitsAt w 14 6) (bitsAt w 8 6) (bitAt w 7))
  | 1 => some (.ssub (bitsAt w 20 6) (bitsAt w 14 6) (bitsAt w 8 6) (bitAt w 7))
  | 2 => some (.smul (bitsAt w 20 6) (bitsAt w 14 6) (bitsAt w 8 6) (bitAt w 7))
  | 3 => some (.smulh (bitsAt w 20 6) (bitsAt w 14 6) (bitsAt w 8 6) (bitAt w 7))
  | 4 => some (.smulhu (bitsAt w 20 6) (bitsAt w 14 6) (bitsAt w 8 6) (bitAt w 7))
  | 5 => some (.sdiv (bitsAt w 20 6) (bitsAt w 14 6) (bitsAt w 8 6) (bitAt w 7))
  | 6 => some (.sdivu (bitsAt w 20 6) (bitsAt w 14 6) (bitsAt w 8 6) (bitAt w 7))
  | 7 => some (.srem (bitsAt w 20 6) (bitsAt w 14 6) (bitsAt w 8 6) (bitAt w 7))
  | 8 => some (.sand (bitsAt w 20 6) (bitsAt w 14 6) (bitsAt w 8 6) (bitAt w 7))
  | 9 => some (.sor (bitsAt w 20 6) (bitsAt w 14 6) (bitsAt w 8 6) (bitAt w 7))
  | 10 => some (.sxor (bitsAt w 20 6) (bitsAt w 14 6) (bitsAt w 8 6) (bitAt w 7))
  | 11 => some (.sandn (bitsAt w 20 6) (bitsAt w 14 6) (bitsAt w 8 6) (bitAt w 7))
  | 12 => some (.sshl (bitsAt w 20 6) (bitsAt w 14 6) (bitsAt w 8 6) (bitAt w 7))
  | 13 => some (.sshr (bitsAt w 20 6) (bitsAt w 14 6) (bitsAt w 8 6) (bitAt w 7))
  | 14 => some (.ssra (bitsAt w 20 6) (bitsAt w 14 6) (bitsAt w 8 6) (bitAt w 7))
  | 15 => some (.srot (bitsAt w 20 6) (bitsAt w 14 6) (bitsAt w 8 6) (bitAt w 7))
  | 16 => some (.smin (bitsAt w 20 6) (bitsAt w 14 6) (bitsAt w 8 6) (bitAt w 7))
  | 17 => some (.sminu (bitsAt w 20 6) (bitsAt w 14 6) (bitsAt w 8 6) (bitAt w 7))
  | 18 => some (.smax (bitsAt w 20 6) (bitsAt w 14 6) (bitsAt w 8 6) (bitAt w 7))
  | 19 => some (.smaxu (bitsAt w 20 6) (bitsAt w 14 6) (bitsAt w 8 6) (bitAt w 7))
  | 20 => some (.spopc (bitsAt w 20 6) (bitsAt w 14 6) (bitAt w 7))
  | 21 => some (.sclz (bitsAt w 20 6) (bitsAt w 14 6) (bitAt w 7))
  | 22 => some (.sctz (bitsAt w 20 6) (bitsAt w 14 6) (bitAt w 7))
  | 23 => some (.sbrev (bitsAt w 20 6) (bitsAt w 14 6) (bitAt w 7))
  | 24 => some (.sbfx (bitsAt w 20 6) (bitsAt w 14 6) (bitsAt w 8 6) (bitAt w 7))
  | 25 => some (.sbfi (bitsAt w 20 6) (bitsAt w 14 6) (bitsAt w 8 6) (bitAt w 7))
  | 26 => some (.sseq (bitsAt w 20 6) (bitsAt w 14 6) (bitsAt w 8 6) (bitAt w 7))
  | 27 => some (.sslt (bitsAt w 20 6) (bitsAt w 14 6) (bitsAt w 8 6) (bitAt w 7))
  | 28 => some (.ssltu (bitsAt w 20 6) (bitsAt w 14 6) (bitsAt w 8 6) (bitAt w 7))
  | _ => none

/-- The forms of major 0x08 (Table 13-1). -/
def major08 (w : Nat) : Option Instr := some (.saddi (bitsAt w 20 6) (bitsAt w 14 6) (bitsAt w 0 14))

/-- The forms of major 0x09 (Table 13-1). -/
def major09 (w : Nat) : Option Instr := some (.sli (bitsAt w 20 6) (bitsAt w 0 20))

/-- The forms of major 0x0A (Table 13-1). -/
def major0A (w : Nat) : Option Instr := some (.sandi (bitsAt w 20 6) (bitsAt w 14 6) (bitsAt w 0 14))

/-- The forms of major 0x0B (Table 13-1). -/
def major0B (w : Nat) : Option Instr := some (.sori (bitsAt w 20 6) (bitsAt w 14 6) (bitsAt w 0 14))

/-- The forms of major 0x0C (Table 13-1). -/
def major0C (w : Nat) : Option Instr := some (.sshi (bitsAt w 20 6) (bitsAt w 14 6) (bitAt w 8) (bitsAt w 6 2) (bitsAt w 0 6))

/-- The forms of major 0x0D (Table 13-1). -/
def major0D (w : Nat) : Option Instr :=
  match bitsAt w 0 5 with
  | 0 => some (.smfs (bitsAt w 20 6) (bitsAt w 8 6))
  | 1 => some (.smts (bitsAt w 14 6) (bitsAt w 8 6))
  | 2 => some (.vmfs (bitsAt w 20 6) (bitsAt w 8 6) (bitAt w 5))
  | _ => none

/-- The forms of major 0x0E (Table 13-1). -/
def major0E (w : Nat) : Option Instr := some (.satom (bitsAt w 20 6) (bitsAt w 14 6) (bitsAt w 8 6) (bitsAt w 6 2) (bitsAt w 0 4))

/-- The forms of major 0x0F (Table 13-1). -/
def major0F (w : Nat) : Option Instr := some (.scas (bitsAt w 20 6) (bitsAt w 14 6) (bitsAt w 8 6) (bitsAt w 6 2) (bitsAt w 0 2))

/-- The forms of major 0x10 (Table 13-1). -/
def major10 (w : Nat) : Option Instr :=
  match bitsAt w 0 1 with
  | 0 => some (.vadd (bitsAt w 19 7) (vsrcAt w 10) (vsrcAt w 1))
  | 1 => some (.vsub (bitsAt w 19 7) (vsrcAt w 10) (vsrcAt w 1))
  | _ => none

/-- The forms of major 0x11 (Table 13-1). -/
def major11 (w : Nat) : Option Instr :=
  match bitsAt w 0 1 with
  | 0 => some (.vmul (bitsAt w 19 7) (vsrcAt w 10) (vsrcAt w 1))
  | 1 => some (.vmulh (bitsAt w 19 7) (vsrcAt w 10) (vsrcAt w 1))
  | _ => none

/-- The forms of major 0x12 (Table 13-1). -/
def major12 (w : Nat) : Option Instr :=
  match bitsAt w 0 1 with
  | 0 => some (.vmulhu (bitsAt w 19 7) (vsrcAt w 10) (vsrcAt w 1))
  | 1 => some (.vmad (bitsAt w 19 7) (vsrcAt w 10) (vsrcAt w 1))
  | _ => none

/-- The forms of major 0x13 (Table 13-1). -/
def major13 (w : Nat) : Option Instr :=
  match bitsAt w 0 1 with
  | 0 => some (.vand (bitsAt w 19 7) (vsrcAt w 10) (vsrcAt w 1))
  | 1 => some (.vor (bitsAt w 19 7) (vsrcAt w 10) (vsrcAt w 1))
  | _ => none

/-- The forms of major 0x14 (Table 13-1). -/
def major14 (w : Nat) : Option Instr :=
  match bitsAt w 0 1 with
  | 0 => some (.vxor (bitsAt w 19 7) (vsrcAt w 10) (vsrcAt w 1))
  | 1 => some (.vandn (bitsAt w 19 7) (vsrcAt w 10) (vsrcAt w 1))
  | _ => none

/-- The forms of major 0x15 (Table 13-1). -/
def major15 (w : Nat) : Option Instr :=
  match bitsAt w 0 1 with
  | 0 => some (.vshl (bitsAt w 19 7) (vsrcAt w 10) (vsrcAt w 1))
  | 1 => some (.vshr (bitsAt w 19 7) (vsrcAt w 10) (vsrcAt w 1))
  | _ => none

/-- The forms of major 0x16 (Table 13-1). -/
def major16 (w : Nat) : Option Instr :=
  match bitsAt w 0 1 with
  | 0 => some (.vsra (bitsAt w 19 7) (vsrcAt w 10) (vsrcAt w 1))
  | 1 => some (.vrot (bitsAt w 19 7) (vsrcAt w 10) (vsrcAt w 1))
  | _ => none

/-- The forms of major 0x17 (Table 13-1). -/
def major17 (w : Nat) : Option Instr :=
  match bitsAt w 0 1 with
  | 0 => some (.vmin (bitsAt w 19 7) (vsrcAt w 10) (vsrcAt w 1))
  | 1 => some (.vmax (bitsAt w 19 7) (vsrcAt w 10) (vsrcAt w 1))
  | _ => none

/-- The forms of major 0x18 (Table 13-1). -/
def major18 (w : Nat) : Option Instr :=
  match bitsAt w 0 1 with
  | 0 => some (.vminu (bitsAt w 19 7) (vsrcAt w 10) (vsrcAt w 1))
  | 1 => some (.vmaxu (bitsAt w 19 7) (vsrcAt w 10) (vsrcAt w 1))
  | _ => none

/-- The forms of major 0x19 (Table 13-1). -/
def major19 (w : Nat) : Option Instr :=
  match bitsAt w 0 1 with
  | 0 => some (.vabsd (bitsAt w 19 7) (vsrcAt w 10) (vsrcAt w 1))
  | 1 => some (.vaddc (bitsAt w 19 7) (vsrcAt w 10) (vsrcAt w 1))
  | _ => none

/-- The forms of major 0x1A (Table 13-1). -/
def major1A (w : Nat) : Option Instr :=
  match bitsAt w 0 1 with
  | 0 => some (.vdot4 (bitsAt w 19 7) (vsrcAt w 10) (vsrcAt w 1))
  | 1 => some (.vdot4u (bitsAt w 19 7) (vsrcAt w 10) (vsrcAt w 1))
  | _ => none

/-- The forms of major 0x1B (Table 13-1). -/
def major1B (w : Nat) : Option Instr := some (.vcmp (bitsAt w 23 3) (bitsAt w 19 4) (vsrcAt w 10) (vsrcAt w 1) (bitAt w 0))

/-- The forms of major 0x1C (Table 13-1). -/
def major1C (w : Nat) : Option Instr := some (.vfcmp (bitsAt w 23 3) (bitsAt w 19 4) (vsrcAt w 10) (vsrcAt w 1))

/-- The forms of major 0x1D (Table 13-1). -/
def major1D (w : Nat) : Option Instr :=
  match bitsAt w 0 5 with
  | 0 => some (.vmov (bitsAt w 19 7) (vsrcAt w 10))
  | 1 => some (.vnot (bitsAt w 19 7) (vsrcAt w 10))
  | 2 => some (.vneg (bitsAt w 19 7) (vsrcAt w 10))
  | 3 => some (.vabs (bitsAt w 19 7) (vsrcAt w 10))
  | 4 => some (.vpopc (bitsAt w 19 7) (vsrcAt w 10))
  | 5 => some (.vclz (bitsAt w 19 7) (vsrcAt w 10))
  | 6 => some (.vctz (bitsAt w 19 7) (vsrcAt w 10))
  | 7 => some (.vbrev (bitsAt w 19 7) (vsrcAt w 10))
  | 8 => some (.vext (bitsAt w 19 7) (vsrcAt w 10) (bitAt w 6) (bitAt w 5))
  | 9 => some (.vlid (bitsAt w 19 7))
  | _ => none

/-- The forms of major 0x1E (Table 13-1). -/
def major1E (w : Nat) : Option Instr := some (.vaddi (bitsAt w 19 7) (vsrcAt w 10) (bitsAt w 0 10))

/-- The forms of major 0x1F (Table 13-1). -/
def major1F (w : Nat) : Option Instr := some (.vandi (bitsAt w 19 7) (vsrcAt w 10) (bitsAt w 0 10))

/-- The forms of major 0x20 (Table 13-1). -/
def major20 (w : Nat) : Option Instr := some (.vori (bitsAt w 19 7) (vsrcAt w 10) (bitsAt w 0 10))

/-- The forms of major 0x21 (Table 13-1). -/
def major21 (w : Nat) : Option Instr := some (.vshi (bitsAt w 19 7) (vsrcAt w 10) (bitsAt w 5 2) (bitsAt w 0 5))

/-- The forms of major 0x22 (Table 13-1). -/
def major22 (w : Nat) : Option Instr := some (.vmovi (bitsAt w 19 7) (bitsAt w 0 10))

/-- The forms of major 0x23 (Table 13-1). -/
def major23 (w : Nat) : Option Instr :=
  match bitsAt w 0 1 with
  | 0 => some (.vperm (bitsAt w 19 7) (vsrcAt w 10) (vsrcAt w 1))
  | 1 => some (.vpermx (bitsAt w 19 7) (vsrcAt w 10) (vsrcAt w 1))
  | _ => none

/-- The forms of major 0x24 (Table 13-1). -/
def major24 (w : Nat) : Option Instr :=
  match bitsAt w 0 5 with
  | 0 => some (.vballot (bitsAt w 20 6) (vsrcAt w 11))
  | 1 => some (.vredadd (bitsAt w 20 6) (vsrcAt w 11) (bitAt w 5))
  | 2 => some (.vredmin (bitsAt w 20 6) (vsrcAt w 11) (bitAt w 5))
  | 3 => some (.vredmax (bitsAt w 20 6) (vsrcAt w 11) (bitAt w 5))
  | 4 => some (.vfredadd (bitsAt w 20 6) (vsrcAt w 11))
  | 5 => some (.vfredmax (bitsAt w 20 6) (vsrcAt w 11))
  | 6 => some (.vfirst (bitsAt w 20 6) (vsrcAt w 11))
  | 7 => some (.vread (bitsAt w 20 6) (vsrcAt w 11) (bitsAt w 5 5))
  | 8 => some (.vwrite (bitsAt w 20 6) (bitsAt w 11 7) (bitsAt w 5 5))
  | 9 => some (.vbcast (bitsAt w 20 6) (bitsAt w 11 7))
  | _ => none

/-- The forms of major 0x25 (Table 13-1). -/
def major25 (w : Nat) : Option Instr :=
  match bitsAt w 0 5 with
  | 0 => some (.vscan (bitsAt w 19 7) (vsrcAt w 10) (bitsAt w 5 3))
  | 1 => some (.vscanx (bitsAt w 19 7) (vsrcAt w 10) (bitsAt w 5 3))
  | _ => none

/-- The forms of major 0x26 (Table 13-1). -/
def major26 (w : Nat) : Option Instr :=
  match bitsAt w 0 5 with
  | 0 => some (.vcompact (bitsAt w 19 7) (vsrcAt w 10))
  | 1 => some (.vexpand (bitsAt w 19 7) (vsrcAt w 10))
  | _ => none

/-- The forms of major 0x27 (Table 13-1). -/
def major27 (w : Nat) : Option Instr :=
  match bitsAt w 0 1 with
  | 0 => some (.vprune (bitsAt w 19 7) (vsrcAt w 10) (vsrcAt w 1))
  | 1 => some (.vbmap (bitsAt w 19 7) (vsrcAt w 10) (vsrcAt w 1))
  | _ => none

/-- The forms of major 0x28 (Table 13-1). -/
def major28 (w : Nat) : Option Instr :=
  match bitsAt w 0 1 with
  | 0 => some (.vfadd (bitsAt w 19 7) (vsrcAt w 10) (vsrcAt w 1))
  | 1 => some (.vfsub (bitsAt w 19 7) (vsrcAt w 10) (vsrcAt w 1))
  | _ => none

/-- The forms of major 0x29 (Table 13-1). -/
def major29 (w : Nat) : Option Instr :=
  match bitsAt w 0 1 with
  | 0 => some (.vfmul (bitsAt w 19 7) (vsrcAt w 10) (vsrcAt w 1))
  | 1 => some (.vfma (bitsAt w 19 7) (vsrcAt w 10) (vsrcAt w 1))
  | _ => none

/-- The forms of major 0x2A (Table 13-1). -/
def major2A (w : Nat) : Option Instr :=
  match bitsAt w 0 1 with
  | 0 => some (.vfmin (bitsAt w 19 7) (vsrcAt w 10) (vsrcAt w 1))
  | 1 => some (.vfmax (bitsAt w 19 7) (vsrcAt w 10) (vsrcAt w 1))
  | _ => none

/-- The forms of major 0x2B (Table 13-1). -/
def major2B (w : Nat) : Option Instr :=
  match bitsAt w 0 1 with
  | 0 => some (.vfdiv (bitsAt w 19 7) (vsrcAt w 10) (vsrcAt w 1))
  | 1 => some (.vfms (bitsAt w 19 7) (vsrcAt w 10) (vsrcAt w 1))
  | _ => none

/-- The forms of major 0x2C (Table 13-1). -/
def major2C (w : Nat) : Option Instr :=
  match bitsAt w 0 1 with
  | 0 => some (.vbdot2 (bitsAt w 19 7) (vsrcAt w 10) (vsrcAt w 1))
  | 1 => some (.vhdot2 (bitsAt w 19 7) (vsrcAt w 10) (vsrcAt w 1))
  | _ => none

/-- The forms of major 0x2D (Table 13-1). -/
def major2D (w : Nat) : Option Instr :=
  match bitsAt w 0 5 with
  | 0 => some (.vfabs (bitsAt w 19 7) (vsrcAt w 10))
  | 1 => some (.vfneg (bitsAt w 19 7) (vsrcAt w 10))
  | 2 => some (.vfrcp (bitsAt w 19 7) (vsrcAt w 10))
  | 3 => some (.vfrsq (bitsAt w 19 7) (vsrcAt w 10))
  | 4 => some (.vfsqrt (bitsAt w 19 7) (vsrcAt w 10))
  | 5 => some (.vfexp2 (bitsAt w 19 7) (vsrcAt w 10))
  | 6 => some (.vflog2 (bitsAt w 19 7) (vsrcAt w 10))
  | 7 => some (.vfsin (bitsAt w 19 7) (vsrcAt w 10))
  | 8 => some (.vfcos (bitsAt w 19 7) (vsrcAt w 10))
  | 9 => some (.vfclass (bitsAt w 19 7) (vsrcAt w 10))
  | 10 => some (.vfrint (bitsAt w 19 7) (vsrcAt w 10))
  | _ => none

/-- The forms of major 0x2E (Table 13-1). -/
def major2E (w : Nat) : Option Instr :=
  match bitsAt w 0 5 with
  | 0 => some (.vcvt (bitsAt w 19 7) (vsrcAt w 10) (bitAt w 9) (bitsAt w 5 4))
  | _ => none

/-- The forms of major 0x2F (Table 13-1). -/
def major2F (w : Nat) : Option Instr :=
  match bitsAt w 0 1 with
  | 0 => some (.vpack (bitsAt w 19 7) (vsrcAt w 10) (vsrcAt w 1))
  | 1 => some (.vunpk (bitsAt w 19 7) (vsrcAt w 10) (vsrcAt w 1))
  | _ => none

/-- The forms of major 0x30 (Table 13-1). -/
def major30 (w : Nat) : Option Instr :=
  match bitsAt w 0 1 with
  | 0 => some (.vqblk (bitsAt w 19 7) (vsrcAt w 10))
  | 1 => some (.vdqblk (bitsAt w 19 7) (vsrcAt w 10))
  | _ => none

/-- The forms of major 0x31 (Table 13-1). -/
def major31 (w : Nat) : Option Instr := some (.vld (bitsAt w 19 7) (bitsAt w 12 7) (bitsAt w 6 6) (bitsAt w 3 3) (bitsAt w 0 3))

/-- The forms of major 0x32 (Table 13-1). -/
def major32 (w : Nat) : Option Instr := some (.vst (bitsAt w 19 7) (bitsAt w 12 7) (bitsAt w 6 6) (bitsAt w 3 3) (bitsAt w 0 3))

/-- The forms of major 0x33 (Table 13-1). -/
def major33 (w : Nat) : Option Instr := some (.vlds (bitsAt w 19 7) (bitsAt w 12 7) (bitsAt w 6 6) (bitsAt w 3 3) (bitsAt w 0 3))

/-- The forms of major 0x34 (Table 13-1). -/
def major34 (w : Nat) : Option Instr := some (.vsts (bitsAt w 19 7) (bitsAt w 12 7) (bitsAt w 6 6) (bitsAt w 3 3) (bitsAt w 0 3))

/-- The forms of major 0x35 (Table 13-1). -/
def major35 (w : Nat) : Option Instr := some (.vldc (bitsAt w 19 7) (bitsAt w 12 7) (bitsAt w 6 6) (bitsAt w 3 3) (bitsAt w 0 3))

/-- The forms of major 0x36 (Table 13-1). -/
def major36 (w : Nat) : Option Instr := some (.vstc (bitsAt w 19 7) (bitsAt w 12 7) (bitsAt w 6 6) (bitsAt w 3 3) (bitsAt w 0 3))

/-- The forms of major 0x37 (Table 13-1). -/
def major37 (w : Nat) : Option Instr := some (.vldk (bitsAt w 19 7) (bitsAt w 12 7) (bitsAt w 6 6) (bitsAt w 3 3) (bitsAt w 0 3))

/-- The forms of major 0x38 (Table 13-1). -/
def major38 (w : Nat) : Option Instr := some (.vstk (bitsAt w 19 7) (bitsAt w 12 7) (bitsAt w 6 6) (bitsAt w 3 3) (bitsAt w 0 3))

/-- The forms of major 0x39 (Table 13-1). -/
def major39 (w : Nat) : Option Instr := some (.vldsub (bitsAt w 19 7) (bitsAt w 12 7) (bitsAt w 6 6) (bitsAt w 3 3) (bitsAt w 0 3))

/-- The forms of major 0x3A (Table 13-1). -/
def major3A (w : Nat) : Option Instr :=
  match bitsAt w 8 1 with
  | 0 => some (.sld (bitsAt w 20 6) (bitsAt w 14 6) (bitsAt w 11 3) (bitsAt w 9 2) (bitsAt w 0 8))
  | 1 => some (.sst (bitsAt w 20 6) (bitsAt w 14 6) (bitsAt w 11 3) (bitsAt w 9 2) (bitsAt w 0 8))
  | _ => none

/-- The forms of major 0x3B (Table 13-1). -/
def major3B (w : Nat) : Option Instr :=
  match bitsAt w 8 1 with
  | 0 => some (.slds (bitsAt w 20 6) (bitsAt w 14 6) (bitsAt w 11 3) (bitsAt w 9 2) (bitsAt w 0 8))
  | 1 => some (.ssts (bitsAt w 20 6) (bitsAt w 14 6) (bitsAt w 11 3) (bitsAt w 9 2) (bitsAt w 0 8))
  | _ => none

/-- The forms of major 0x3C (Table 13-1). -/
def major3C (w : Nat) : Option Instr := some (.vatom (bitsAt w 19 7) (bitsAt w 12 7) (bitsAt w 6 6) (bitsAt w 4 2) (bitsAt w 0 4))

/-- The forms of major 0x3D (Table 13-1). -/
def major3D (w : Nat) : Option Instr :=
  match bitsAt w 0 4 with
  | 0 => some (.vcasW (bitsAt w 19 7) (bitsAt w 12 7) (bitsAt w 6 6) (bitsAt w 4 2))
  | 1 => some (.vcasD (bitsAt w 19 7) (bitsAt w 12 7) (bitsAt w 6 6) (bitsAt w 4 2))
  | 2 => some (.vcas2 (bitsAt w 19 7) (bitsAt w 12 7) (bitsAt w 6 6) (bitsAt w 4 2))
  | _ => some (.vred (bitsAt w 19 7) (bitsAt w 12 7) (bitsAt w 6 6) (bitsAt w 4 2) (bitsAt w 0 4))

/-- The forms of major 0x3E (Table 13-1). -/
def major3E (w : Nat) : Option Instr :=
  match bitsAt w 20 6 with
  | 0 => some (.prf (bitsAt w 14 6) (bitsAt w 0 2))
  | 1 => some (.fls (bitsAt w 14 6) (bitsAt w 8 6) (bitsAt w 3 3))
  | 2 => some (.inv (bitsAt w 14 6) (bitsAt w 8 6) (bitsAt w 3 3))
  | 3 => some (.fence (bitsAt w 3 3) (bitsAt w 0 3))
  | 4 => some (.wfetch (bitsAt w 14 6) (bitsAt w 8 6) (bitsAt w 0 2))
  | 5 => some (.wevict (bitsAt w 14 6))
  | 6 => some (.wpress (bitsAt w 14 6))
  | _ => none

/-- The forms of major 0x3F (Table 13-1). -/
def major3F (w : Nat) : Option Instr :=
  match bitsAt w 20 6 with
  | 0 => some (.barInit (bitsAt w 14 6) (bitsAt w 8 6))
  | 1 => some (.barArr (bitsAt w 14 6) (bitAt w 3) (bitsAt w 0 3))
  | 2 => some (.barWait (bitsAt w 14 6) (bitsAt w 8 6))
  | 3 => some (.barExp (bitsAt w 14 6) (bitsAt w 8 6) (bitsAt w 0 3))
  | 4 => some (.barTry (bitsAt w 14 6) (bitsAt w 8 6) (bitsAt w 0 3))
  | 5 => some (.barInval (bitsAt w 14 6))
  | 6 => if bitAt w 4 then some (.tbegTs (bitsAt w 14 6) (bitsAt w 0 4)) else some (.tbegVal (bitsAt w 14 6) (bitsAt w 0 4))
  | 7 => some (.tend)
  | 8 => some (.tabt (bitsAt w 0 8))
  | 9 => some (.tstat (bitsAt w 14 6) (bitsAt w 0 2))
  | 10 => some (.tord (bitsAt w 14 6) (bitsAt w 8 6) (bitsAt w 0 4))
  | 11 => some (.ecmd (bitsAt w 14 6) (bitsAt w 8 6) (bitAt w 4) (bitsAt w 0 4))
  | 12 => some (.ewait (bitsAt w 14 6) (bitsAt w 8 6))
  | 13 => some (.eyield (bitsAt w 14 6) (bitsAt w 8 6))
  | 14 => some (.eguard (bitsAt w 0 4))
  | 15 => some (.gres (bitsAt w 14 6) (bitsAt w 0 4))
  | 16 => some (.ecopy (bitsAt w 14 6) (bitsAt w 8 6) (bitAt w 4) (bitsAt w 0 4))
  | 17 => some (.rrot (bitsAt w 14 6) (bitsAt w 8 6) (bitAt w 4) (bitsAt w 0 4))
  | 18 => some (.ecoll (bitsAt w 14 6) (bitsAt w 8 6) (bitAt w 4) (bitsAt w 0 4))
  | 19 => some (.rebal (bitsAt w 14 6) (bitsAt w 8 6) (bitAt w 7) (bitsAt w 0 7))
  | 20 => some (.resort (bitsAt w 14 6) (bitsAt w 0 7))
  | 21 => if bitAt w 4 then (if bitAt w 3 then some (.tdescARead (bitsAt w 14 6) (bitsAt w 0 3)) else some (.tdescAWrite (bitsAt w 14 6) (bitsAt w 0 3)))
      else (if bitAt w 3 then some (.tdescTRead (bitsAt w 14 6) (bitsAt w 8 6) (bitsAt w 0 3)) else some (.tdescTWrite (bitsAt w 14 6) (bitsAt w 8 6) (bitsAt w 0 3)))
  | 22 => some (.mwld (bitsAt w 14 6) (bitsAt w 6 2) (bitsAt w 0 3))
  | 23 => some (.mloop (bitsAt w 14 6) (bitsAt w 8 6) (bitsAt w 6 2) (bitsAt w 3 3) (bitsAt w 0 3))
  | 24 => some (.mzero (bitsAt w 14 6) (bitsAt w 6 2) (bitsAt w 0 3))
  | 25 => some (.mget (bitsAt w 14 6) (bitsAt w 6 2) (bitsAt w 3 3) (bitsAt w 0 3))
  | 26 => some (.mput (bitsAt w 14 6) (bitsAt w 6 2) (bitsAt w 3 3) (bitsAt w 0 3))
  | 27 => some (.mstore (bitsAt w 14 6) (bitsAt w 6 2) (bitsAt w 3 3) (bitsAt w 0 3))
  | 28 => some (.rfe)
  | 29 => some (.tlbi (bitsAt w 14 6) (bitsAt w 8 6) (bitsAt w 0 8))
  | 30 => some (.ctxsv (bitsAt w 14 6) (bitsAt w 8 6))
  | 31 => some (.ctxld (bitsAt w 14 6) (bitsAt w 8 6))
  | 32 => some (.sysc (bitsAt w 14 6) (bitsAt w 8 6) (bitsAt w 0 8))
  | 33 => some (.dump (bitsAt w 14 6) (bitsAt w 8 6))
  | _ => none

/-- Reads the fields of a word by its major opcode, bits [31:26] (R229, R250). -/
def decodeFields (w : Nat) : Option Instr :=
  match bitsAt w 26 6 with
  | 0 => major00 w
  | 1 => major01 w
  | 2 => major02 w
  | 3 => major03 w
  | 4 => major04 w
  | 5 => major05 w
  | 6 => major06 w
  | 7 => major07 w
  | 8 => major08 w
  | 9 => major09 w
  | 10 => major0A w
  | 11 => major0B w
  | 12 => major0C w
  | 13 => major0D w
  | 14 => major0E w
  | 15 => major0F w
  | 16 => major10 w
  | 17 => major11 w
  | 18 => major12 w
  | 19 => major13 w
  | 20 => major14 w
  | 21 => major15 w
  | 22 => major16 w
  | 23 => major17 w
  | 24 => major18 w
  | 25 => major19 w
  | 26 => major1A w
  | 27 => major1B w
  | 28 => major1C w
  | 29 => major1D w
  | 30 => major1E w
  | 31 => major1F w
  | 32 => major20 w
  | 33 => major21 w
  | 34 => major22 w
  | 35 => major23 w
  | 36 => major24 w
  | 37 => major25 w
  | 38 => major26 w
  | 39 => major27 w
  | 40 => major28 w
  | 41 => major29 w
  | 42 => major2A w
  | 43 => major2B w
  | 44 => major2C w
  | 45 => major2D w
  | 46 => major2E w
  | 47 => major2F w
  | 48 => major30 w
  | 49 => major31 w
  | 50 => major32 w
  | 51 => major33 w
  | 52 => major34 w
  | 53 => major35 w
  | 54 => major36 w
  | 55 => major37 w
  | 56 => major38 w
  | 57 => major39 w
  | 58 => major3A w
  | 59 => major3B w
  | 60 => major3C w
  | 61 => major3D w
  | 62 => major3E w
  | 63 => major3F w
  | _ => none

/-- The fields of an instruction at their places, as a number; an event has no word and encodes as 0. -/
def encodeNat : Instr → Nat
  | .nop => 0x0
  | .hintSch ymask c4 c3 c2 c1 => 0x400000 + ymask * 65536 + c4 * 4096 + c3 * 256 + c2 * 16 + c1
  | .hintImm payload => 0x800000 + payload
  | .hintOrd scope order => 0xC00000 + scope * 8 + order
  | .hintMod upd sub zero pk sat rnd cache => 0x1000000 + upd.toNat * 4096 + sub * 512 + zero.toNat * 256 + pk * 64 + sat.toNat * 32 + rnd * 4 + cache
  | .hintExt sel cls reg => 0x1400000 + sel * 1024 + cls * 128 + reg
  | .br off => 0x4000000 + off
  | .bxz off => 0x4400000 + off
  | .bxnz off => 0x4800000 + off
  | .bxall off => 0x4C00000 + off
  | .bs sa cond off => 0x8000000 + sa * 1048576 + cond * 65536 + off
  | .call off => 0xC000000 + off
  | .bdiv p neg off => 0x10000000 + p * 8388608 + neg.toNat * 4194304 + off
  | .ret => 0x14000000
  | .calli sa => 0x14100000 + sa * 16384
  | .jmpi sa => 0x14200000 + sa * 16384
  | .bjt sa sb vi => 0x14300000 + sa * 16384 + sb * 256 + vi
  | .join => 0x14400000
  | .yield => 0x14500000
  | .exit => 0x14600000
  | .mwait sa sb dbl uns cond => 0x14700000 + sa * 16384 + sb * 256 + dbl.toNat * 16 + uns.toNat * 8 + cond
  | .spawn sa sb sup => 0x14800000 + sa * 16384 + sb * 256 + sup.toNat
  | .waitc sa sb => 0x14900000 + sa * 16384 + sb * 256
  | .trap n => 0x14A00000 + n
  | .brk n => 0x14B00000 + n
  | .xmGet sd => 0x18000000 + sd * 1048576
  | .xmSet sd sa => 0x18000001 + sd * 1048576 + sa * 16384
  | .xmAnd sd sa => 0x18000002 + sd * 1048576 + sa * 16384
  | .xmAndn sd sa => 0x18000003 + sd * 1048576 + sa * 16384
  | .xmFromp sd p => 0x18000004 + sd * 1048576 + p * 16384
  | .xmPop sd => 0x18000005 + sd * 1048576
  | .sadd sd sa sb w32 => 0x1C000000 + sd * 1048576 + sa * 16384 + sb * 256 + w32.toNat * 128
  | .ssub sd sa sb w32 => 0x1C000001 + sd * 1048576 + sa * 16384 + sb * 256 + w32.toNat * 128
  | .smul sd sa sb w32 => 0x1C000002 + sd * 1048576 + sa * 16384 + sb * 256 + w32.toNat * 128
  | .smulh sd sa sb w32 => 0x1C000003 + sd * 1048576 + sa * 16384 + sb * 256 + w32.toNat * 128
  | .smulhu sd sa sb w32 => 0x1C000004 + sd * 1048576 + sa * 16384 + sb * 256 + w32.toNat * 128
  | .sdiv sd sa sb w32 => 0x1C000005 + sd * 1048576 + sa * 16384 + sb * 256 + w32.toNat * 128
  | .sdivu sd sa sb w32 => 0x1C000006 + sd * 1048576 + sa * 16384 + sb * 256 + w32.toNat * 128
  | .srem sd sa sb w32 => 0x1C000007 + sd * 1048576 + sa * 16384 + sb * 256 + w32.toNat * 128
  | .sand sd sa sb w32 => 0x1C000008 + sd * 1048576 + sa * 16384 + sb * 256 + w32.toNat * 128
  | .sor sd sa sb w32 => 0x1C000009 + sd * 1048576 + sa * 16384 + sb * 256 + w32.toNat * 128
  | .sxor sd sa sb w32 => 0x1C00000A + sd * 1048576 + sa * 16384 + sb * 256 + w32.toNat * 128
  | .sandn sd sa sb w32 => 0x1C00000B + sd * 1048576 + sa * 16384 + sb * 256 + w32.toNat * 128
  | .sshl sd sa sb w32 => 0x1C00000C + sd * 1048576 + sa * 16384 + sb * 256 + w32.toNat * 128
  | .sshr sd sa sb w32 => 0x1C00000D + sd * 1048576 + sa * 16384 + sb * 256 + w32.toNat * 128
  | .ssra sd sa sb w32 => 0x1C00000E + sd * 1048576 + sa * 16384 + sb * 256 + w32.toNat * 128
  | .srot sd sa sb w32 => 0x1C00000F + sd * 1048576 + sa * 16384 + sb * 256 + w32.toNat * 128
  | .smin sd sa sb w32 => 0x1C000010 + sd * 1048576 + sa * 16384 + sb * 256 + w32.toNat * 128
  | .sminu sd sa sb w32 => 0x1C000011 + sd * 1048576 + sa * 16384 + sb * 256 + w32.toNat * 128
  | .smax sd sa sb w32 => 0x1C000012 + sd * 1048576 + sa * 16384 + sb * 256 + w32.toNat * 128
  | .smaxu sd sa sb w32 => 0x1C000013 + sd * 1048576 + sa * 16384 + sb * 256 + w32.toNat * 128
  | .spopc sd sa w32 => 0x1C000014 + sd * 1048576 + sa * 16384 + w32.toNat * 128
  | .sclz sd sa w32 => 0x1C000015 + sd * 1048576 + sa * 16384 + w32.toNat * 128
  | .sctz sd sa w32 => 0x1C000016 + sd * 1048576 + sa * 16384 + w32.toNat * 128
  | .sbrev sd sa w32 => 0x1C000017 + sd * 1048576 + sa * 16384 + w32.toNat * 128
  | .sbfx sd sa sb w32 => 0x1C000018 + sd * 1048576 + sa * 16384 + sb * 256 + w32.toNat * 128
  | .sbfi sd sa sb w32 => 0x1C000019 + sd * 1048576 + sa * 16384 + sb * 256 + w32.toNat * 128
  | .sseq sd sa sb w32 => 0x1C00001A + sd * 1048576 + sa * 16384 + sb * 256 + w32.toNat * 128
  | .sslt sd sa sb w32 => 0x1C00001B + sd * 1048576 + sa * 16384 + sb * 256 + w32.toNat * 128
  | .ssltu sd sa sb w32 => 0x1C00001C + sd * 1048576 + sa * 16384 + sb * 256 + w32.toNat * 128
  | .saddi sd sa imm => 0x20000000 + sd * 1048576 + sa * 16384 + imm
  | .sli sd imm => 0x24000000 + sd * 1048576 + imm
  | .sandi sd sa imm => 0x28000000 + sd * 1048576 + sa * 16384 + imm
  | .sori sd sa imm => 0x2C000000 + sd * 1048576 + sa * 16384 + imm
  | .sshi sd sa w32 kind amt => 0x30000000 + sd * 1048576 + sa * 16384 + w32.toNat * 256 + kind * 64 + amt
  | .smfs sd num => 0x34000000 + sd * 1048576 + num * 256
  | .smts sa num => 0x34000001 + sa * 16384 + num * 256
  | .vmfs lo num hi => 0x34000002 + lo * 1048576 + num * 256 + hi.toNat * 32
  | .satom sd sa sb space op => 0x38000000 + sd * 1048576 + sa * 16384 + sb * 256 + space * 64 + op
  | .scas sd sa sb space size => 0x3C000000 + sd * 1048576 + sa * 16384 + sb * 256 + space * 64 + size
  | .vadd vd va vb => 0x40000000 + vd * 524288 + vsrcBits va * 1024 + vsrcBits vb * 2
  | .vsub vd va vb => 0x40000001 + vd * 524288 + vsrcBits va * 1024 + vsrcBits vb * 2
  | .vmul vd va vb => 0x44000000 + vd * 524288 + vsrcBits va * 1024 + vsrcBits vb * 2
  | .vmulh vd va vb => 0x44000001 + vd * 524288 + vsrcBits va * 1024 + vsrcBits vb * 2
  | .vmulhu vd va vb => 0x48000000 + vd * 524288 + vsrcBits va * 1024 + vsrcBits vb * 2
  | .vmad vd va vb => 0x48000001 + vd * 524288 + vsrcBits va * 1024 + vsrcBits vb * 2
  | .vand vd va vb => 0x4C000000 + vd * 524288 + vsrcBits va * 1024 + vsrcBits vb * 2
  | .vor vd va vb => 0x4C000001 + vd * 524288 + vsrcBits va * 1024 + vsrcBits vb * 2
  | .vxor vd va vb => 0x50000000 + vd * 524288 + vsrcBits va * 1024 + vsrcBits vb * 2
  | .vandn vd va vb => 0x50000001 + vd * 524288 + vsrcBits va * 1024 + vsrcBits vb * 2
  | .vshl vd va vb => 0x54000000 + vd * 524288 + vsrcBits va * 1024 + vsrcBits vb * 2
  | .vshr vd va vb => 0x54000001 + vd * 524288 + vsrcBits va * 1024 + vsrcBits vb * 2
  | .vsra vd va vb => 0x58000000 + vd * 524288 + vsrcBits va * 1024 + vsrcBits vb * 2
  | .vrot vd va vb => 0x58000001 + vd * 524288 + vsrcBits va * 1024 + vsrcBits vb * 2
  | .vmin vd va vb => 0x5C000000 + vd * 524288 + vsrcBits va * 1024 + vsrcBits vb * 2
  | .vmax vd va vb => 0x5C000001 + vd * 524288 + vsrcBits va * 1024 + vsrcBits vb * 2
  | .vminu vd va vb => 0x60000000 + vd * 524288 + vsrcBits va * 1024 + vsrcBits vb * 2
  | .vmaxu vd va vb => 0x60000001 + vd * 524288 + vsrcBits va * 1024 + vsrcBits vb * 2
  | .vabsd vd va vb => 0x64000000 + vd * 524288 + vsrcBits va * 1024 + vsrcBits vb * 2
  | .vaddc vd va vb => 0x64000001 + vd * 524288 + vsrcBits va * 1024 + vsrcBits vb * 2
  | .vdot4 vd va vb => 0x68000000 + vd * 524288 + vsrcBits va * 1024 + vsrcBits vb * 2
  | .vdot4u vd va vb => 0x68000001 + vd * 524288 + vsrcBits va * 1024 + vsrcBits vb * 2
  | .vcmp p cond va vb uns => 0x6C000000 + p * 8388608 + cond * 524288 + vsrcBits va * 1024 + vsrcBits vb * 2 + uns.toNat
  | .vfcmp p cond va vb => 0x70000000 + p * 8388608 + cond * 524288 + vsrcBits va * 1024 + vsrcBits vb * 2
  | .vmov vd va => 0x74000000 + vd * 524288 + vsrcBits va * 1024
  | .vnot vd va => 0x74000001 + vd * 524288 + vsrcBits va * 1024
  | .vneg vd va => 0x74000002 + vd * 524288 + vsrcBits va * 1024
  | .vabs vd va => 0x74000003 + vd * 524288 + vsrcBits va * 1024
  | .vpopc vd va => 0x74000004 + vd * 524288 + vsrcBits va * 1024
  | .vclz vd va => 0x74000005 + vd * 524288 + vsrcBits va * 1024
  | .vctz vd va => 0x74000006 + vd * 524288 + vsrcBits va * 1024
  | .vbrev vd va => 0x74000007 + vd * 524288 + vsrcBits va * 1024
  | .vext vd va half zext => 0x74000008 + vd * 524288 + vsrcBits va * 1024 + half.toNat * 64 + zext.toNat * 32
  | .vlid vd => 0x74000009 + vd * 524288
  | .vaddi vd va imm => 0x78000000 + vd * 524288 + vsrcBits va * 1024 + imm
  | .vandi vd va imm => 0x7C000000 + vd * 524288 + vsrcBits va * 1024 + imm
  | .vori vd va imm => 0x80000000 + vd * 524288 + vsrcBits va * 1024 + imm
  | .vshi vd va kind amt => 0x84000000 + vd * 524288 + vsrcBits va * 1024 + kind * 32 + amt
  | .vmovi vd imm => 0x88000000 + vd * 524288 + imm
  | .vperm vd va vb => 0x8C000000 + vd * 524288 + vsrcBits va * 1024 + vsrcBits vb * 2
  | .vpermx vd va vb => 0x8C000001 + vd * 524288 + vsrcBits va * 1024 + vsrcBits vb * 2
  | .vballot sd va => 0x90000000 + sd * 1048576 + vsrcBits va * 2048
  | .vredadd sd va uns => 0x90000001 + sd * 1048576 + vsrcBits va * 2048 + uns.toNat * 32
  | .vredmin sd va uns => 0x90000002 + sd * 1048576 + vsrcBits va * 2048 + uns.toNat * 32
  | .vredmax sd va uns => 0x90000003 + sd * 1048576 + vsrcBits va * 2048 + uns.toNat * 32
  | .vfredadd sd va => 0x90000004 + sd * 1048576 + vsrcBits va * 2048
  | .vfredmax sd va => 0x90000005 + sd * 1048576 + vsrcBits va * 2048
  | .vfirst sd va => 0x90000006 + sd * 1048576 + vsrcBits va * 2048
  | .vread sd va k => 0x90000007 + sd * 1048576 + vsrcBits va * 2048 + k * 32
  | .vwrite sd vd k => 0x90000008 + sd * 1048576 + vd * 2048 + k * 32
  | .vbcast sd vd => 0x90000009 + sd * 1048576 + vd * 2048
  | .vscan vd va op => 0x94000000 + vd * 524288 + vsrcBits va * 1024 + op * 32
  | .vscanx vd va op => 0x94000001 + vd * 524288 + vsrcBits va * 1024 + op * 32
  | .vcompact vd va => 0x98000000 + vd * 524288 + vsrcBits va * 1024
  | .vexpand vd va => 0x98000001 + vd * 524288 + vsrcBits va * 1024
  | .vprune vd va vb => 0x9C000000 + vd * 524288 + vsrcBits va * 1024 + vsrcBits vb * 2
  | .vbmap vd va vb => 0x9C000001 + vd * 524288 + vsrcBits va * 1024 + vsrcBits vb * 2
  | .vfadd vd va vb => 0xA0000000 + vd * 524288 + vsrcBits va * 1024 + vsrcBits vb * 2
  | .vfsub vd va vb => 0xA0000001 + vd * 524288 + vsrcBits va * 1024 + vsrcBits vb * 2
  | .vfmul vd va vb => 0xA4000000 + vd * 524288 + vsrcBits va * 1024 + vsrcBits vb * 2
  | .vfma vd va vb => 0xA4000001 + vd * 524288 + vsrcBits va * 1024 + vsrcBits vb * 2
  | .vfmin vd va vb => 0xA8000000 + vd * 524288 + vsrcBits va * 1024 + vsrcBits vb * 2
  | .vfmax vd va vb => 0xA8000001 + vd * 524288 + vsrcBits va * 1024 + vsrcBits vb * 2
  | .vfdiv vd va vb => 0xAC000000 + vd * 524288 + vsrcBits va * 1024 + vsrcBits vb * 2
  | .vfms vd va vb => 0xAC000001 + vd * 524288 + vsrcBits va * 1024 + vsrcBits vb * 2
  | .vbdot2 vd va vb => 0xB0000000 + vd * 524288 + vsrcBits va * 1024 + vsrcBits vb * 2
  | .vhdot2 vd va vb => 0xB0000001 + vd * 524288 + vsrcBits va * 1024 + vsrcBits vb * 2
  | .vfabs vd va => 0xB4000000 + vd * 524288 + vsrcBits va * 1024
  | .vfneg vd va => 0xB4000001 + vd * 524288 + vsrcBits va * 1024
  | .vfrcp vd va => 0xB4000002 + vd * 524288 + vsrcBits va * 1024
  | .vfrsq vd va => 0xB4000003 + vd * 524288 + vsrcBits va * 1024
  | .vfsqrt vd va => 0xB4000004 + vd * 524288 + vsrcBits va * 1024
  | .vfexp2 vd va => 0xB4000005 + vd * 524288 + vsrcBits va * 1024
  | .vflog2 vd va => 0xB4000006 + vd * 524288 + vsrcBits va * 1024
  | .vfsin vd va => 0xB4000007 + vd * 524288 + vsrcBits va * 1024
  | .vfcos vd va => 0xB4000008 + vd * 524288 + vsrcBits va * 1024
  | .vfclass vd va => 0xB4000009 + vd * 524288 + vsrcBits va * 1024
  | .vfrint vd va => 0xB400000A + vd * 524288 + vsrcBits va * 1024
  | .vcvt vd va dir x => 0xB8000000 + vd * 524288 + vsrcBits va * 1024 + dir.toNat * 512 + x * 32
  | .vpack vd va vb => 0xBC000000 + vd * 524288 + vsrcBits va * 1024 + vsrcBits vb * 2
  | .vunpk vd va vb => 0xBC000001 + vd * 524288 + vsrcBits va * 1024 + vsrcBits vb * 2
  | .vqblk vd va => 0xC0000000 + vd * 524288 + vsrcBits va * 1024
  | .vdqblk vd va => 0xC0000001 + vd * 524288 + vsrcBits va * 1024
  | .vld vdata vaddr sbase size mode => 0xC4000000 + vdata * 524288 + vaddr * 4096 + sbase * 64 + size * 8 + mode
  | .vst vdata vaddr sbase size mode => 0xC8000000 + vdata * 524288 + vaddr * 4096 + sbase * 64 + size * 8 + mode
  | .vlds vdata vaddr sbase size mode => 0xCC000000 + vdata * 524288 + vaddr * 4096 + sbase * 64 + size * 8 + mode
  | .vsts vdata vaddr sbase size mode => 0xD0000000 + vdata * 524288 + vaddr * 4096 + sbase * 64 + size * 8 + mode
  | .vldc vdata vaddr sbase size mode => 0xD4000000 + vdata * 524288 + vaddr * 4096 + sbase * 64 + size * 8 + mode
  | .vstc vdata vaddr sbase size mode => 0xD8000000 + vdata * 524288 + vaddr * 4096 + sbase * 64 + size * 8 + mode
  | .vldk vdata vaddr sbase size mode => 0xDC000000 + vdata * 524288 + vaddr * 4096 + sbase * 64 + size * 8 + mode
  | .vstk vdata vaddr sbase size mode => 0xE0000000 + vdata * 524288 + vaddr * 4096 + sbase * 64 + size * 8 + mode
  | .vldsub vdata vaddr sbase size mode => 0xE4000000 + vdata * 524288 + vaddr * 4096 + sbase * 64 + size * 8 + mode
  | .sld sd sbase size mode off => 0xE8000000 + sd * 1048576 + sbase * 16384 + size * 2048 + mode * 512 + off
  | .sst sd sbase size mode off => 0xE8000100 + sd * 1048576 + sbase * 16384 + size * 2048 + mode * 512 + off
  | .slds sd sbase size mode off => 0xEC000000 + sd * 1048576 + sbase * 16384 + size * 2048 + mode * 512 + off
  | .ssts sd sbase size mode off => 0xEC000100 + sd * 1048576 + sbase * 16384 + size * 2048 + mode * 512 + off
  | .vatom vdata vaddr sbase space op => 0xF0000000 + vdata * 524288 + vaddr * 4096 + sbase * 64 + space * 16 + op
  | .vcasW vdata vaddr sbase space => 0xF4000000 + vdata * 524288 + vaddr * 4096 + sbase * 64 + space * 16
  | .vcasD vdata vaddr sbase space => 0xF4000001 + vdata * 524288 + vaddr * 4096 + sbase * 64 + space * 16
  | .vcas2 vdata vaddr sbase space => 0xF4000002 + vdata * 524288 + vaddr * 4096 + sbase * 64 + space * 16
  | .vred vdata vaddr sbase space op => 0xF4000000 + vdata * 524288 + vaddr * 4096 + sbase * 64 + space * 16 + op
  | .serviceGroupEntryApply .. => 0
  | .prf sa lvl => 0xF8000000 + sa * 16384 + lvl
  | .fls sa sb scope => 0xF8100000 + sa * 16384 + sb * 256 + scope * 8
  | .inv sa sb scope => 0xF8200000 + sa * 16384 + sb * 256 + scope * 8
  | .fence scope order => 0xF8300000 + scope * 8 + order
  | .fenceComplete .. => 0
  | .wfetch sa sb kind => 0xF8400000 + sa * 16384 + sb * 256 + kind
  | .wevict sa => 0xF8500000 + sa * 16384
  | .wpress sa => 0xF8600000 + sa * 16384
  | .barInit sa sb => 0xFC000000 + sa * 16384 + sb * 256
  | .barArr sa grp p => 0xFC100000 + sa * 16384 + grp.toNat * 8 + p
  | .barWait sa sb => 0xFC200000 + sa * 16384 + sb * 256
  | .barWaitWake .. => 0
  | .barExp sa sb p => 0xFC300000 + sa * 16384 + sb * 256 + p
  | .barTry sa sb p => 0xFC400000 + sa * 16384 + sb * 256 + p
  | .barInval sa => 0xFC500000 + sa * 16384
  | .tbegVal sa n => 0xFC600000 + sa * 16384 + n
  | .tbegTs sa n => 0xFC600010 + sa * 16384 + n
  | .logSlabGrant .. => 0
  | .tend => 0xFC700000
  | .groupCommit .. => 0
  | .commitTokenGrant .. => 0
  | .orderedBatchCommit .. => 0
  | .txBackoffExpiry .. => 0
  | .txPeriodicValidation .. => 0
  | .fallbackTokenGrant .. => 0
  | .tabt code => 0xFC800000 + code
  | .tstat sa sel => 0xFC900000 + sa * 16384 + sel
  | .tord sa sb n => 0xFCA00000 + sa * 16384 + sb * 256 + n
  | .ecmd sa sb guard k => 0xFCB00000 + sa * 16384 + sb * 256 + guard.toNat * 16 + k
  | .ewait sa sb => 0xFCC00000 + sa * 16384 + sb * 256
  | .eyield sa sb => 0xFCD00000 + sa * 16384 + sb * 256
  | .eyieldResume .. => 0
  | .eguard k => 0xFCE00000 + k
  | .gres sa k => 0xFCF00000 + sa * 16384 + k
  | .ecopy sa sn guard k => 0xFD000000 + sa * 16384 + sn * 256 + guard.toNat * 16 + k
  | .rrot sa sb guard k => 0xFD100000 + sa * 16384 + sb * 256 + guard.toNat * 16 + k
  | .ecoll sa sn guard k => 0xFD200000 + sa * 16384 + sn * 256 + guard.toNat * 16 + k
  | .rebal sa sb ptrs vs => 0xFD300000 + sa * 16384 + sb * 256 + ptrs.toNat * 128 + vs
  | .resort sa vk => 0xFD400000 + sa * 16384 + vk
  | .tdescTWrite sa sb t => 0xFD500000 + sa * 16384 + sb * 256 + t
  | .tdescTRead sa sb t => 0xFD500008 + sa * 16384 + sb * 256 + t
  | .tdescAWrite sa acc => 0xFD500010 + sa * 16384 + acc
  | .tdescARead sa acc => 0xFD500018 + sa * 16384 + acc
  | .mwld sa sub tb => 0xFD600000 + sa * 16384 + sub * 64 + tb
  | .mloop sa sb sub ta tb => 0xFD700000 + sa * 16384 + sb * 256 + sub * 64 + ta * 8 + tb
  | .mzero sa sub acc => 0xFD800000 + sa * 16384 + sub * 64 + acc
  | .mget sa sub t acc => 0xFD900000 + sa * 16384 + sub * 64 + t * 8 + acc
  | .mput sa sub t acc => 0xFDA00000 + sa * 16384 + sub * 64 + t * 8 + acc
  | .mstore sa sub t acc => 0xFDB00000 + sa * 16384 + sub * 64 + t * 8 + acc
  | .subarrayGrant .. => 0
  | .matrixPassDone .. => 0
  | .rfe => 0xFDC00000
  | .tlbi sa sb kind => 0xFDD00000 + sa * 16384 + sb * 256 + kind
  | .tlbiComplete .. => 0
  | .ctxsv sa sb => 0xFDE00000 + sa * 16384 + sb * 256
  | .ctxld sa sb => 0xFDF00000 + sa * 16384 + sb * 256
  | .sysc sa sb cls => 0xFE000000 + sa * 16384 + sb * 256 + cls
  | .syscMailArrival .. => 0
  | .dump sa sb => 0xFE100000 + sa * 16384 + sb * 256
  | .dumpTimeLimit .. => 0
  | .mwaitWake .. => 0
  | .mwaitTimeLimit .. => 0
  | .loadDataReturn .. => 0
  | .pageWalkDone .. => 0
  | .dirLoadRequest .. => 0
  | .dirUpgradeRequest .. => 0
  | .dirStoreRequest .. => 0
  | .sliceWrite .. => 0
  | .ownerWriteback .. => 0
  | .recallArrival .. => 0
  | .l1InvalidateArrival .. => 0
  | .l1UpdateArrival .. => 0
  | .sharerAckArrival .. => 0
  | .vatUnitIntake .. => 0
  | .mergedRead .. => 0
  | .pressDone .. => 0
  | .remoteRequestArrival .. => 0
  | .remoteFillArrival .. => 0
  | .wheelInvalidateArrival .. => 0
  | .fabricTimeoutExpiry .. => 0
  | .fabricErrorCompletion .. => 0
  | .invalAckTimeout .. => 0
  | .hostAtomicUrCompletion .. => 0
  | .hostWriteBar2 .. => 0
  | .hostReadBar2 .. => 0
  | .hostAtomicopBar2 .. => 0
  | .hostWriteBar4 .. => 0
  | .hostReadBar4 .. => 0
  | .controlRegisterWrite .. => 0
  | .msixtrigWrite .. => 0
  | .cavewinWrite .. => 0
  | .lkillKill .. => 0
  | .lkillKillTree .. => 0
  | .dbgstopWrite .. => 0
  | .dumprelWrite .. => 0
  | .rrctlModeOff .. => 0
  | .rrctlModeRecord .. => 0
  | .rrctlModeReplay .. => 0
  | .rrstatClear .. => 0
  | .replayGateTimeout .. => 0
  | .sampleTimer .. => 0
  | .fwctlVerify .. => 0
  | .fwVerifyDone .. => 0
  | .attctlStart .. => 0
  | .attestationDone .. => 0
  | .pwrctlActive .. => 0
  | .pwrctlIdle .. => 0
  | .pwrctlRetain .. => 0
  | .powerCapWindow .. => 0
  | .thermalThrottle .. => 0
  | .thermalTrip .. => 0
  | .moduleReset .. => 0
  | .bootStageDone .. => 0
  | .unitPlacement .. => 0
  | .passOverTimeout .. => 0
  | .stealRequestArrival .. => 0
  | .stealReplyArrival .. => 0
  | .countReportTimer .. => 0
  | .countReportArrival .. => 0
  | .groupDrainDone .. => 0
  | .engineJobStart .. => 0
  | .engineChunkArrival .. => 0
  | .engineJobEnd .. => 0
  | .engineJobResume .. => 0
  | .collectiveStart .. => 0
  | .groupStopped .. => 0
  | .trapEventStart .. => 0
  | .correctedEccError .. => 0
  | .uncorrectableEccError .. => 0
  | .coherentWindowAccess .. => 0
  | .clusterCrossbarAccess .. => 0
  | .variableLatencyResult .. => 0
  | .failedModuleMarkClear .. => 0

/-- Whether a step is an instruction word; otherwise it is a hardware event. -/
def Instr.isWord : Instr → Bool
  | .nop => true
  | .hintSch .. => true
  | .hintImm .. => true
  | .hintOrd .. => true
  | .hintMod .. => true
  | .hintExt .. => true
  | .br .. => true
  | .bxz .. => true
  | .bxnz .. => true
  | .bxall .. => true
  | .bs .. => true
  | .call .. => true
  | .bdiv .. => true
  | .ret => true
  | .calli .. => true
  | .jmpi .. => true
  | .bjt .. => true
  | .join => true
  | .yield => true
  | .exit => true
  | .mwait .. => true
  | .spawn .. => true
  | .waitc .. => true
  | .trap .. => true
  | .brk .. => true
  | .xmGet .. => true
  | .xmSet .. => true
  | .xmAnd .. => true
  | .xmAndn .. => true
  | .xmFromp .. => true
  | .xmPop .. => true
  | .sadd .. => true
  | .ssub .. => true
  | .smul .. => true
  | .smulh .. => true
  | .smulhu .. => true
  | .sdiv .. => true
  | .sdivu .. => true
  | .srem .. => true
  | .sand .. => true
  | .sor .. => true
  | .sxor .. => true
  | .sandn .. => true
  | .sshl .. => true
  | .sshr .. => true
  | .ssra .. => true
  | .srot .. => true
  | .smin .. => true
  | .sminu .. => true
  | .smax .. => true
  | .smaxu .. => true
  | .spopc .. => true
  | .sclz .. => true
  | .sctz .. => true
  | .sbrev .. => true
  | .sbfx .. => true
  | .sbfi .. => true
  | .sseq .. => true
  | .sslt .. => true
  | .ssltu .. => true
  | .saddi .. => true
  | .sli .. => true
  | .sandi .. => true
  | .sori .. => true
  | .sshi .. => true
  | .smfs .. => true
  | .smts .. => true
  | .vmfs .. => true
  | .satom .. => true
  | .scas .. => true
  | .vadd .. => true
  | .vsub .. => true
  | .vmul .. => true
  | .vmulh .. => true
  | .vmulhu .. => true
  | .vmad .. => true
  | .vand .. => true
  | .vor .. => true
  | .vxor .. => true
  | .vandn .. => true
  | .vshl .. => true
  | .vshr .. => true
  | .vsra .. => true
  | .vrot .. => true
  | .vmin .. => true
  | .vmax .. => true
  | .vminu .. => true
  | .vmaxu .. => true
  | .vabsd .. => true
  | .vaddc .. => true
  | .vdot4 .. => true
  | .vdot4u .. => true
  | .vcmp .. => true
  | .vfcmp .. => true
  | .vmov .. => true
  | .vnot .. => true
  | .vneg .. => true
  | .vabs .. => true
  | .vpopc .. => true
  | .vclz .. => true
  | .vctz .. => true
  | .vbrev .. => true
  | .vext .. => true
  | .vlid .. => true
  | .vaddi .. => true
  | .vandi .. => true
  | .vori .. => true
  | .vshi .. => true
  | .vmovi .. => true
  | .vperm .. => true
  | .vpermx .. => true
  | .vballot .. => true
  | .vredadd .. => true
  | .vredmin .. => true
  | .vredmax .. => true
  | .vfredadd .. => true
  | .vfredmax .. => true
  | .vfirst .. => true
  | .vread .. => true
  | .vwrite .. => true
  | .vbcast .. => true
  | .vscan .. => true
  | .vscanx .. => true
  | .vcompact .. => true
  | .vexpand .. => true
  | .vprune .. => true
  | .vbmap .. => true
  | .vfadd .. => true
  | .vfsub .. => true
  | .vfmul .. => true
  | .vfma .. => true
  | .vfmin .. => true
  | .vfmax .. => true
  | .vfdiv .. => true
  | .vfms .. => true
  | .vbdot2 .. => true
  | .vhdot2 .. => true
  | .vfabs .. => true
  | .vfneg .. => true
  | .vfrcp .. => true
  | .vfrsq .. => true
  | .vfsqrt .. => true
  | .vfexp2 .. => true
  | .vflog2 .. => true
  | .vfsin .. => true
  | .vfcos .. => true
  | .vfclass .. => true
  | .vfrint .. => true
  | .vcvt .. => true
  | .vpack .. => true
  | .vunpk .. => true
  | .vqblk .. => true
  | .vdqblk .. => true
  | .vld .. => true
  | .vst .. => true
  | .vlds .. => true
  | .vsts .. => true
  | .vldc .. => true
  | .vstc .. => true
  | .vldk .. => true
  | .vstk .. => true
  | .vldsub .. => true
  | .sld .. => true
  | .sst .. => true
  | .slds .. => true
  | .ssts .. => true
  | .vatom .. => true
  | .vcasW .. => true
  | .vcasD .. => true
  | .vcas2 .. => true
  | .vred .. => true
  | .serviceGroupEntryApply .. => false
  | .prf .. => true
  | .fls .. => true
  | .inv .. => true
  | .fence .. => true
  | .fenceComplete .. => false
  | .wfetch .. => true
  | .wevict .. => true
  | .wpress .. => true
  | .barInit .. => true
  | .barArr .. => true
  | .barWait .. => true
  | .barWaitWake .. => false
  | .barExp .. => true
  | .barTry .. => true
  | .barInval .. => true
  | .tbegVal .. => true
  | .tbegTs .. => true
  | .logSlabGrant .. => false
  | .tend => true
  | .groupCommit .. => false
  | .commitTokenGrant .. => false
  | .orderedBatchCommit .. => false
  | .txBackoffExpiry .. => false
  | .txPeriodicValidation .. => false
  | .fallbackTokenGrant .. => false
  | .tabt .. => true
  | .tstat .. => true
  | .tord .. => true
  | .ecmd .. => true
  | .ewait .. => true
  | .eyield .. => true
  | .eyieldResume .. => false
  | .eguard .. => true
  | .gres .. => true
  | .ecopy .. => true
  | .rrot .. => true
  | .ecoll .. => true
  | .rebal .. => true
  | .resort .. => true
  | .tdescTWrite .. => true
  | .tdescTRead .. => true
  | .tdescAWrite .. => true
  | .tdescARead .. => true
  | .mwld .. => true
  | .mloop .. => true
  | .mzero .. => true
  | .mget .. => true
  | .mput .. => true
  | .mstore .. => true
  | .subarrayGrant .. => false
  | .matrixPassDone .. => false
  | .rfe => true
  | .tlbi .. => true
  | .tlbiComplete .. => false
  | .ctxsv .. => true
  | .ctxld .. => true
  | .sysc .. => true
  | .syscMailArrival .. => false
  | .dump .. => true
  | .dumpTimeLimit .. => false
  | .mwaitWake .. => false
  | .mwaitTimeLimit .. => false
  | .loadDataReturn .. => false
  | .pageWalkDone .. => false
  | .dirLoadRequest .. => false
  | .dirUpgradeRequest .. => false
  | .dirStoreRequest .. => false
  | .sliceWrite .. => false
  | .ownerWriteback .. => false
  | .recallArrival .. => false
  | .l1InvalidateArrival .. => false
  | .l1UpdateArrival .. => false
  | .sharerAckArrival .. => false
  | .vatUnitIntake .. => false
  | .mergedRead .. => false
  | .pressDone .. => false
  | .remoteRequestArrival .. => false
  | .remoteFillArrival .. => false
  | .wheelInvalidateArrival .. => false
  | .fabricTimeoutExpiry .. => false
  | .fabricErrorCompletion .. => false
  | .invalAckTimeout .. => false
  | .hostAtomicUrCompletion .. => false
  | .hostWriteBar2 .. => false
  | .hostReadBar2 .. => false
  | .hostAtomicopBar2 .. => false
  | .hostWriteBar4 .. => false
  | .hostReadBar4 .. => false
  | .controlRegisterWrite .. => false
  | .msixtrigWrite .. => false
  | .cavewinWrite .. => false
  | .lkillKill .. => false
  | .lkillKillTree .. => false
  | .dbgstopWrite .. => false
  | .dumprelWrite .. => false
  | .rrctlModeOff .. => false
  | .rrctlModeRecord .. => false
  | .rrctlModeReplay .. => false
  | .rrstatClear .. => false
  | .replayGateTimeout .. => false
  | .sampleTimer .. => false
  | .fwctlVerify .. => false
  | .fwVerifyDone .. => false
  | .attctlStart .. => false
  | .attestationDone .. => false
  | .pwrctlActive .. => false
  | .pwrctlIdle .. => false
  | .pwrctlRetain .. => false
  | .powerCapWindow .. => false
  | .thermalThrottle .. => false
  | .thermalTrip .. => false
  | .moduleReset .. => false
  | .bootStageDone .. => false
  | .unitPlacement .. => false
  | .passOverTimeout .. => false
  | .stealRequestArrival .. => false
  | .stealReplyArrival .. => false
  | .countReportTimer .. => false
  | .countReportArrival .. => false
  | .groupDrainDone .. => false
  | .engineJobStart .. => false
  | .engineChunkArrival .. => false
  | .engineJobEnd .. => false
  | .engineJobResume .. => false
  | .collectiveStart .. => false
  | .groupStopped .. => false
  | .trapEventStart .. => false
  | .correctedEccError .. => false
  | .uncorrectableEccError .. => false
  | .coherentWindowAccess .. => false
  | .clusterCrossbarAccess .. => false
  | .variableLatencyResult .. => false
  | .failedModuleMarkClear .. => false

/-- The instruction that a 32-bit word holds, or none where the word raises IIN at decoding (R233, R253). -/
def decode (w : W32) : Option Instr :=
  match decodeFields w.toNat with
  | none => none
  | some i => if i.wellFormed && encodeNat i == w.toNat then some i else none

/-- The words of a well-formed instruction: one word, and none for an event. -/
def encode (i : Instr) : List W32 := if i.isWord then [BitVec.ofNat 32 (encodeNat i)] else []

/-- The four bytes of a word in memory order (R1). -/
def wordBytes (w : Nat) : List Byte :=
  [BitVec.ofNat 8 w, BitVec.ofNat 8 (w / 256), BitVec.ofNat 8 (w / 65536), BitVec.ofNat 8 (w / 16777216)]

/-- The word that stands in the first four bytes of a list (R1), and the bytes after it. -/
def readWord : List Byte → Option (W32 × List Byte)
  | b0 :: b1 :: b2 :: b3 :: rest =>
    some (BitVec.ofNat 32 (b0.toNat + b1.toNat * 256 + b2.toNat * 65536 + b3.toNat * 16777216), rest)
  | _ => none

/-- Decoding from bytes: the instruction and the bytes after its word. -/
def decodeBytes (bs : List Byte) : Option (Instr × List Byte) :=
  match readWord bs with
  | none => none
  | some (w, rest) => (decode w).map fun i => (i, rest)

/-- The instruction decoded from a row of the operation table, its bits numbered as the table numbers them: every instruction
is one word, so its bits are the word's, stored little-endian and decoded. -/
def decodeTableWord (nbits w : Nat) : Option Instr :=
  (decodeBytes (wordBytes (w % 2 ^ nbits))).map fun r => r.1

end Sys2Proof
end

