-- ==== Sys2Proof/Config.lean ====
section
/-!
DEFINITION. What an implementation, its firmware or its surroundings fix and the manual leaves open: opaque constants, of which no
proof can know a value. A fresh value is taken by applying one to the count that `State.free` keeps, or to what it depends on.
-/
namespace Sys2Proof.Config
open Sys2Proof

/-- The per-core generator of the back-off draw (R163); programs cannot see it. (DESIGN CHOICE, log entry 8, safe.) -/
opaque backoffDraw : Nat → Nat

/-- The vector base that the firmware sets for a core's trap context at boot (R355, R380). (DESIGN CHOICE, log entry 7, unsafe.) -/
opaque vectorBase : Nat → W64

/-- The first instruction and the root table of the resident supervisor group that boot stage 4 starts (R380, R212).
(DESIGN CHOICE, log entry 10, unsafe.) -/
opaque supervisorEntry : W64
opaque supervisorRoot : Nat

/-- The bytes of the supervisor image that boot stage 3 loads, and their physical addresses, for the digest of the image in force; the
empty digest stands for the image of manufacture (R380, R382). (DESIGN CHOICE, log entry 10, unsafe.) -/
opaque supervisorImage : List Byte → List (Nat × Byte)

/-- The root table that the resident supervisor keeps for each address space (R43, Table 14-6). (DESIGN CHOICE, log entry 10, unsafe.) -/
opaque rootTables : List (Nat × Nat)

/-- The divergence save area that the resident routines give a new group (R265), by core and slot. (DESIGN CHOICE, log entry 10, unsafe.) -/
opaque dsaveOf : Nat → Nat → W64

/-- The page of a launch's fault record, by handle; 0 where system software maps none (R366). (DESIGN CHOICE, log entry 10, unsafe.) -/
opaque recordPage : Nat → W64

/-- The fault-record place as the physical address that the firmware uses for that page (R366). (DESIGN CHOICE, log entry 10, unsafe.) -/
opaque recordPhys : Nat → Nat

/-- The fused firmware key and minimum version accept an image with this header (R381): the signature check's answer.
(DESIGN CHOICE, log entry 35, safe.) -/
opaque signatureOk : List Byte → Bool

/-- SHA3-256 of a byte string (R381, R384), 32 bytes. (DESIGN CHOICE, log entry 35, safe.) -/
opaque sha3 : List Byte → Nat → Byte

/-- The ML-DSA-44 signature of the identity key over a digest (R384), byte by byte. (DESIGN CHOICE, log entry 35, safe.) -/
opaque identitySign : List Byte → Nat → Byte

/-- Digests of the boot ROM, the stage-2 image and the supervisor image, 96 bytes, and the version of the running supervisor (R384).
(DESIGN CHOICE, log entry 35, safe.) -/
opaque firmwareDigest : Nat → Byte
opaque supervisorSvn : W64
/-- The version of the stage-2 image of manufacture (R381). (DESIGN CHOICE, log entry 35, safe.) -/
opaque stage2Svn : Nat

/-- Bytes of the identity public key and certificate (R383). (DESIGN CHOICE, log entry 35, safe.) -/
opaque identityByte : Nat → Byte

/-- The domain's time stamp when the module joins it (R19, R380). (DESIGN CHOICE, log entry 64, unsafe.) -/
opaque domainTime : W64

/-- Whether the fabric is configured, so that the module joins a domain at boot (R380). -/
opaque fabricConfigured : Bool

/-- Where in the dump staging area the context of a group goes, by core and slot (R372). (DESIGN CHOICE, log entry 28, safe.) -/
opaque dumpPlace : Nat → Nat → Nat

/-- The random choice of a free value where the manual states no result. (DESIGN CHOICE, log entry 8, safe.) (DESIGN CHOICE, log entry 53, safe.) -/
opaque freeWord : Nat → W32
/-- The same for 64 bits. (DESIGN CHOICE, log entry 8, safe.) -/
opaque freeDouble : Nat → W64
/-- The same for a byte. (DESIGN CHOICE, log entry 8, safe.) -/
opaque freeByte : Nat → Byte

/-- The mapping of vats to places in the vat area, for errors found there (R127): the index of the vat of a wheel in its die.
(DEDUCED, log entry 62, safe.) -/
opaque vatPlace : Nat → Nat

/-- Where the scratchpad allocation of a workgroup, and the shares of a cluster instance, begin in a core's scratchpad (R70, R74), for errors
found there. (DEDUCED, log entry 62, safe.) -/
opaque spadBase : Nat → Nat
/-- The same of the share of a cluster instance. (DEDUCED, log entry 62, safe.) -/
opaque shareBase : Nat → Nat

/-- The physical address that a trap names for a byte of a workgroup's scratchpad allocation, or of a cluster instance's memory: the manual
gives the scratchpads none (Table 19-2). (DEDUCED, log entry 62, safe.) -/
opaque chipAddr : Bool → Nat → Nat → W64

/-- The row of the HBM that holds a physical address: the manual does not say how many bytes a row has (R367). (DEDUCED, log entry 62, safe.) -/
opaque hbmRow : Nat → Nat

/-- Where in the supervisor area of its die's Cave the arbitration log of a recorded line begins: the manual gives no
place (R376, R426). (DESIGN CHOICE, log entry 83, safe.) -/
opaque logPlace : Nat → Nat → Nat
/-- The same of the die's hash log (R426). (DESIGN CHOICE, log entry 83, safe.) -/
opaque hashPlace : Nat → Nat

/-- The set of an L2 slice that holds a line: the manual gives its size and ways and no index (R79). (DESIGN CHOICE, log entry 13, unsafe.) -/
opaque l2Set : Nat → Nat
/-- The set of a die's directory that holds a line (R87). (DESIGN CHOICE, log entry 13, unsafe.) -/
opaque dirSet : Nat → Nat
/-- The set of an L1 instruction cache that holds a line (R68). (DESIGN CHOICE, log entry 11, unsafe.) -/
opaque icacheSet : Nat → Nat
/-- The set of a core's data TLB that holds a page (Table 03-6). (DESIGN CHOICE, log entry 12, unsafe.) -/
opaque dtlbSet : Nat → Nat
/-- The set of a die's TLB that holds a page (Table 03-6). (DESIGN CHOICE, log entry 12, unsafe.) -/
opaque stlbSet : Nat → Nat

end Sys2Proof.Config
end

