-- ==== Sys2Proof/Machine/State.lean ====
section
/-!
DEFINITION. The state of an Ifeyr 9 module: everything the reference manual gives the machine, as plain data.
Each field's docstring ends with [width; rule; reset value]. A reset value marked DC <n> is the model's choice
(DESIGN CHOICE, log entry n) because the manual gives none; "model" marks a field that is the model's own.
All clocks and counters that the manual only counts are natural numbers; what software sees as a word is a bit vector.
-/
namespace Sys2Proof.Machine
open Sys2Proof

/-- A byte store: (address, byte) pairs, addresses strictly rising, no byte equal to zero. -/
abbrev Cells := List Host.Cell

/-- One 32-lane vector register (R198). -/
abbrev VReg := List W32

/-- The payload of a `hint.mod` (Table 12-4). -/
structure ModHint where
  upd : Bool := false
  sub : Nat := 0
  zero : Bool := false
  pk : Nat := 0
  sat : Bool := false
  rnd : Nat := 0
  cache : Nat := 0
  deriving DecidableEq, Repr

/-- The operand of a `hint.ext` (R237): selector, class (0 vector, 1 uniform, 2 predicate, 3 tile, 4 accumulator, 5 modulo), number. -/
structure ExtHint where
  sel : Nat
  cls : Nat
  reg : Nat
  deriving DecidableEq, Repr

/-- The order and scope of a `hint.ord` (R131). -/
structure OrdHint where
  order : Nat
  scope : Nat
  deriving DecidableEq, Repr

/-- The hints that stand before the target of the present run (R234). -/
structure Hints where
  imm : Option Nat := none
  ord : Option OrdHint := none
  mod : Option ModHint := none
  ext : Option ExtHint := none
  deriving DecidableEq, Repr

/-- A register name: class as in R237 (0 vector, 1 uniform, 2 predicate, 3 tile, 4 accumulator, 5 modulo) and number. -/
structure RegName where
  cls : Nat
  num : Nat
  deriving DecidableEq, Repr

/-- The contents of a register as a producer found it, or as a result in flight brings it. -/
inductive RegVal where
  | lanes (x : VReg)
  | word (x : W64)
  deriving DecidableEq, Repr

/-- A covered fixed-latency producer of a path (R242): its register, its address, its latency, the sum D of counts since it,
the clock at which it issued and the register's value before its write. -/
structure Producer where
  reg : RegName
  pc : W64
  lat : Nat
  sum : Nat
  issued : Nat
  old : RegVal
  /-- Lanes whose latest writer it is; all of them for a uniform register. -/
  mask : W32 := 0xFFFFFFFF
  deriving DecidableEq, Repr

/-- The stall reasons of Table 11-3, in reporting order; `memHold` is MEM_DEP of an instruction that runs to its end before a save (R265, R353). -/
inductive Stall where
  | preemptSave | trapPending | barrierWait | mwaitParked | engineWait | txCommitWait | memDep | stallCount
  | matrixResv | ifetch | pipeBusy | notSelected | memHold
  deriving DecidableEq, Repr

/-- A program-counter slot of a group (R201). -/
structure Slot where
  /-- The slot holds a path. [1; R201; A true, B false] -/
  live : Bool := false
  /-- Address of the next word to issue. [64 (57 used); R201; ENTRY] -/
  pc : W64 := 0
  /-- Execution mask. [32; R201; by R195] -/
  exm : W32 := 0
  /-- Call depth, 0 to 65,535. [16; R201; 0] -/
  depth : Nat := 0
  /-- Frame tag. [16; R201; 0] -/
  tag : BitVec 16 := 0
  /-- Hint words of the present run already issued (R234), so the run begins 4 × run bytes before pc. [count; R234; 0] -/
  run : Nat := 0
  /-- Hints collected by the present run. [-; R234; none] -/
  hints : Hints := {}
  /-- Counts and yield bits still to be taken by covered instructions (R240). [4 × 5; R240; none] -/
  cover : List (Nat × Bool) := []
  /-- Covered producers whose latency the counts have not yet met (R242). [-; R242; none] -/
  prods : List Producer := []
  /-- Clock from which a stall count lets the path issue (R240). [count; R240; 0] -/
  readyAt : Nat := 0
  /-- Clock until which the slot gives way (R240, R263). [count; R240; 0] -/
  giveWay : Nat := 0
  /-- Clock of the last issue (R218). [count; R218; 0] -/
  lastIssue : Nat := 0
  /-- Clock of the last instruction issued from the slot, none before the first (R375). [count; R375; none] -/
  issuedAt : Option Nat := none
  /-- Clock since which the slot has been ready to issue (R218). [count; R218; none] -/
  readySince : Option Nat := none
  /-- Clock at which the path last entered the slot (R205). [count; R205; 0] -/
  entered : Nat := 0
  /-- Why the path waits at its next instruction (Table 11-3). [-; R227; none] -/
  wait : Option Stall := none
  /-- The next target is performed once without WATCH checks (R359). [1; R359; false] -/
  wskip : Bool := false
  deriving DecidableEq, Repr

/-- What parked a save-area entry (R206, R313, R338, R164). -/
inductive ParkCause where
  | mwait
  | barWait (off : Nat) (phase : Bool)
  | eyield (handle : W64)
  | backoff
  deriving DecidableEq, Repr

/-- STATE of a save-area entry that is not empty (Table 10-4); a waiting entry waits at a `join`, a `tend` or a `resort`. -/
inductive EntryState where
  | ready
  | parked (c : ParkCause)
  | waitJoin
  | waitTend (region : Nat)
  | waitResort
  deriving DecidableEq, Repr

/-- A divergence save-area entry (Table 10-4). LEFT is kept as the clock at which it reaches 0. -/
structure SaveEntry where
  state : EntryState
  pc : W64
  mask : W32
  depth : Nat
  frame : BitVec 16
  seq : Nat
  deadline : Nat := 0
  /-- Clock at which the count of LEFT began (R372). [count; R206; 0] -/
  begun : Nat := 0
  maddr : W64 := 0
  /-- Address at which a path parked in `mwait` goes on when its time limit passes (R206). -/
  next : W64 := 0
  deriving DecidableEq, Repr

/-- A log entry of a transaction (Table 08-2). -/
structure LogEntry where
  kind : Nat
  size : Nat
  pa : Nat
  data : W64
  /-- The page of the access is vat-managed (R125). -/
  vat : Bool := false
  deriving DecidableEq, Repr

/-- The log-store part of one lane's transaction (R156): header, read and write entries. Its status word is txst. -/
structure LaneTx where
  /-- Region instance (R153); lanes with the same number opened together. [count; R153; 0] -/
  region : Nat := 0
  /-- First word of the hint run of the `tbeg` or `tord` (R162). [57; R156; 0] -/
  restart : W64 := 0
  /-- Abort address, 0 register for none (R165). [64; R156; none] -/
  abortTo : Option W64 := none
  /-- Iteration of an ordered transaction (R167). [64; R156; 0] -/
  iter : W64 := 0
  /-- Address of the order token (R167). [64; R156; 0] -/
  token : W64 := 0
  /-- The token's page is vat-managed (R125). -/
  tokenVat : Bool := false
  /-- Escalation threshold (R166). [4; R155; 0] -/
  thresh : Nat := 0
  /-- Depth and tag of the region's path (R164). [16, 16; R164; 0] -/
  depth : Nat := 0
  tag : BitVec 16 := 0
  /-- Read entries in log order, at most 16. [16 × 128; R157; none] -/
  reads : List LogEntry := []
  /-- Write entries in log order, at most 8. [8 × 128; R157; none] -/
  writes : List LogEntry := []
  /-- The lane's next `tbeg` or `tord` is a retry (R162). [1; R162; false] -/
  retry : Bool := false
  /-- The lane restarts when its group resumes (R171, R173). [1; R171; false] -/
  restarts : Bool := false
  /-- Clock of the `tbeg` or of the last periodic validation (R172). [count; R172; 0] -/
  since : Nat := 0
  /-- The lane has reached `tend` and waits for its commit (R161). [1; R161; false] -/
  atTend : Bool := false
  /-- The lane has reached `tabt` in an ordered region and waits for its turn (R165). [1; R165; false] -/
  atTabt : Bool := false
  deriving DecidableEq, Repr

/-- A register result in flight (R238): the lanes it still may write, and the value it brings. -/
structure Inflight where
  /-- The producer is a form of row 6 of Table 11-3: a load, an atomic, a launch or engine form (R227). -/
  mem : Bool
  reg : RegName
  mask : W32
  val : RegVal
  /-- The entry of a service group whose return slots it waits for, and which word of the old value it takes (R108). -/
  await : Option (Nat × Nat) := none
  deriving DecidableEq, Repr

/-- What a group is doing between two issues (R356, R363, R208, R372). -/
inductive GroupStatus where
  | running
  | stopping
  | stopped
  | held
  | frozen
  | draining
  | saved
  deriving DecidableEq, Repr

/-- A GroupCommit under way (R161, R168): the lanes of the batch, the path's slot, whether it is ordered, the dies whose token
is still to be taken in ascending order, and those already held. -/
structure Commit where
  lanes : W32
  region : Nat
  ordered : Bool
  need : List Nat
  held : List Nat
  deriving DecidableEq, Repr

/-- A group of 32 lanes in a group slot, or a core's trap context (slot 64; R355). -/
structure Group where
  /-- Global core number, 0 to 127. [7; R10; -] -/
  core : Nat := 0
  /-- Group slot, 0 to 63; 64 for the trap context. [7; R355; -] -/
  slot : Nat := 0
  /-- Supervisor code (R233). [1; R233; -] -/
  sup : Bool := false
  /-- Handle of the launch, 0 for none. [32; R265; 0] -/
  launch : Nat := 0
  /-- Key of the workgroup, and the group's index in it (R195). [count; R195; 0] -/
  wg : Nat := 0
  gidx : Nat := 0
  /-- Address space and root table (R43). [12, 52; R43; 0] -/
  asid : Nat := 0
  root : Nat := 0
  /-- Priority (R224). [2; R224; PRIO] -/
  prio : Nat := 0
  /-- Lanes that hold a thread which has not exited (R254). [32; R254; by R195] -/
  lanes : W32 := 0
  /-- The two slots, and which of them issues now. [-; R201; by R197] -/
  a : Slot := {}
  b : Slot := {}
  inB : Bool := false
  /-- Divergence save-area entries that are not empty, at most 64, kept on chip (R202). [64 × 256; R202; none] -/
  save : List SaveEntry := []
  /-- Next SEQ (Table 10-4). [32; R202; 0] -/
  seqNext : Nat := 0
  /-- Frame counter (R201). [16; R201; 0] -/
  frameCtr : BitVec 16 := 0
  /-- Vector registers, as many as allocated. [32 × 32 each; R198; 0 by R197] -/
  v : List VReg := []
  /-- Uniform registers; entry 0 is never written. [64 each; R198; 0, s1 PARAM by R197] -/
  s : List W64 := []
  /-- Predicate registers. [32 each; R198; 0] -/
  p : List W32 := []
  /-- Tile registers. [128 each; R198; 0] -/
  t : List (BitVec 128) := []
  /-- Accumulator registers. [64 each; R198; 0] -/
  ac : List W64 := []
  /-- Modulo registers. [64 each; R72; 0] -/
  bm : List W64 := []
  /-- pcfg (Table 10-6). [32; R207; 0] -/
  pcfg : W32 := 0
  /-- schk (Table 12-7). [32; R243; STEP 0x0901, MODE by launch] -/
  schk : W32 := 0x09010000
  /-- fmt0 to fmt7 (R29). [8 × 32; R30; Table 02-4] -/
  fmt : List W32 := []
  /-- dsave (R202). [64; R202; set at creation] -/
  dsave : W64 := 0
  /-- Work identifier of each lane (R194). [32 × 64; R194; by R197] -/
  wid : List W64 := []
  /-- txst of each lane (R169). [32 × 32; R169; 0] -/
  txst : List W32 := []
  /-- Transaction log of each lane (R156). [32 × 512 bytes; R156; none] -/
  tx : List LaneTx := []
  /-- The group holds a log slab (R156). [1; R156; false] -/
  slab : Bool := false
  /-- Next region instance number. [count; R153; 0] -/
  regionNext : Nat := 1
  /-- GroupCommits under way. [-; R161; none] -/
  commits : List Commit := []
  /-- What the group is doing. [-; R356; running] -/
  status : GroupStatus := .running
  /-- A stop event (DBGSTOP) waits for the group (R371). [1; R371; false] -/
  stopAsked : Bool := false
  /-- A save request waits for the group (R224, R363). [1; R363; false] -/
  saveAsked : Bool := false
  /-- Address and mask of the group's last `exit`, which its drain checkpoint names (R427). [57, 32; R427; 0] -/
  lastExit : W64 := 0
  lastMask : W32 := 0
  /-- Register results in flight, oldest first (R238). [32 entries; R228; none] -/
  inflight : List Inflight := []
  /-- Return slots of the thread positions (R108). [32 × 128; R108; 0, DC 4] -/
  retSlots : List (BitVec 128) := []
  /-- Registers a trusted consumer reads early in this instruction (R242). [-; R242; none] -/
  early : List (RegName × RegVal) := []
  /-- A failed posted request waits to be reported (R192): address of the failed write. [64; R192; none] -/
  lateFault : Option W64 := none
  /-- The failure is an Unsupported Request completion (R185), and the INFO of the failed request, 1 for a store and 3 for a reduction
  (R357). [1, 2; R185, R357; false, 1] -/
  lateUnsup : Bool := false
  lateInfo : Nat := 1
  /-- Live mask of the group (R344). [128; R344; 0] -/
  liveMask : BitVec 128 := 0
  /-- Key register of a `resort` in progress, and the group's arrival (R209). [7; R209; none] -/
  sortKey : Option Nat := none
  /-- Running hash H and the count of instructions that fed it (R379). [64; R379; 0] -/
  hash : W64 := 0
  hashCount : Nat := 0
  /-- Order of creation (R218). [count; R218; -] -/
  born : Nat := 0
  /-- Lowest number of a matrix request of the group that retired with STATUS 1 (R348). [count; R348; none] -/
  matFailed : Option Nat := none
  /-- Paths (true for slot B) in `ewait` on handle 0, and the request number below which they wait (R348). [-; R348; none] -/
  matWait : List (Bool × Nat) := []
  /-- Paths (true for slot B) whose `tlbi` (R62) or `fence` (R143), of a scope, waits for its completion. [2, 2 × 4; R62, R143; none] -/
  tlbiWait : List Bool := []
  fenceWait : List (Bool × Nat) := []
  /-- Paths (true for slot B) whose `wevict` or `wpress` waits for the press of a wheel (R122). [2; R122; none] -/
  pressWait : List (Bool × Nat) := []
  deriving DecidableEq, Repr

/-- A trap or save request that waits for, or is served by, a trap context (R355, R356). -/
structure TrapEvent where
  slot : Nat
  inB : Bool
  code : Nat
  info : Nat := 0
  txab : Bool := false
  async : Bool := false
  pc : W64 := 0
  addr : W64 := 0
  mask : W32 := 0
  stamp : W64 := 0
  /-- Addresses that reached the outcome, for the routine that serves it (R361). -/
  vas : List W64 := []
  /-- The event is the suspension of a job: sequence number of its card (R60). -/
  card : Option Nat := none
  asid : Nat := 0
  deriving DecidableEq, Repr

/-- One access of an emulated load or store (R360): lane, address and length. -/
structure EmuAccess where
  lane : Nat
  va : W64
  len : Nat
  deriving DecidableEq, Repr

/-- A misaligned load or store that the routine emulates (R360): accesses still to be made, bytes loaded so far by lane, and whether the fence
before them has been passed. -/
structure Emulation where
  todo : List EmuAccess
  got : List (Nat × List Byte) := []
  begun : Bool := false
  deriving DecidableEq, Repr

/-- A request of a trap context for pages that are absent (R361, R60): the event it serves, its group, the pages not yet answered, the ring entries
that hold them once posted, whether one was refused, and the emulation that goes on afterwards. -/
structure PageRequest where
  event : TrapEvent
  wg : Nat
  gidx : Nat
  pages : List Nat
  entries : List Nat := []
  refused : Bool := false
  emu : Option Emulation := none
  deriving DecidableEq, Repr

/-- State of a guard slot (Table 11-5). -/
inductive GuardState where
  | free | pending | isTrue | isFalse
  deriving DecidableEq, Repr

/-- A guard slot and the workgroup that owns it (R223). -/
structure Guard where
  state : GuardState := .free
  wg : Nat := 0
  deriving DecidableEq, Repr

/-- A footprint of a job card (R221): space code, base, extent, and whether it is written. -/
structure Footprint where
  space : Nat
  base : Nat
  extent : Nat
  write : Bool
  deriving DecidableEq, Repr

/-- Where a held card stands (R222, R60, R340): it has edges, it is in its queue, its elements run, it waits for a page, or it runs as a
started collective. -/
inductive CardState where
  | waiting | ready | running | suspended
  deriving DecidableEq, Repr

/-- What a card asks for: the four words of a job (R331), a rotation (R341) or a collective (R342), with its ordinal (R340). -/
inductive CardKind where
  | job
  | rotate (k : Nat)
  | collective (k : Nat)
  deriving DecidableEq, Repr

/-- A job card held by a footprint scheduler (R221, R331 to R336, R341, R342). -/
structure Card where
  /-- Sequence number and card slot of the handle (Table 18-5). -/
  seq : Nat
  cslot : Nat
  kind : CardKind
  /-- The issuer: workgroup key and index of the group in it. -/
  wg : Nat
  gidx : Nat
  launch : Nat
  asid : Nat
  root : Nat
  sup : Bool
  /-- The words of the job; an `rrot` keeps its operand in src, an `ecoll` its pair in src and dst. -/
  dst : W64 := 0
  src : W64 := 0
  ctl : W64 := 0
  idx : W64 := 0
  /-- The footprints were declared by the program (R333), and they are these. -/
  declared : Bool := false
  foot : List Footprint := []
  /-- Offset of the status word. -/
  stat : Nat
  /-- Sequence numbers of the cards it has edges from. -/
  edges : List Nat := []
  guard : Option Nat := none
  state : CardState := .waiting
  /-- Next element to be performed, and bytes or rows whose arrival the barrier has counted. -/
  next : Nat := 0
  delivered : Nat := 0
  /-- Elements that have arrived (R84): those of `next` but for one whose writes may still be on their way. -/
  arrived : Nat := 0
  /-- A write of the last element failed outside the module (R192). -/
  lost : Bool := false
  /-- Group slot, path (true for B), address of the hint run and mask of the instruction that posted it (R427). -/
  slot : Nat := 0
  inB : Bool := false
  pc : W64 := 0
  mask : W32 := 0
  deriving DecidableEq, Repr

/-- One cached instruction line of 128 bytes (R68). -/
structure ILine where
  pa : Nat
  bytes : List Byte
  deriving DecidableEq, Repr

/-- Per-core state beside its groups. -/
structure Core where
  /-- Vector base of the trap context (R355). [64; R355; 0 until stage 3 sets it, DC 7] -/
  vbase : W64 := 0
  /-- Supervisor trap registers (Table 19-1). [64, 64, 64, 32; R357; 0] -/
  xcause : W64 := 0
  xpc : W64 := 0
  xaddr : W64 := 0
  xmask : W32 := 0
  /-- Events that wait, and whether the context is serving one (R355). [-; R355; none] -/
  events : List TrapEvent := []
  serving : Option Nat := none
  /-- The event that the context serves (R356). [-; R355; none] -/
  served : Option TrapEvent := none
  /-- Misaligned access that the routine emulates (R360). [-; R360; none] -/
  emu : Option Emulation := none
  /-- Requests for absent pages that the routines have posted or have still to post, oldest first (R361). [-; R361; none] -/
  pages : List PageRequest := []
  /-- Guard slots (R223). [16; R223; FREE] -/
  guards : List Guard := []
  /-- Job cards held, in acceptance order (R221). [64; R221; none] -/
  cards : List Card := []
  /-- Queue of the copy engine, first in, first out: sequence numbers of ready cards (R222). [-; R222; none] -/
  queue : List Nat := []
  /-- Sequence number of the next card (R334). [32; R334; 1] -/
  cardNext : Nat := 1
  /-- L1 instruction cache (R68). [1024 × 128 bytes; R68; empty] -/
  icache : List ILine := []
  /-- Core frozen by a dump, and the time stamp that releases it (R372). [64; R372; none] -/
  frozen : Option Nat := none
  /-- Clock at which it froze, and whether its entry of KIND 6 has been posted (R372). [count, 1; R372; 0] -/
  frozenAt : Nat := 0
  frozenPosted : Bool := false
  /-- Sampling: bytes written, and the slot sampled last (R375). [32, 7; R375; 0] -/
  smpPos : Nat := 0
  smpLast : Nat := 63
  /-- Clock of the next sample (R375). [count; R375; 0] -/
  smpDue : Nat := 0
  deriving DecidableEq, Repr

/-- A launch (R196, R213, R265). -/
structure Launch where
  handle : Nat
  parent : Nat := 0
  entry : W64 := 0
  /-- Width and extent of each field, W0 first (R194). [6 × 64; R196; header] -/
  fields : List (Nat × Nat) := []
  wgb : Nat := 1
  clb : Nat := 0
  prio : Nat := 0
  /-- Registers of each class: vector, uniform, predicate, tile, accumulator, modulo (Table 10-2). [-; R196; header] -/
  regs : List Nat := []
  step : Nat := 0
  spad : Nat := 0
  priv : Nat := 0
  clmem : Nat := 0
  param : W64 := 0
  done : W64 := 0
  flags : Nat := 0
  asid : Nat := 0
  root : Nat := 0
  sup : Bool := false
  /-- Units not yet placed, by distributor (R213, R215). [-; R213; all] -/
  unplaced : List (List Nat) := []
  /-- Units being placed or running. [count; R208; 0] -/
  running : Nat := 0
  /-- Saved workgroups waiting to resume, by distributor (R224). [-; R224; none] -/
  toResume : List (List Nat) := []
  /-- Launch order (R214). [count; R214; -] -/
  order : Nat := 0
  faulted : Bool := false
  killed : Bool := false
  frec : W64 := 0
  complete : Bool := false
  /-- Each die's lowest unplaced unit that has been passed over, and the main-clock count at the first time (R214). [-; R214; none] -/
  passed : List (Option (Nat × Nat)) := []
  deriving DecidableEq, Repr

/-- A workgroup placed on a core (R195, R216). -/
structure Workgroup where
  key : Nat
  launch : Nat
  index : Nat
  core : Nat
  inst : Option Nat := none
  groups : Nat := 1
  /-- Extent of the core scratchpad allocation, and of each lane-private slice (R70). [-; R70; header] -/
  spad : Nat := 0
  priv : Nat := 0
  /-- Scratchpad bytes: the core scratchpad at 0, slice i at S + i × P (R50). [1 MiB; R71; 0] -/
  cells : Cells := []
  saved : Bool := false
  placed : Nat := 0
  /-- Rotations and collectives issued so far (R340). [count; R340; 0] -/
  rotations : Nat := 0
  collectives : Nat := 0
  deriving DecidableEq, Repr

/-- A cluster instance (R195, R74). -/
structure Instance where
  key : Nat
  launch : Nat
  index : Nat
  cluster : Nat
  size : Nat
  /-- Cluster-memory bytes (R74). [4 MiB; R71; 0] -/
  cells : Cells := []
  /-- Rotations (false) and collectives (true) that lack a party for good, by ordinal (R340). [-; R340; none] -/
  dead : List (Bool × Nat) := []
  /-- From these ordinals on, every rotation or collective lacks a party whose workgroup has ended (R340). -/
  gone : List (Bool × Nat) := []
  /-- All its workgroups are saved and its cluster memory has been copied out and released (R363). [1; R363; false] -/
  saved : Bool := false
  deriving DecidableEq, Repr

/-- A store of on-chip bytes that an uncorrectable error may strike (R86): the Caves by physical address, the scratchpad allocation of a
workgroup and the memory of a cluster instance by key, the accumulator memory of a cluster. -/
inductive BadStore where
  | cave
  | wg (key : Nat)
  | inst (key : Nat)
  | acc (cluster : Nat)
  deriving DecidableEq, Repr

/-- A spoiled byte of an on-chip memory (R86). -/
structure BadByte where
  store : BadStore
  off : Nat
  deriving DecidableEq, Repr

/-- A TLB that holds an entry (Table 03-6). -/
inductive TlbLoc where
  | itlb (core : Nat)
  | dtlb (core : Nat)
  | second (die : Nat)
  deriving DecidableEq, Repr

/-- A TLB entry: where it stands, its address space, its page base and level, and the leaf (R53). -/
structure TlbEntry where
  loc : TlbLoc
  asid : Nat
  base : Nat
  level : Nat
  pte : W64
  deriving DecidableEq, Repr

/-- A page-walk cache entry: die, address space, level of the table it points from, address prefix, pointer entry (R53). -/
structure WalkEntry where
  die : Nat
  asid : Nat
  level : Nat
  prefix_ : Nat
  pte : W64
  deriving DecidableEq, Repr

/-- A path's miss of a page that waits for a walk, or whose walk has come back (R55): the path, the address space and its root, and an
address of the page; an instruction fetch or a data access. -/
structure Miss where
  core : Nat
  slot : Nat
  inB : Bool
  asid : Nat
  root : Nat
  va : W64
  fetch : Bool
  /-- The access of a `prf`, whose line fetch goes on when the walk has come back: level and supervisor mode (R296). -/
  prefetch : Option (Nat × Bool) := none
  done : Bool := false
  deriving DecidableEq, Repr

/-- Directory states (R89); a line without an entry is in I. -/
inductive DirState where
  | shared
  | modified (owner : Nat)
  deriving DecidableEq, Repr

/-- A rind (R88): a format tag and a mask of global clusters. -/
structure Rind where
  tag : Tag
  mask : W32
  deriving DecidableEq, Repr

/-- A directory entry (Table 05-1). -/
structure DirEntry where
  line : Nat
  state : DirState
  rinds : List Rind := []
  upd : Bool := false
  col : Bool := false
  deriving DecidableEq, Repr

/-- An L1 data-cache copy of a line (R66, R93). Its bytes are those of the memory at the copy's format, except while an
invalidation or update of it is on the way: then `stale` holds the bytes it still returns (R104). -/
structure L1Line where
  core : Nat
  line : Nat
  tag : Tag
  valid : W64
  dirty : W64
  keep : Bool := false
  /-- In M, the line as the home slice has it beneath, where other modules hold pointers to its wheel (R190). -/
  base : List Byte := []
  /-- The version that a reply carried with the copy (R158); none once the copy has changed without one. -/
  version : Option W32 := none
  stale : Option (List Byte) := none
  deriving DecidableEq, Repr

/-- A directory message on its way to the cores of a cluster (R90, R99). -/
inductive MsgKind where
  | invalidate
  | update
  deriving DecidableEq, Repr

/-- One undelivered directory message to one core (R102). -/
structure DirMsg where
  core : Nat
  line : Nat
  kind : MsgKind
  tag : Tag
  all : Bool
  /-- The new line that an update carries (R99). -/
  data : List Byte := []
  deriving DecidableEq, Repr

/-- An L2 line's version (R80); a line that is not listed is not in the L2. -/
structure L2Line where
  line : Nat
  version : W32
  /-- Module wheel copies: formats this module holds pointers for (R190). -/
  remote : List Tag := []
  /-- The line stands in ways 12 to 15 (R67). -/
  ro : Bool := false
  deriving DecidableEq, Repr

/-- A vat entry (Table 06-3). -/
structure VatEntry where
  data : W32
  off : Nat
  op : Nat
  fmt : Nat
  deriving DecidableEq, Repr

/-- State of a vat-managed wheel (R111); a wheel that is not listed is IDLE. -/
inductive WheelState where
  | vatted
  | pressing
  | residentS
  | residentF (cave : Bool) (place off : Nat)
  deriving DecidableEq, Repr

/-- One wheel's record: state, vat and recency (Table 06-5). -/
structure Wheel where
  wheel : Nat
  state : WheelState
  vat : List VatEntry := []
  stamp : Nat := 0
  /-- Residency after the press (R112), and whether a unit of the intake queue forced it (R124). -/
  after : Option WheelState := none
  forced : Bool := false
  /-- Lines that entries or the record of the vat with an uncorrectable error could touch, until a press or a merged read finds it (R127). -/
  bad : List Nat := []
  deriving DecidableEq, Repr

/-- One lane's part of an atomic or store at a place: address, size in bytes, operation code, operand and compare value. -/
structure AtomReq where
  lane : Nat
  addr : Nat
  size : Nat
  op : Nat
  operand : BitVec 128
  compare : BitVec 128 := 0
  deriving DecidableEq, Repr

/-- A unit on its way to a service group's vat intake (R119), and who sent it (`Group.ident`, `engineIdent`), on which core. The first 512 of a list stand in
the queue; later ones wait at their senders for a place. -/
structure VatUnit where
  ident : Nat
  core : Nat
  wheel : Nat
  reqs : List AtomReq
  src : Option Nat := none
  deriving DecidableEq, Repr

/-- An entry of a service group's request queue (R106), and the group that sent it (`Group.ident`), with its core. -/
structure SgEntry where
  ident : Nat
  core : Nat
  space : Nat
  wg : Nat
  inst : Option Nat
  reqs : List AtomReq
  /-- Number of the entry, and whether its form returns values to the group's return slots (R108). -/
  id : Nat := 0
  ret : Bool
  /-- The atomic's order is `acq`, `ar` or `sc`: later accesses of its threads wait for it (R131). -/
  acq : Bool := false
  deriving DecidableEq, Repr

/-- A cluster-memory access on its way over the cluster's crossbar (R151): who made it, on which core, the instance, the share of the
core-scratchpads it goes to, and what it does there: a load brings each lane's bytes, a store writes each lane's bytes. -/
structure XbarReq where
  id : Nat
  ident : Nat
  core : Nat
  wg : Nat
  inst : Nat
  share : Nat
  load : Bool
  /-- The order of a load is `acq`, `ar` or `sc`. -/
  acq : Bool := false
  /-- Lane, offset, size and bytes of a store. -/
  parts : List (Nat × Nat × List Byte)
  deriving DecidableEq, Repr

/-- A matrix request in the reservation table (R219): whose it is, its resolved operands, and how far it has come. -/
structure MatReq where
  id : Nat
  /-- Core (for the arbiter), workgroup key and group index of the issuer, its slot and address for the stamp record. -/
  core : Nat
  wg : Nat
  gidx : Nat
  slot : Nat
  pc : W64
  launch : Nat
  prio : Nat
  /-- fn6 of the request, sub-array and accumulator tile. -/
  fn : Nat
  sub : Nat
  tile : Nat := 0
  /-- Descriptors of A, and of B or the memory tile, and the format-register values that their FMT codes name (R33, R318). -/
  ta : BitVec 128 := 0
  tb : BitVec 128 := 0
  da : W32 := 0
  db : W32 := 0
  /-- Rounding mode and SAT of an `mstore`. -/
  mode : Nat := 0
  sat : Bool := false
  /-- Steps asked for and done (R347). -/
  steps : Nat := 1
  done : Nat := 0
  /-- Slots streamed and skipped; copy-in, compute and copy-out cycles (R330). -/
  run : Nat := 0
  skip : Nat := 0
  copyIn : Nat := 0
  compute : Nat := 0
  copyOut : Nat := 0
  /-- STATUS of the stamp record: 1 after an uncorrectable error (R329). -/
  status : Nat := 0
  /-- A pass is granted, and the clock at which it ends. -/
  granted : Bool := false
  due : Nat := 0
  /-- Clock and time stamp of acceptance; leaf entry and physical address of the stamp record. -/
  accepted : Nat := 0
  tacc : W64 := 0
  stamp : Option (W64 × Nat) := none
  /-- Virtual address of the stamp record, and the address space under which it is translated anew (R62). -/
  stampVa : W64 := 0
  asid : Nat := 0
  root : Nat := 0
  sup : Bool := false
  /-- From which free value on the bytes stand that its pass writes first (R348, R393). -/
  mix : Nat := 0
  /-- The last pass is done and the stamp record is on its way (R330). -/
  ended : Bool := false
  deriving DecidableEq, Repr

/-- What a weight latch holds (R324): the memory of the block and its descriptor at the step, the format-register value with which it was latched
(R33), the runs of bytes that it read and their contents then, whether a write that counts has reached them since, and the other bytes of that memory
that such writes have reached since (R393). -/
structure Latch where
  store : BadStore
  desc : BitVec 128
  fmt : W32
  runs : List (Nat × Nat)
  cells : Cells
  spent : Bool := false
  near : List (Nat × Nat) := []
  deriving DecidableEq, Repr

/-- A sub-array: the request it serves, the core granted last, and its two weight latches: the front one, which streams, and the back one, which
is filled meanwhile (R220, R317, R324). -/
structure SubArray where
  busy : Option Nat := none
  lastCore : Option Nat := none
  front : Option Latch := none
  back : Option Latch := none
  deriving DecidableEq, Repr

/-- Per-cluster state. -/
structure Cluster where
  /-- Accumulator tiles: (tile × 49,152 + row × 384 + column, word), sparse over +0 (R319). [32 × 128 × 384 × 32; R319; +0] -/
  tiles : List (Nat × W32) := []
  /-- Poisoned tiles (R329). -/
  poisoned : List Nat := []
  /-- Reservation table, oldest first (R219). [32; R219; empty] -/
  resv : List MatReq := []
  subs : List SubArray := []
  /-- Service-group request queue (R106). [256; R106; empty] -/
  sg : List SgEntry := []
  /-- Cluster-memory accesses of `vldc` and `vstc` on their way over the crossbar, oldest first (R151). [-; R151; empty] -/
  xbar : List XbarReq := []
  /-- Vat intake queue (R119). [512; R119; empty] -/
  intake : List VatUnit := []
  deriving DecidableEq, Repr

/-- An arbitration chunk (Table 20-4). -/
structure Chunk where
  src : Nat
  run : Nat
  deriving DecidableEq, Repr

/-- A request that waits at an order gate, as a report of divergence names it (R427): the group and path that made or posted it, the first
word of its instruction's hint run, and its mask. -/
structure GateWait where
  core : Nat
  slot : Nat
  path : Nat
  pc : W64
  mask : W32
  deriving DecidableEq, Repr

/-- A recorded line: its table entry, the chunk of its log at which it stands and how many requests of that chunk have been served, and when its
gate last moved (R376 to R378). The log itself stands in the Cave (R376). -/
structure RecLine where
  entry : BitVec 128 := 0
  pos : Nat := 0
  used : Nat := 0
  opened : Bool := false
  waiting : Option GateWait := none
  moved : Nat := 0
  deriving DecidableEq, Repr

/-- A checkpoint record of a group's hash (Table 27-2). -/
structure HashRec where
  num : Nat
  src : Nat
  hash : W64
  deriving DecidableEq, Repr

/-- An entry of the error-count table (R367). -/
structure EccEntry where
  loc : Nat
  count : Nat
  first : Nat
  deriving DecidableEq, Repr

/-- A set of a cache: of a core's L1 data cache or L1 instruction cache, or ways 12 to 15 (`ro`) or the others of a set of an L2 slice of a die
(R67, R368). -/
inductive CacheSet where
  | l1 (core set : Nat)
  | l1i (core set : Nat)
  | l2 (die slice set : Nat) (ro : Bool)
  deriving DecidableEq, Repr

/-- A wheel-directory entry (R189): pointers to modules, or BROADCAST. -/
structure WheelPtrs where
  wheel : Nat
  ptrs : List (Nat × Tag) := []
  broadcast : Bool := false
  deriving DecidableEq, Repr

/-- A line with an uncorrectable error (R86): the line, and its bytes that nothing has written since. -/
structure Poisoned where
  line : Nat
  left : W64 := BitVec.allOnes 64
  deriving DecidableEq, Repr

/-- A global store that has left its core and waits in its die's pending-store buffer (R142): its number, the group that made it and its core, the
leaf entry of its page, its physical address and bytes, and its cache hint. -/
structure PendStore where
  id : Nat
  ident : Nat
  core : Nat
  pte : W64
  pa : Nat
  bytes : List Byte
  cache : Nat := 0
  deriving DecidableEq, Repr

/-- Per-die state. -/
structure Die where
  /-- Version clock of each slice (R80). [32 × 32; R80; 0] -/
  clocks : List W32 := []
  /-- Holder of the commit token (R161). [1; R161; free] -/
  token : Option (Nat × Nat) := none
  /-- Cave window table (Table 09-6). [16 × 128; R178; 0] -/
  caveWin : List (BitVec 128) := []
  /-- Sub-page filters (Table 20-3). [32 × 128; R373; 0] -/
  filters : List (BitVec 128) := []
  /-- Recorded-line table, logs and gates (R376). [64; R376; 0, DC 4] -/
  recLines : List RecLine := []
  /-- Number of records in the hash log, which stands in the Cave (R426). [count; R426; 0] -/
  hashNum : Nat := 0
  /-- Wheel directory of other modules' copies (R189). [262,144; R189; empty] -/
  wheelDir : List WheelPtrs := []
  /-- Error-count table (R367). [4,096; R367; empty] -/
  ecc : List EccEntry := []
  /-- Retired or unretired lasting faults, as logged (R368). [-; R368; empty] -/
  retired : List (Nat × Bool) := []
  /-- Distributor: last count it reported, clock of that report, counts reported by the other dies, steal in flight (R215). [-; R215; 0] -/
  reported : Nat := 0
  reportedAt : Nat := 0
  counts : List Nat := []
  freshReport : Bool := true
  stealing : Option Nat := none
  stolen : List (Nat × List Nat) := []
  /-- Hottest junction in quarter degrees (R387). [8; R387; 0, DC 4] -/
  therm : Byte := 0
  hot : Bool := false
  deriving DecidableEq, Repr

/-- Module control registers (Tables 09-6, 20-2 and chapters 19 and 21). -/
structure Ctl where
  hbmwin : W64 := 0
  fabtmo : W64 := 1000
  tilemask : List W32 := []
  eccthr : W64 := 4
  eccwin : W64 := 86400
  dbgctl : W64 := 0
  smpctl : W64 := 0
  smpbuf : W64 := 0
  smpsz : W64 := 0
  rrctl : W64 := 0
  rrstat : W64 := 0
  bootstat : W64 := 1
  fwctl : W64 := 0
  fwstat : W64 := 0
  attctl : W64 := 0
  attnonce : List Byte := []
  pwrctl : W64 := 0
  pwrstat : W64 := 0
  pcap : W64 := 5600
  clknow : W64 := 940
  /-- Staging window bytes (R382). -/
  fwstg : Cells := []
  /-- Sticky facts of the attestation report (R384): ATTACH and RRCTL.MODE have been nonzero since reset. -/
  wasAttached : Bool := false
  wasRecorded : Bool := false
  /-- Nonce copied when an attestation starts (R384). -/
  nonceCopy : List Byte := []
  /-- Those facts as they were when the attestation started (R384). -/
  attFlags : Nat := 0
  /-- The domain has been joined (R380, stage 5). -/
  joined : Bool := false
  /-- Digest of the staged image, which takes effect at the next reset (R382). -/
  stagedDigest : List Byte := []
  deriving DecidableEq, Repr

/-- Where a fabric or host-port request stands (R192, R185). -/
inductive FabState where
  | pending
  | replied
  | failed
  | unsupported
  deriving DecidableEq, Repr

/-- An atomic without return on its way outside the module (R192): its request, the leaf entry of its page and whether its scope is `sys`. -/
structure PostedAtom where
  req : AtomReq
  pte : W64
  sys : Bool
  deriving DecidableEq, Repr

/-- A fabric or host-port request in flight (R192): the group (`Group.ident`) and the path, core and instruction that sent it, whether it is posted, the writes it carries
(address and bytes), its virtual address and lanes, and when it times out. -/
structure FabReq where
  id : Nat
  ident : Nat
  core : Nat
  inB : Bool
  pc : W64
  host : Bool
  posted : Bool
  pa : Nat
  writes : List (Nat × List Byte)
  vaddr : W64
  mask : W32
  deadline : Nat
  status : FabState
  /-- The launch of the group (R192). -/
  launch : Nat := 0
  /-- The atomics without return that it carries to one target, in lane order (R306). -/
  atoms : List PostedAtom := []
  /-- It has left the die, which has at most 4,096 requests unanswered; a later one waits at its sender (R192). -/
  sent : Bool := true
  /-- A strong access at scope `dev` or wider (R135), which no other core may read before it is performed (R142). -/
  strong : Bool := false
  deriving DecidableEq, Repr

/-- What the host or another module got back from the module (R176, R188): data, an unsupported request, the invalidation of a wheel at a module or at all (R190, R191),
or an answer of FABRIC_TIMEOUT (R193). -/
inductive HostReply where
  | data (d : List Byte)
  | unsupported
  | poison (d : List Byte)
  | invalidate (module : Option Nat) (wheel : Nat)
  | failed
  deriving DecidableEq, Repr

/-- A copy of a host-memory line that the module holds and nobody snoops (R182): its bytes, those that are valid (R66), and those written. -/
structure HostLine where
  line : Nat
  bytes : List Byte
  dirty : W64
  valid : W64 := BitVec.allOnes 64
  deriving DecidableEq, Repr

/-- An event of the debug ring that waits or is posted (R370). -/
structure DebugEvent where
  header : List Byte
  addr : W64
  cause : W64
  data : List Byte
  deriving DecidableEq, Repr

/-- Supervisor mail (R351). -/
structure Mail where
  dst : Nat
  cls : Nat
  body : List Byte
  deriving DecidableEq, Repr

/-- Which agent moves next: a hardware event or an outside input of the table of steps, or the issue of a slot of a group.
(DESIGN CHOICE, log entry 3, unsafe.) -/
inductive Turn where
  | event (i : Instr)
  | issue (core slot : Nat) (inB : Bool)
  /-- The host writes bytes of its own memory (R181). -/
  | hostStore (pa : Nat) (bytes : List Byte)
  /-- The host compares bytes of its own memory with the first operand and, when they are equal, writes the second there (R181). -/
  | hostCas (pa : Nat) (old new : List Byte)
  /-- The firmware, asked by system software, loads the arbitration log of a line of a die, or the die's hash log (R426). -/
  | loadLog (die : Nat) (line : Option Nat) (bytes : List Byte)
  /-- The hottest junction of a die reads a new value (R387). -/
  | junction (die : Nat) (quarters : Byte)
  deriving DecidableEq, Repr

/-- The state of the module. -/
structure State where
  /-- The group that issues now; every other resident group and trap context. [-; R201; DC 2] -/
  g : Group := {}
  groups : List Group := []
  /-- Domain physical memory: what every byte holds coherently, HBM, Caves, host memory and other modules alike (R44). [2^52 bytes; R44; 0 (SRAM, Cave R380; HBM DC 1)] -/
  mem : Cells := []
  cores : List Core := []
  clusters : List Cluster := []
  dies : List Die := []
  launches : List Launch := []
  wgs : List Workgroup := []
  insts : List Instance := []
  /-- Root table of each address space that has one (R43, Table 14-6). [12 → 52; R43; none] -/
  roots : List (Nat × Nat) := []
  tlbs : List TlbEntry := []
  walkCache : List WalkEntry := []
  /-- Translation misses of the cores' queues (R55). [64 a core; R55; none] -/
  misses : List Miss := []
  dir : List DirEntry := []
  l1 : List L1Line := []
  msgs : List DirMsg := []
  l2 : List L2Line := []
  wheels : List Wheel := []
  hostCopies : List HostLine := []
  fabric : List FabReq := []
  failed : List Nat := []
  ctl : Ctl := {}
  /-- Holder of the module's fallback token: core, slot, lane (R166). [1; R166; free] -/
  fallback : Option (Nat × Nat × Nat) := none
  /-- Groups, lanes that wait for the fallback token, in order of request (R166). [-; R166; none] -/
  fallbackWait : List (Nat × Nat × Nat) := []
  /-- Module ID (R44). [9; R44; 0, DC 5] -/
  module : Nat := 0
  /-- Main clock count, and the time stamp of R19. [count; R18; 0] [64; R19; 0] -/
  clock : Nat := 0
  tstamp : W64 := 0
  nextHandle : Nat := 1
  nextKey : Nat := 1
  nextId : Nat := 1
  /-- MSI-X vectors raised, oldest first (R177). [-; R177; none] -/
  msix : List Nat := []
  /-- Lines of the host's last posted write to HBM, whose copies may not all have been told of it yet (R176). [-; R176; none] -/
  hostLines : List Nat := []
  /-- Answers to the host, oldest first (R176). [-; R176; none] -/
  hostOut : List HostReply := []
  /-- Answers, acknowledgements and invalidations to other modules, oldest first (R188, R190). [-; R188; none] -/
  fabOut : List HostReply := []
  /-- Answers to other modules that wait until every sharer of their lines has acknowledged (R188). [-; R188; none] -/
  owed : List (List Nat × HostReply) := []
  /-- Invalidations of other modules' copies that have not been acknowledged: module and line of the write (R190, R193). [-; R190; none] -/
  modAcks : List (Nat × Nat) := []
  /-- What the last read merged with a vat returned (R120). [model; log 3; none] -/
  mergedOut : List Byte := []
  /-- Supervisor mail sent to other modules, oldest first (R351). [-; R351; none] -/
  mailOut : List Mail := []
  /-- Debug ring: next entry, and events that wait for it (R370). [6; R370; 0] -/
  dbgNext : Nat := 0
  dbgWait : List DebugEvent := []
  /-- Count reports on the dies' paths: sender, receiver, count (R9, R215). [-; R215; none] -/
  reports : List (Nat × Nat × Nat) := []
  /-- Cache ways taken out of service, an entry for each (R368). [-; R368; none] -/
  offWays : List CacheSet := []
  /-- Poisoned lines (R86). [-; R86; none] -/
  poison : List Poisoned := []
  /-- Pending-store buffers of the dies, oldest first (R142). [-; R142; none] -/
  stores : List PendStore := []
  /-- Bytes of the on-chip memories that an uncorrectable error has spoiled and nothing has written since (R86). [-; R86; none] -/
  bad : List BadByte := []
  /-- Staged and running firmware (R381, R382): SVN and digests are configuration; here the fused minimum. [32; R381; configuration] -/
  minSvn : Nat := 0
  /-- Images that updates have put in place since manufacture (R382): supervisor or stage-2, SVN and digest. [-; R382; none] -/
  images : List (Bool × Nat × List Byte) := []
  /-- Which agent moves next; empty leaves the choice to the default policy. [model; log 3; empty] -/
  agenda : List Turn := []
  /-- The trap contexts run the resident routines of R358 to R361 and R371, whose words the manual does not give, a turn at a time (true), or the
words at their vectors (false). [model; log 78; true] -/
  resident : Bool := true
  /-- Long operations wait for their event (true) or finish in the step of their instruction (false). [model; log 3; false] -/
  defer : Bool := false
  /-- Clocks and nanoseconds that one step takes. [model; log 6; 1 and 1] -/
  dtCycles : Nat := 1
  dtNs : Nat := 1
  /-- Count of free values taken. [model; log 8; 0] -/
  free : Nat := 0
  deriving DecidableEq, Repr

/-- The values of `fmt0` to `fmt7` at the start of a group (Table 02-4). -/
def fmtReset : List W32 := [0x13B9, 0x27AB, 0x01A7, 0x0095, 0x53B9, 0xC095, 0, 0]

/-- A register context of `nv` vector, `ns` uniform, `np` predicate, `nt` tile, `na` accumulator and `nb` modulo registers, all
zero, with the special registers as R197 gives them. (DESIGN CHOICE, log entry 4, unsafe.) -/
def Group.fresh (nv ns np nt na nb : Nat) : Group :=
  { v := List.replicate nv (List.replicate 32 0), s := List.replicate ns 0, p := List.replicate np 0, t := List.replicate nt 0,
    ac := List.replicate na 0, bm := List.replicate nb 0, fmt := fmtReset, wid := List.replicate 32 0,
    txst := List.replicate 32 0, tx := List.replicate 32 {}, retSlots := List.replicate 32 0 }

/-- The trap context of a core (R355): 64 uniform and 8 vector registers; it starts at boot stage 4. (DESIGN CHOICE, log entry 4, unsafe.) -/
def trapContext (core : Nat) : Group :=
  { Group.fresh 8 64 0 0 0 0 with core := core, slot := 64, sup := true, prio := 3, lanes := BitVec.allOnes 32 }

/-- A core after reset. -/
def Core.fresh : Core := { guards := List.replicate 16 {} }

/-- A cluster after reset. -/
def Cluster.fresh : Cluster := { subs := List.replicate 4 {} }

/-- A die after reset. (DESIGN CHOICE, log entry 4, unsafe.) -/
def Die.fresh : Die :=
  { clocks := List.replicate 32 0, caveWin := List.replicate 16 0, filters := List.replicate 32 0,
    recLines := List.replicate 64 {}, counts := List.replicate 4 0 }

/-- The module right after reset: no launch, no group but the trap contexts, which have not started; every memory byte reads
as zero; every register at the value the manual gives, or at the value the log names. (DESIGN CHOICE, log entry 1, unsafe.)
(DESIGN CHOICE, log entry 4, unsafe.) (DEDUCED, log entry 37, safe.) -/
def State.reset : State :=
  { g := trapContext 0
    groups := (List.range 127).map fun k => trapContext (k + 1)
    cores := List.replicate 128 Core.fresh
    clusters := List.replicate 32 Cluster.fresh
    dies := List.replicate 4 Die.fresh
    ctl := { tilemask := List.replicate 32 (BitVec.allOnes 32), attnonce := List.replicate 32 0, nonceCopy := List.replicate 32 0 } }

/-- The canonical form of a byte store above address `lo`: addresses strictly rise, and no listed byte is zero. -/
def Cells.wfFrom : Nat → Cells → Bool
  | _, [] => true
  | lo, (a, b) :: rest => decide (lo ≤ a) && (b != 0) && Cells.wfFrom (a + 1) rest

/-- The canonical form of a byte store: equal contents are equal lists. (DESIGN CHOICE, log entry 1, unsafe.) -/
def Memory.wf (m : Cells) : Bool := Cells.wfFrom 0 m

/-- Reasons a step can stop the machine for good. -/
inductive Fault where
  /-- Raised by any instruction of a trap context that would trap: the manual gives no delivery for it (R355, R356). Safe. -/
  | trapInTrapContext (code : Nat)
  deriving DecidableEq, Repr

/-- Reasons a step has no meaning. -/
inductive Refusal where
  /-- An instruction without a meaning yet, by its mnemonic. Safe. -/
  | notModelled (mnemonic : String)
  deriving DecidableEq, Repr

end Sys2Proof.Machine
end

