-- ==== Sys2Proof/Machine/Bits.lean ====
section
/-!
DEFINITION. Bit fields, sign extension, bit counts, byte order and lane masks: the helpers every meaning uses.
-/
namespace Sys2Proof.Machine
open Sys2Proof

/-- Bits [lo+len-1 : lo] of a natural number. -/
def natField (x lo len : Nat) : Nat := x / 2 ^ lo % 2 ^ len

/-- Bits [lo+len-1 : lo] of a word. -/
def field {n : Nat} (x : BitVec n) (lo len : Nat) : Nat := natField x.toNat lo len

/-- The word with bits [lo+len-1 : lo] replaced. -/
def setField {n : Nat} (x : BitVec n) (lo len v : Nat) : BitVec n :=
  BitVec.ofNat n (x.toNat - field x lo len * 2 ^ lo + v % 2 ^ len * 2 ^ lo)

/-- The signed value of a `len`-bit field. -/
def sextInt (v len : Nat) : Int := if v % 2 ^ len < 2 ^ (len - 1) then (v % 2 ^ len : Int) else (v % 2 ^ len : Int) - (2 ^ len : Int)

/-- A `len`-bit field sign-extended to a register. -/
def sext64 (v len : Nat) : W64 := BitVec.ofInt 64 (sextInt v len)

/-- A `len`-bit field sign-extended to a lane. -/
def sext32 (v len : Nat) : W32 := BitVec.ofInt 32 (sextInt v len)

/-- Number of set bits among the low `k` bits. -/
def popNat (x : Nat) : Nat → Nat
  | 0 => 0
  | k + 1 => popNat x k + (if x.testBit k then 1 else 0)

/-- Leading zeros of the low `k` bits. -/
def clzNat (x : Nat) : Nat → Nat
  | 0 => 0
  | k + 1 => if x.testBit k then 0 else clzNat x k + 1

/-- Trailing zeros, counted from bit `i` up, at most `k`. -/
def ctzNat (x i : Nat) : Nat → Nat
  | 0 => 0
  | k + 1 => if x.testBit i then 0 else ctzNat x (i + 1) k + 1

/-- The low `k` bits in reverse order. -/
def brevNat (x : Nat) : Nat → Nat
  | 0 => 0
  | k + 1 => 2 * brevNat x k + (if x.testBit k then 1 else 0)

/-- Index of the lowest set bit at or above `i`, looking at `k` bits. -/
def lowestFrom (x i : Nat) : Nat → Option Nat
  | 0 => none
  | k + 1 => if x.testBit i then some i else lowestFrom x (i + 1) k

/-- The lanes of a group, lowest first. -/
def allLanes : List Nat := List.range 32

/-- Whether a lane's bit is set. -/
def laneOn (m : W32) (l : Nat) : Bool := m.getLsbD l

/-- The lanes whose bit is set, lowest first. -/
def lanesOf (m : W32) : List Nat := allLanes.filter fun l => laneOn m l

/-- The mask of a list of lanes. -/
def maskOf (ls : List Nat) : W32 := ls.foldl (fun m l => m ||| BitVec.ofNat 32 (2 ^ l)) 0

/-- The mask of the lanes that satisfy a test. -/
def maskBy (p : Nat → Bool) : W32 := maskOf (allLanes.filter p)

/-- Number of set bits of a lane mask. -/
def popMask (m : W32) : Nat := popNat m.toNat 32

/-- The lowest lane of a mask, or 32. -/
def lowestLane (m : W32) : Nat := (lowestFrom m.toNat 0 32).getD 32

/-- The `n` low bytes of a number, in memory order (R1). -/
def toBytes : Nat → Nat → List Byte
  | 0, _ => []
  | n + 1, v => BitVec.ofNat 8 v :: toBytes n (v / 256)

/-- The number whose bytes in memory order are given (R1). -/
def fromBytes : List Byte → Nat
  | [] => 0
  | b :: bs => b.toNat + 256 * fromBytes bs

/-- The entry at an index replaced by a function of it. -/
def modifyAt {α : Type} (f : α → α) : Nat → List α → List α
  | _, [] => []
  | 0, x :: xs => f x :: xs
  | n + 1, x :: xs => x :: modifyAt f n xs

/-- The first entry that satisfies a test replaced by a function of it. -/
def modifyFirst {α : Type} (p : α → Bool) (f : α → α) : List α → List α
  | [] => []
  | x :: xs => if p x then f x :: xs else x :: modifyFirst p f xs

/-- The list without its first entry that satisfies a test. -/
def removeFirst {α : Type} (p : α → Bool) : List α → List α
  | [] => []
  | x :: xs => if p x then xs else x :: removeFirst p xs

/-- A list sorted by a key, entries with equal keys keeping their order. -/
def insertByKey {α : Type} (key : α → Nat) (x : α) : List α → List α
  | [] => [x]
  | y :: ys => if key x < key y then x :: y :: ys else y :: insertByKey key x ys

/-- Stable sort by a key, ascending. -/
def sortByKey {α : Type} (key : α → Nat) (xs : List α) : List α := xs.foldl (fun acc x => insertByKey key x acc) []

/-- A list without repeats, first occurrences kept. -/
def dedup {α : Type} [DecidableEq α] (xs : List α) : List α :=
  xs.foldl (fun acc x => if acc.elem x then acc else acc ++ [x]) []

/-- The byte a store holds at an address; an address that is not listed reads as zero. (DESIGN CHOICE, log entry 1, unsafe.) -/
def Cells.read : Cells → Nat → Byte
  | [], _ => 0
  | (k, b) :: rest, a => if a = k then b else if a < k then 0 else Cells.read rest a

/-- A store with the byte at one address written, in canonical form. -/
def Cells.write : Cells → Nat → Byte → Cells
  | [], a, v => if v = 0 then [] else [(a, v)]
  | (k, b) :: rest, a, v =>
    if a < k then (if v = 0 then (k, b) :: rest else (a, v) :: (k, b) :: rest)
    else if a = k then (if v = 0 then rest else (a, v) :: rest)
    else (k, b) :: Cells.write rest a v

/-- `n` bytes from an address up. -/
def Cells.readBytes (m : Cells) (a : Nat) : Nat → List Byte
  | 0 => []
  | n + 1 => m.read a :: Cells.readBytes m (a + 1) n

/-- A run of bytes written from an address up. -/
def Cells.writeBytes (m : Cells) (a : Nat) : List Byte → Cells
  | [] => m
  | b :: bs => Cells.writeBytes (m.write a b) (a + 1) bs

/-- The little-endian number of `n` bytes at an address (R1). -/
def Cells.readNat (m : Cells) (a n : Nat) : Nat := fromBytes (m.readBytes a n)

/-- A number written as `n` little-endian bytes (R1). -/
def Cells.writeNat (m : Cells) (a n v : Nat) : Cells := m.writeBytes a (toBytes n v)

end Sys2Proof.Machine
end

