-- ==== Sys2Proof/Machine/Fmt.lean ====
section
/-!
DEFINITION. Number formats, exact real values, DecodeFmt, RoundFmt and block scaling (R24 to R40), the exact arithmetic of
R277, and the elementary functions of R283 enclosed in intervals narrow enough to round.
-/
namespace Sys2Proof.Machine
open Sys2Proof

/-- The parameters of a format (R24, R29). With `e` = 0 it is an integer scaled by 2^(−bias), signed when `s` = 1 (R32). -/
structure NumFmt where
  s : Nat
  e : Nat
  m : Nat
  bias : Nat
  spec : Nat
  sat : Bool := false
  deriving DecidableEq, Repr

/-- FP32 (Table 02-1). -/
def fp32 : NumFmt := { s := 1, e := 8, m := 23, bias := 127, spec := 2 }
/-- FP64 (Table 02-1). -/
def fp64 : NumFmt := { s := 1, e := 11, m := 52, bias := 1023, spec := 2 }
/-- FP16 (Table 02-1). -/
def fp16 : NumFmt := { s := 1, e := 5, m := 10, bias := 15, spec := 2 }
/-- BF16 (Table 02-1). -/
def bf16 : NumFmt := { s := 1, e := 8, m := 7, bias := 127, spec := 2 }
/-- FP8 E4M3 (Table 02-1). -/
def e4m3 : NumFmt := { s := 1, e := 4, m := 3, bias := 7, spec := 1 }
/-- FP8 E5M2 (Table 02-1). -/
def e5m2 : NumFmt := { s := 1, e := 5, m := 2, bias := 15, spec := 2 }
/-- A two's complement integer of `w` bits (R27); integer types always saturate (R36). -/
def intFmt (w : Nat) : NumFmt := { s := 1, e := 0, m := w - 1, bias := 0, spec := 0, sat := true }
/-- An unsigned integer of `w` bits (R27). -/
def uintFmt (w : Nat) : NumFmt := { s := 0, e := 0, m := w, bias := 0, spec := 0, sat := true }

/-- The width of a format's pattern. -/
def NumFmt.width (f : NumFmt) : Nat := f.s + f.e + f.m

/-- The format that a format-register value describes (Table 02-3); a scaled integer always saturates (R36). -/
def descFmt (d : W32) : NumFmt :=
  { s := field d 0 1, e := field d 1 3, m := field d 4 3, bias := field d 7 5, spec := field d 12 2,
    sat := d.getLsbD 16 || field d 1 3 == 0 }

/-- BS of a descriptor: block scaling. -/
def descBs (d : W32) : Bool := d.getLsbD 14
/-- ME of a descriptor: micro-exponents. -/
def descMe (d : W32) : Bool := d.getLsbD 15

/-- Whether a format register holds a valid descriptor (R31). -/
def descValid (d : W32) : Bool :=
  let f := descFmt d
  decide (2 ≤ f.width) && decide (f.width ≤ 8) && f.spec != 3
    && (f.e != 0 || f.spec == 0)
    && (f.spec != 1 || (decide (1 ≤ f.e) && decide (2 ≤ f.e + f.m)))
    && (f.spec != 2 || (f.s == 1 && decide (2 ≤ f.e) && decide (1 ≤ f.m)))
    && (!descMe d || descBs d)

/-- A real value, an infinity or NaN: a finite nonzero value is ±num/den × 2^exp. -/
inductive XReal where
  | nan
  | inf (neg : Bool)
  | zero (neg : Bool)
  | fin (neg : Bool) (num den : Nat) (exp : Int)
  deriving DecidableEq, Repr

/-- The magnitude mask of a format: exponent and mantissa bits. -/
def NumFmt.magMask (f : NumFmt) : Nat := 2 ^ (f.e + f.m)

/-- The value of a signed or unsigned integer as a real. -/
def intReal (i : Int) (exp : Int) : XReal :=
  if i = 0 then .zero false else .fin (decide (i < 0)) i.natAbs 1 exp

/-- DecodeFmt (R25, R32). -/
def decodeFmt (bits : Nat) (f : NumFmt) : XReal :=
  if f.e = 0 then
    intReal (if f.s = 1 then sextInt bits f.width else (bits % 2 ^ f.width : Int)) (-(f.bias : Int))
  else
    let s := f.s == 1 && bits.testBit (f.e + f.m)
    let e := natField bits f.m f.e
    let m := natField bits 0 f.m
    let top := 2 ^ f.e - 1
    if f.spec = 2 ∧ e = top then (if m = 0 then .inf s else .nan)
    else if f.spec = 1 ∧ e = top ∧ m = 2 ^ f.m - 1 then .nan
    else if e = 0 then (if m = 0 then .zero s else .fin s m 1 (1 - (f.bias : Int) - (f.m : Int)))
    else .fin s (2 ^ f.m + m) 1 ((e : Int) - (f.bias : Int) - (f.m : Int))

/-- NaNPattern (R36). -/
def nanPattern (f : NumFmt) : Nat :=
  if f.e = 0 then 0
  else if f.spec = 2 then (2 ^ f.e - 1) * 2 ^ f.m + 2 ^ (f.m - 1)
  else if f.spec = 1 then f.magMask - 1
  else 0

/-- The pattern, without sign, of the largest finite magnitude of a floating-point format (R36). -/
def maxPattern (f : NumFmt) : Nat :=
  if f.spec = 2 then (2 ^ f.e - 1) * 2 ^ f.m - 1
  else if f.spec = 1 then f.magMask - 2
  else f.magMask - 1

/-- The largest integer magnitude of an integer or scaled integer on a sign side (R36). -/
def maxInt (f : NumFmt) (neg : Bool) : Nat :=
  if f.s = 1 then (if neg then 2 ^ f.m else 2 ^ f.m - 1) else 2 ^ f.m - 1

/-- A floating-point pattern with its sign bit. -/
def withSign (f : NumFmt) (neg : Bool) (mag : Nat) : Nat := if neg && f.s == 1 then mag + f.magMask else mag

/-- The pattern of an integer or scaled integer of given sign and magnitude. -/
def intPattern (f : NumFmt) (neg : Bool) (k : Nat) : Nat := if neg then (2 ^ f.width - k % 2 ^ f.width) % 2 ^ f.width else k

/-- Overflow (R36, Table 02-6). -/
def overflowFmt (neg : Bool) (f : NumFmt) (mode : Nat) (isInf : Bool) : Nat :=
  if f.e = 0 then intPattern f neg (maxInt f neg)
  else
    let top := withSign f neg (maxPattern f)
    if f.sat then top
    else if !isInf && (mode == 1 || (mode == 2 && neg) || (mode == 3 && !neg)) then top
    else if f.spec = 2 then withSign f neg ((2 ^ f.e - 1) * 2 ^ f.m)
    else if f.spec = 1 then nanPattern f
    else top

/-- floor(log2(num/den)) of a positive ratio. -/
def floorLog2 (num den : Nat) : Int :=
  let d : Int := (Nat.log2 num : Int) - (Nat.log2 den : Int)
  if 0 ≤ d then (if num < den * 2 ^ d.toNat then d - 1 else d)
  else (if num * 2 ^ (-d).toNat < den then d - 1 else d)

/-- The exponent of the quantum q(a) at a magnitude whose floor(log2) is `l` (R36). -/
def quantumExp (f : NumFmt) (l : Int) : Int :=
  if f.e = 0 then -(f.bias : Int)
  else (if l < 1 - (f.bias : Int) then 1 - (f.bias : Int) else l) - (f.m : Int)

/-- How a remainder stands against half a quantum: 0 nothing, 1 below half, 2 half, 3 above. -/
def fracClass (rem den : Nat) : Nat :=
  if rem = 0 then 0 else if 2 * rem < den then 1 else if 2 * rem = den then 2 else 3

/-- Whether rounding steps up to the next quantum (R36). -/
def roundsUp (mode : Nat) (neg : Bool) (k frac : Nat) : Bool :=
  match mode with
  | 0 => frac == 3 || (frac == 2 && k % 2 == 1)
  | 1 => false
  | 2 => frac != 0 && !neg
  | _ => frac != 0 && neg

/-- The last lines of RoundFmt: magnitude `k` quanta of exponent `qe`, with a remainder class, rounded and encoded. -/
def roundQuanta (f : NumFmt) (mode : Nat) (neg : Bool) (qe : Int) (k frac : Nat) : Nat :=
  let k := if roundsUp mode neg k frac then k + 1 else k
  if f.e = 0 then
    if maxInt f neg < k then overflowFmt neg f mode false else intPattern f neg k
  else if k = 0 then withSign f neg 0
  else
    let (k, qe) := if k = 2 ^ (f.m + 1) then (2 ^ f.m, qe + 1) else (k, qe)
    let mag : Nat := if k < 2 ^ f.m then k else ((qe + (f.bias : Int) + (f.m : Int)).toNat) * 2 ^ f.m + (k - 2 ^ f.m)
    if maxPattern f < mag then overflowFmt neg f mode false else withSign f neg mag

/-- RoundFmt (R36); modes as in Table 02-5. -/
def roundFmt (x : XReal) (f : NumFmt) (mode : Nat) : Nat :=
  match x with
  | .nan => nanPattern f
  | .zero neg => if f.e = 0 then 0 else withSign f neg 0
  | .inf neg => if neg && f.s == 0 then 0 else overflowFmt neg f mode true
  | .fin neg num den exp =>
    if neg && f.s == 0 then 0
    else
      let qe := quantumExp f (floorLog2 num den + exp)
      let sh := exp - qe
      let n := if 0 ≤ sh then num * 2 ^ sh.toNat else num
      let d := if 0 ≤ sh then den else den * 2 ^ (-sh).toNat
      roundQuanta f mode neg qe (n / d) (fracClass (n % d) d)

/-- Whether a value is NaN. -/
def XReal.isNan : XReal → Bool
  | .nan => true
  | _ => false

/-- Whether a value is an infinity. -/
def XReal.isInf : XReal → Bool
  | .inf _ => true
  | _ => false

/-- Whether a value is a zero of either sign. -/
def XReal.isZero : XReal → Bool
  | .zero _ => true
  | _ => false

/-- The sign of a value; NaN has none. -/
def XReal.neg : XReal → Bool
  | .nan => false
  | .inf n => n
  | .zero n => n
  | .fin n _ _ _ => n

/-- A value with its sign inverted. -/
def XReal.negate : XReal → XReal
  | .nan => .nan
  | .inf n => .inf (!n)
  | .zero n => .zero (!n)
  | .fin n a b e => .fin (!n) a b e

/-- The absolute value. -/
def XReal.abs : XReal → XReal
  | .nan => .nan
  | .inf _ => .inf false
  | .zero _ => .zero false
  | .fin _ a b e => .fin false a b e

/-- The exact product (R277). -/
def XReal.mul : XReal → XReal → XReal
  | .nan, _ => .nan
  | _, .nan => .nan
  | .inf a, .inf b => .inf (a != b)
  | .inf _, .zero _ => .nan
  | .zero _, .inf _ => .nan
  | .inf a, .fin b _ _ _ => .inf (a != b)
  | .fin a _ _ _, .inf b => .inf (a != b)
  | .zero a, .zero b => .zero (a != b)
  | .zero a, .fin b _ _ _ => .zero (a != b)
  | .fin a _ _ _, .zero b => .zero (a != b)
  | .fin a n d e, .fin b n' d' e' => .fin (a != b) (n * n') (d * d') (e + e')

/-- The exact quotient (R277): a nonzero value over a zero is an infinity of the xor sign. -/
def XReal.div : XReal → XReal → XReal
  | .nan, _ => .nan
  | _, .nan => .nan
  | .inf _, .inf _ => .nan
  | .inf a, .zero b => .inf (a != b)
  | .inf a, .fin b _ _ _ => .inf (a != b)
  | .zero _, .zero _ => .nan
  | .zero a, .inf b => .zero (a != b)
  | .zero a, .fin b _ _ _ => .zero (a != b)
  | .fin a _ _ _, .inf b => .zero (a != b)
  | .fin a _ _ _, .zero b => .inf (a != b)
  | .fin a n d e, .fin b n' d' e' => .fin (a != b) (n * d') (d * n') (e - e')

/-- A multiple of a power of two, exactly. -/
def XReal.scale (x : XReal) (k : Int) : XReal :=
  match x with
  | .fin a n d e => .fin a n d (e + k)
  | y => y

/-- A signed ratio times a power of two. -/
structure Ratio where
  num : Int
  den : Nat
  exp : Int
  deriving DecidableEq, Repr

/-- The ratio of a finite value; zero otherwise. -/
def XReal.ratio : XReal → Ratio
  | .fin neg n d e => { num := if neg then -(n : Int) else (n : Int), den := d, exp := e }
  | _ => { num := 0, den := 1, exp := 0 }

/-- The exact sum of two ratios. -/
def Ratio.add (x y : Ratio) : Ratio :=
  if x.num = 0 then y else if y.num = 0 then x
  else
    let e := if x.exp ≤ y.exp then x.exp else y.exp
    { num := x.num * (y.den : Int) * (2 : Int) ^ (x.exp - e).toNat + y.num * (x.den : Int) * (2 : Int) ^ (y.exp - e).toNat,
      den := x.den * y.den, exp := e }

/-- The exact sum of terms, with the zero sign of R277: `rd` says that the mode is RD. -/
def sumTerms (rd : Bool) (ts : List XReal) : XReal :=
  if ts.any XReal.isNan then .nan
  else
    let infs := ts.filter XReal.isInf
    match infs with
    | t :: rest => if rest.any (fun u => u.neg != t.neg) then .nan else t
    | [] =>
      let r := (ts.map XReal.ratio).foldl Ratio.add { num := 0, den := 1, exp := 0 }
      if r.num = 0 then
        if ts.all (fun t => t.isZero && t.neg) then .zero true
        else if ts.all (fun t => t.isZero && !t.neg) then .zero false
        else .zero rd
      else .fin (decide (r.num < 0)) r.num.natAbs r.den r.exp

/-- The exact sum of two values. -/
def XReal.add (rd : Bool) (x y : XReal) : XReal := sumTerms rd [x, y]

/-- x < y for values that are not NaN, with the two zeros equal. -/
def XReal.lt (x y : XReal) : Bool :=
  match x, y with
  | .nan, _ => false
  | _, .nan => false
  | .inf a, .inf b => a && !b
  | .inf a, _ => a
  | _, .inf b => !b
  | x, y => decide ((Ratio.add x.ratio { y.ratio with num := -y.ratio.num }).num < 0)

/-- x = y for values that are not NaN, with the two zeros equal. -/
def XReal.eqv (x y : XReal) : Bool := !x.isNan && !y.isNan && !XReal.lt x y && !XReal.lt y x

/-- The order of FSel (R118): −0 lies below +0. -/
def selLt (x y : XReal) : Bool := XReal.lt x y || (x.isZero && y.isZero && x.neg && !y.neg)

/-- FSel (R118): the smaller pattern, or the larger when `max` is set. -/
def fsel (max : Bool) (a b : Nat) (f : NumFmt) : Nat :=
  let x := decodeFmt a f
  let y := decodeFmt b f
  if x.isNan && y.isNan then nanPattern f
  else if x.isNan then b
  else if y.isNan then a
  else if max then (if selLt x y then b else a) else (if selLt y x then b else a)

/-- The floor of the square root of x/q² and its remainder class, rounded (R283): x is num/den × 2^exp. -/
def roundSqrt (num den : Nat) (exp : Int) (f : NumFmt) (mode : Nat) : Nat :=
  let l := (floorLog2 num den + exp).fdiv 2
  let qe := quantumExp f l
  let sh := exp - 2 * qe
  let n := if 0 ≤ sh then num * 2 ^ sh.toNat else num
  let d := if 0 ≤ sh then den else den * 2 ^ (-sh).toNat
  let k := Nat.sqrt (n / d)
  let frac := if k * k * d = n then 0
    else if n * 4 < (2 * k + 1) * (2 * k + 1) * d then 1
    else if n * 4 = (2 * k + 1) * (2 * k + 1) * d then 2 else 3
  roundQuanta f mode false qe k frac

/-- A value whose magnitude is irrational and lies just above num/2^prec × 2^scale, by less than 2^13 units, rounded. No rounding boundary
of FP32 lies in so short an interval (log entry 20). (DEDUCED, log entry 20, unsafe.) -/
def roundAbove (neg : Bool) (num prec : Nat) (scale : Int) (f : NumFmt) (mode : Nat) : Nat :=
  roundFmt (.fin neg num (2 ^ prec) scale) f mode

/-- ln 2 × 2^256, rounded down. -/
def ln2Bits : Nat := 0xb17217f7d1cf79abc9e3b39803f2f6af40f343267298b62d8a0d175b8baafa2b
/-- π × 2^768, rounded down. -/
def piBits : Nat := 0x3243f6a8885a308d313198a2e03707344a4093822299f31d0082efa98ec4e6c89452821e638d01377be5466cf34e90c6cc0ac29b7c97c50dd3f84d5b5b54709179216d5d98979fb1bd1310ba698dfb5ac2ffd72dbd01adfb7b8e1afed6a267e96

/-- Terms of a power series with positive terms: t, t·x/(i), … in fixed point with `p` fraction bits. -/
def expSeries (p x : Nat) : Nat → Nat → Nat → Nat → Nat
  | 0, _, _, acc => acc
  | n + 1, i, t, acc => expSeries p x n (i + 1) (t * x / 2 ^ p / i) (acc + t)

/-- 2^(frac/2^fb) for a fraction, with 256 fraction bits, rounded down by less than 256 units. -/
def exp2Frac (frac fb : Nat) : Nat := expSeries 256 (frac * ln2Bits / 2 ^ fb) 70 1 (2 ^ 256) 0

/-- 2^a rounded (R283). (DEDUCED, log entry 20, unsafe.) -/
def roundExp2 (a : XReal) (f : NumFmt) (mode : Nat) : Nat :=
  match a with
  | .nan => nanPattern f
  | .inf true => 0
  | .inf false => roundFmt (.inf false) f mode
  | .zero _ => roundFmt (.fin false 1 1 0) f mode
  | .fin neg n _ e =>
    if 0 ≤ e then
      let k : Int := (n * 2 ^ e.toNat : Nat)
      let k := if 4096 < k then 4096 else k
      roundFmt (.fin false 1 1 (if neg then -k else k)) f mode
    else
      let fb := (-e).toNat
      let i : Int := if neg then -(n : Int) else (n : Int)
      let w := i.fdiv ((2 ^ fb : Nat) : Int)
      let w := if 4096 < w then 4096 else if w < -4096 then -4096 else w
      let fr := (i.fmod ((2 ^ fb : Nat) : Int)).toNat
      if fr = 0 then roundFmt (.fin false 1 1 w) f mode
      else
        roundAbove false (exp2Frac fr fb) 256 w f mode

/-- Odd powers z + z³/3 + z⁵/5 … in fixed point with 256 fraction bits. -/
def atanhSeries (z2 : Nat) : Nat → Nat → Nat → Nat → Nat
  | 0, _, _, acc => acc
  | n + 1, i, t, acc => atanhSeries z2 n (i + 2) (t * z2 / 2 ^ 256) (acc + t / i)

/-- log2 a rounded (R283), for positive finite a = n × 2^e. (DEDUCED, log entry 20, unsafe.) -/
def roundLog2 (n : Nat) (e : Int) (f : NumFmt) (mode : Nat) : Nat :=
  let l := Nat.log2 n
  let w : Int := (l : Int) + e
  if n = 2 ^ l then roundFmt (intReal w 0) f mode
  else
    let z : Nat := (n - 2 ^ l) * 2 ^ 256 / (n + 2 ^ l)
    let s : Nat := 2 * atanhSeries (z * z / 2 ^ 256) 100 1 z 0
    let q : Nat := s * 2 ^ 256 / ln2Bits
    let lo : Int := w * ((2 ^ 256 : Nat) : Int) + (q : Int) - 4096
    let hi : Int := w * ((2 ^ 256 : Nat) : Int) + (q : Int) + 4096
    if lo < 0 then roundAbove true hi.natAbs 256 0 f mode else roundAbove false lo.natAbs 256 0 f mode

/-- Alternating series for sine or cosine in fixed point with 640 fraction bits: sum of the terms added minus those taken away. -/
def trigSeries (x2 : Nat) : Nat → Nat → Nat → Int → Int → Int
  | 0, _, _, _, acc => acc
  | n + 1, i, t, sg, acc => trigSeries x2 n (i + 2) (t * x2 / 2 ^ 640 / (i * (i + 1))) (-sg) (acc + sg * (t : Int))

/-- sin r or cos r of 0 ≤ r < π/2 with 640 fraction bits. -/
def trigPart (cosine : Bool) (r : Nat) : Int :=
  let x2 := r * r / 2 ^ 640
  if cosine then trigSeries x2 90 1 (2 ^ 640) 1 0 else trigSeries x2 90 2 r 1 0

/-- sin or cos of ±n × 2^e rounded (R283). (DEDUCED, log entry 20, unsafe.) -/
def roundTrig (cosine neg : Bool) (n : Nat) (e : Int) (f : NumFmt) (mode : Nat) : Nat :=
  let ex := e + 768
  let a := n * 2 ^ ex.toNat
  let j := 2 * a / piBits
  let r := (2 * a - j * piBits) / 2 ^ 129
  let q := (if cosine then j + 1 else j) % 4
  let v := trigPart (q % 2 == 1) r
  let v := if 2 ≤ q then -v else v
  let v := if neg && !cosine then -v else v
  let m := v.natAbs
  roundAbove (decide (v < 0)) (m - 4096) 640 0 f mode

/-- RoundFmt with SAT set or not by the instruction's modifier (R36). -/
def NumFmt.withSat (f : NumFmt) (sat : Bool) : NumFmt := { f with sat := f.sat || sat }

/-- SubWord (R93). -/
def subWord (w : Nat) (t : Tag) : Nat :=
  match t with
  | .full => w
  | .bf16 => roundFmt (decodeFmt (roundFmt (decodeFmt w fp32) bf16 0) bf16) fp32 0
  | .fp16 => roundFmt (decodeFmt (roundFmt (decodeFmt w fp32) fp16 0) fp16) fp32 0
  | .narrow d => roundFmt (decodeFmt (roundFmt (decodeFmt w fp32) (descFmt d) 0) (descFmt d)) fp32 0

/-- BlockValue (R38): an element's value under shared exponent X and micro-exponent μ. -/
def blockValue (code x mu : Nat) (f : NumFmt) : XReal :=
  if x = 255 then .nan else (decodeFmt code f).scale ((x : Int) - 127 - (mu : Int))

/-- The largest finite magnitude of a format as a value (R36, positive side). -/
def maxReal (f : NumFmt) : XReal := if f.e = 0 then intReal (maxInt f false) (-(f.bias : Int)) else decodeFmt (maxPattern f) f

/-- The larger of two magnitudes. -/
def maxAbs (x y : XReal) : XReal := if XReal.lt x.abs y.abs then y.abs else x.abs

/-- ceil(log2 x) of a positive finite value. -/
def ceilLog2 (x : XReal) : Int :=
  match x with
  | .fin _ n d e =>
    let l := floorLog2 n d
    let exact := if 0 ≤ l then decide (n = d * 2 ^ l.toNat) else decide (n * 2 ^ (-l).toNat = d)
    (if exact then l else l + 1) + e
  | _ => 0

/-- A quantised block (R40): shared exponent, micro-exponents of the eight pairs, codes of the sixteen elements. -/
structure Block where
  x : Nat
  mu : List Nat
  codes : List Nat
  deriving DecidableEq, Repr

/-- BlockScale (R40). -/
def blockScale (xs : List XReal) (f : NumFmt) (me : Bool) (mode : Nat) : Block :=
  if xs.any (fun v => v.isNan || v.isInf) then { x := 255, mu := List.replicate 8 0, codes := List.replicate 16 0 }
  else
    let maxf := maxReal f
    let amax := xs.foldl maxAbs (.zero false)
    let x : Nat := if amax.isZero then 127 else
      let c := ceilLog2 (amax.div maxf) + 127
      (if c < 0 then 0 else if 254 < c then 254 else c).toNat
    let mus := (List.range 8).map fun j =>
      let pmax := maxAbs (xs.getD (2 * j) (.zero false)) (xs.getD (2 * j + 1) (.zero false))
      if me && !XReal.lt (maxf.scale ((x : Int) - 127)) (pmax.scale 1) then 1 else 0
    { x := x, mu := mus,
      codes := (List.range 16).map fun i =>
        roundFmt ((xs.getD i (.zero false)).scale (-((x : Int) - 127 - ((mus.getD (i / 2) 0 : Nat) : Int)))) f mode }

end Sys2Proof.Machine
end

