-- ==== Sys2Proof/Machine/Groups.lean ====
section
/-!
DEFINITION. Groups, slots and the divergence save area (R198 to R205): reading and writing registers, finding a group, splitting
and joining paths, and refilling free slots.
-/
namespace Sys2Proof.Machine
open Sys2Proof

/-- The slot that issues. -/
def Group.cur (g : Group) : Slot := if g.inB then g.b else g.a
/-- The other slot. -/
def Group.other (g : Group) : Slot := if g.inB then g.a else g.b
/-- The group with its issuing slot replaced. -/
def Group.setCur (g : Group) (c : Slot) : Group := if g.inB then { g with b := c } else { g with a := c }
/-- The group with its other slot replaced. -/
def Group.setOther (g : Group) (c : Slot) : Group := if g.inB then { g with a := c } else { g with b := c }

/-- The slot that issues in this step. -/
def State.cur (s : State) : Slot := s.g.cur
/-- The state with the issuing slot replaced. -/
def State.setCur (s : State) (c : Slot) : State := { s with g := s.g.setCur c }
/-- The execution mask of the issuing path. -/
def State.exm (s : State) : W32 := s.cur.exm

/-- The first word of the path's present hint run (R234, R369). -/
def Slot.runPc (c : Slot) : W64 := c.pc - BitVec.ofNat 64 (4 * c.run)

/-- A path moved to an address; its run starts there. -/
def Slot.goto (c : Slot) (pc : W64) : Slot := { c with pc := pc, run := 0 }

/-- The path stopped at the boundary before its run: the hints collected are dropped (R234). -/
def Slot.rewind (c : Slot) : Slot := { c with pc := c.runPc, run := 0, hints := {} }

/-- The end of the counts in force (R240): what is still pending is tracked by the scoreboard. -/
def Slot.endCover (c : Slot) : Slot := { c with cover := [], prods := [], readyAt := 0 }

/-- All groups and trap contexts. (DESIGN CHOICE, log entry 2, safe.) -/
def State.allGroups (s : State) : List Group := s.g :: s.groups

/-- Every group replaced by a function of it. -/
def State.mapGroups (f : Group → Group) (s : State) : State := { s with g := f s.g, groups := s.groups.map f }

/-- Whether a group stands in a slot of a core. -/
def Group.at_ (core slot : Nat) (g : Group) : Bool := g.core == core && g.slot == slot

/-- The group in a slot of a core. -/
def State.groupAt (s : State) (core slot : Nat) : Option Group := s.allGroups.find? (Group.at_ core slot)

/-- The group in a slot of a core replaced by a function of it. -/
def State.updGroup (s : State) (core slot : Nat) (f : Group → Group) : State :=
  s.mapGroups fun g => if g.at_ core slot then f g else g

/-- The state with the group in a slot of a core as the one that issues. (DESIGN CHOICE, log entry 2, safe.) -/
def State.focus (s : State) (core slot : Nat) : State :=
  if s.g.at_ core slot then s
  else match s.groups.find? (Group.at_ core slot) with
    | none => s
    | some g => { s with g := g, groups := s.g :: removeFirst (Group.at_ core slot) s.groups }

/-- The name by which queues and tables know a group wherever it stands: a supervisor group or trap context, which never moves, by its core and
slot, a launched group by its workgroup and its index there. The names between belong to the engines of the cores, and to requests of no group. -/
def Group.ident (g : Group) : Nat := if g.wg = 0 then g.core * 65 + g.slot else 128 * 65 + 256 + 64 * g.wg + g.gidx
def engineIdent (core : Nat) : Nat := 128 * 65 + core
def noIdent : Nat := 128 * 65 + 128
def hostIdent : Nat := 128 * 65 + 129

/-- Every group of a name replaced by a function of it. -/
def State.updIdent (s : State) (i : Nat) (f : Group → Group) : State := s.mapGroups fun g => if g.ident == i then f g else g

/-- A core's record. -/
def State.core (s : State) (c : Nat) : Core := s.cores.getD c {}
/-- A core's record replaced by a function of it. -/
def State.updCore (s : State) (c : Nat) (f : Core → Core) : State := { s with cores := modifyAt f c s.cores }
/-- A cluster's record. -/
def State.cluster (s : State) (c : Nat) : Cluster := s.clusters.getD c {}
/-- A cluster's record replaced by a function of it. -/
def State.updCluster (s : State) (c : Nat) (f : Cluster → Cluster) : State := { s with clusters := modifyAt f c s.clusters }
/-- A die's record. -/
def State.die (s : State) (d : Nat) : Die := s.dies.getD d {}
/-- A die's record replaced by a function of it. -/
def State.updDie (s : State) (d : Nat) (f : Die → Die) : State := { s with dies := modifyAt f d s.dies }

/-- The cluster of a core: four cores each (R10). -/
def clusterOf (core : Nat) : Nat := core / 4
/-- The die of a core: 32 cores each (R10). -/
def dieOf (core : Nat) : Nat := core / 32

/-- A uniform register; s0 reads as zero (R198). -/
def Group.readS (g : Group) (n : Nat) : W64 := if n = 0 then 0 else g.s.getD n 0

/-- A uniform register written; s0 discards it (R198). -/
def Group.writeS (g : Group) (n : Nat) (x : W64) : Group := if n = 0 then g else { g with s := g.s.set n x }

/-- The 32 lanes of a vector register. -/
def Group.readV (g : Group) (n : Nat) : VReg := g.v.getD n []

/-- One lane of a vector register. -/
def Group.lane (g : Group) (n l : Nat) : W32 := (g.readV n).getD l 0

/-- A predicate register (R198). -/
def Group.readP (g : Group) (n : Nat) : W32 := g.p.getD n 0

/-- WriteVec over all lanes (R239): an active lane gets its value, an inactive one keeps its own, or is zeroed under `.z`. -/
def writeLanes (mask : W32) (zero : Bool) (old : VReg) (val : Nat → W32) : VReg :=
  allLanes.map fun l => if laneOn mask l then val l else if zero then 0 else old.getD l 0

/-- A vector register written by WriteVec. A path whose mask is empty writes nothing, `.z` or not (R201). -/
def Group.writeV (g : Group) (n : Nat) (mask : W32) (zero : Bool) (val : Nat → W32) : Group :=
  if mask = 0 then g else { g with v := g.v.set n (writeLanes mask zero (g.readV n) val) }

/-- A predicate register with the bits of active lanes replaced; the others are kept, or cleared under `.z` (R281, R312). -/
def Group.writeP (g : Group) (n : Nat) (mask : W32) (zero : Bool) (val : Nat → Bool) : Group :=
  if mask = 0 then g
  else { g with p := g.p.set n (((if zero then 0 else g.readP n) &&& ~~~mask) ||| (maskBy val &&& mask)) }

/-- Number of registers of a class that the group holds (R198). -/
def Group.allocated (g : Group) (cls : Nat) : Nat :=
  match cls with
  | 0 => g.v.length
  | 1 => g.s.length
  | 2 => g.p.length
  | 3 => g.t.length
  | 4 => g.ac.length
  | 5 => g.bm.length
  | _ => 0

/-- Whether a register may be named (R198); s0 always may. -/
def Group.names (g : Group) (r : RegName) : Bool := decide (r.num < g.allocated r.cls) || (r.cls == 1 && r.num == 0)

/-- Lanes that some slot or save-area entry holds (R254). -/
def Group.heldLanes (g : Group) : W32 :=
  (if g.a.live then g.a.exm else 0) ||| (if g.b.live then g.b.exm else 0) ||| g.save.foldl (fun m e => m ||| e.mask) 0

/-- Live lanes that no path holds (R254). -/
def Group.detached (g : Group) : W32 := g.lanes &&& ~~~g.heldLanes

/-- Lanes that the issuing path may set in its mask: live and not held by another path (R254). -/
def Group.claimable (g : Group) : W32 :=
  g.lanes &&& ~~~((if g.other.live then g.other.exm else 0) ||| g.save.foldl (fun m e => m ||| e.mask) 0)

/-- Lanes of a group with ACT set (R169). -/
def Group.txLanes (g : Group) : W32 := maskBy fun l => (g.txst.getD l 0).getLsbD 0

/-- Save-area entries still free (R202). -/
def Group.freeEntries (g : Group) : Nat := 64 - g.save.length

/-- An entry written to the save area, with the next SEQ (R202). -/
def Group.push (g : Group) (e : SaveEntry) : Group :=
  { g with save := g.save ++ [{ e with seq := g.seqNext }], seqNext := g.seqNext + 1 }

/-- A path as a ready entry. -/
def readyEntry (pc : W64) (mask : W32) (depth : Nat) (frame : BitVec 16) : SaveEntry :=
  { state := .ready, pc := pc, mask := mask, depth := depth, frame := frame, seq := 0 }

/-- The oldest ready entry (R205). -/
def oldestReady (es : List SaveEntry) : Option SaveEntry :=
  es.foldl (fun acc e => if e.state != .ready then acc else
    match acc with
    | none => some e
    | some x => if e.seq < x.seq then some e else acc) none

/-- The slot into which an entry is loaded; no count stays in force (R240). -/
def SaveEntry.toSlot (e : SaveEntry) (clock : Nat) : Slot :=
  { live := true, pc := e.pc, exm := e.mask, depth := e.depth, tag := e.frame, entered := clock, lastIssue := clock }

/-- A free slot filled with the oldest ready entry (R205): first slot A, then slot B. -/
def Group.refill (clock : Nat) (g : Group) : Group :=
  let g := if g.a.live then g else match oldestReady g.save with
    | none => g
    | some e => { g with a := e.toSlot clock, save := g.save.filter fun x => x.seq != e.seq }
  if g.b.live then g else match oldestReady g.save with
    | none => g
    | some e => { g with b := e.toSlot clock, save := g.save.filter fun x => x.seq != e.seq }

/-- Whether a path of depth `d` and tag `f` can still arrive: one in a slot, or a ready entry (R204). -/
def Group.mayArrive (g : Group) (d : Nat) (f : BitVec 16) : Bool :=
  (g.a.live && g.a.depth == d && g.a.tag == f) || (g.b.live && g.b.depth == d && g.b.tag == f)
    || g.save.any fun e => e.state == .ready && e.depth == d && e.frame == f

/-- The entry waiting at a `join` with the lowest PC, of one depth and tag. -/
def lowestJoin (es : List SaveEntry) (d : Nat) (f : BitVec 16) : Option SaveEntry :=
  es.foldl (fun acc e => if e.state == .waitJoin && e.depth == d && e.frame == f then
    match acc with
    | none => some e
    | some x => if e.pc.toNat < x.pc.toNat then some e else acc else acc) none

/-- Releases of waiting joins (R204 step 2), one for each depth and tag that no path can reach any more. -/
def Group.releaseJoins (g : Group) : Group :=
  (dedup ((g.save.filter fun e => e.state == .waitJoin).map fun e => (e.depth, e.frame))).foldl (fun g k =>
    if g.mayArrive k.1 k.2 then g
    else match lowestJoin g.save k.1 k.2 with
      | none => g
      | some e => { g with save := g.save.map fun x => if x.seq == e.seq then { x with state := .ready, pc := x.pc + 4 } else x }) g

/-- Joins released and free slots filled; a group without any path loses its detached lanes and drains (R254, R208). -/
def Group.settle (clock : Nat) (g : Group) : Group :=
  let g := (g.releaseJoins).refill clock
  if g.slot != 64 && g.status == .running && !g.a.live && !g.b.live && g.save.isEmpty then
    { g with lanes := 0, status := .draining }
  else g

/-- A path about to be placed by a split. -/
structure Path where
  pc : W64
  mask : W32
  depth : Nat
  tag : BitVec 16
  deriving DecidableEq, Repr

/-- The order of R203: most lanes first, then the lower address. -/
def Path.before (x y : Path) : Bool :=
  decide (popMask y.mask < popMask x.mask) || (popMask x.mask == popMask y.mask && decide (x.pc.toNat < y.pc.toNat))

/-- A path put at its place in that order. -/
def insertPath (p : Path) : List Path → List Path
  | [] => [p]
  | q :: qs => if p.before q then p :: q :: qs else q :: insertPath p qs

/-- Paths in the order of R203. -/
def orderPaths (ps : List Path) : List Path := ps.foldl (fun acc p => insertPath p acc) []

/-- A path in a slot; no count stays in force after a split (R240). -/
def Path.slot (p : Path) (clock : Nat) : Slot :=
  { live := true, pc := p.pc, exm := p.mask, depth := p.depth, tag := p.tag, entered := clock, lastIssue := clock }

/-- The placement of R203: the issuing slot keeps the first path, the other slot takes the next if it is empty, the rest become
ready entries; none where the save area has too few free entries. -/
def Group.placePaths (g : Group) (clock : Nat) (ps : List Path) : Option Group :=
  match orderPaths ps with
  | [] => some g
  | p :: rest =>
    let g1 := g.setCur { p.slot clock with entered := g.cur.entered }
    match rest with
    | [] => some g1
    | q :: rest' =>
      if g.other.live then
        if (q :: rest').length ≤ g.freeEntries then
          some ((q :: rest').foldl (fun g r => g.push (readyEntry r.pc r.mask r.depth r.tag)) g1)
        else none
      else if rest'.length ≤ g.freeEntries then
        some (rest'.foldl (fun g r => g.push (readyEntry r.pc r.mask r.depth r.tag)) (g1.setOther (q.slot clock)))
      else none

/-- The source lane of a permutation descriptor for a receiving lane (Table 10-7). -/
def permLane (d l : Nat) : Nat :=
  let k := d % 32
  match d / 32 with
  | 0 => (l + k) % 32
  | 1 => k
  | 2 => l ^^^ k
  | 3 => l ^^^ (2 ^ k - 1)
  | 4 => 8 * (l / 8) + (l + k) % 8
  | 5 => 31 - l
  | 6 => 8 * (l / 8) + k
  | _ => l

/-- Whether a permutation descriptor is reserved (R207). -/
def permReserved (d : Nat) : Bool :=
  let k := d % 32
  match d / 32 with
  | 0 => false
  | 1 => false
  | 2 => false
  | 3 => decide (5 < k)
  | 4 => decide (7 < k)
  | 5 => k != 0
  | 6 => decide (7 < k)
  | _ => true

/-- The descriptor of `pcfg` that a selector names (Table 10-6). -/
def Group.permDesc (g : Group) (sel : Nat) : Nat := field g.pcfg (8 * (sel - 1)) 8

/-- The early value of a register that a trusted consumer reads before its producer's latency has passed (R242). (DEDUCED, log entry 18, safe.) -/
def Group.earlyOf (g : Group) (r : RegName) : Option RegVal := (g.early.find? fun x => x.1 == r).map fun x => x.2

/-- A vector register as an instruction reads it. -/
def Group.srcV (g : Group) (n : Nat) : VReg :=
  match g.earlyOf { cls := 0, num := n } with
  | some (.lanes x) => x
  | _ => g.readV n

/-- A uniform register as an instruction reads it. -/
def Group.srcS (g : Group) (n : Nat) : W64 :=
  match g.earlyOf { cls := 1, num := n } with
  | some (.word x) => if n = 0 then 0 else x
  | _ => g.readS n

/-- A predicate register as an instruction reads it. -/
def Group.srcP (g : Group) (n : Nat) : W32 :=
  match g.earlyOf { cls := 2, num := n } with
  | some (.word x) => BitVec.ofNat 32 x.toNat
  | _ => g.readP n

/-- ReadSrc (R6): a vector source as the crossbar delivers it to a lane. -/
def Group.readSrc (g : Group) (x : VSrc) (l : Nat) : W32 :=
  (g.srcV x.reg).getD (if x.sel = 0 then l else permLane (g.permDesc x.sel) l) 0

/-- One lane of a vector register as an instruction reads it, without a selector. -/
def Group.srcLane (g : Group) (n l : Nat) : W32 := (g.srcV n).getD l 0

end Sys2Proof.Machine
end

