-- ==== Sys2Proof/Machine/Coherence.lean ====
section
/-!
DEFINITION. Physical memory, home slices, line versions, the directory and the L1 copies (R44, R66, R79 to R105). `State.mem` holds
what every byte is coherently; the directory and L1 records say who holds a copy and at which format, and which copies
still return an earlier value because their invalidation or update is on the way.
-/
namespace Sys2Proof.Machine
open Sys2Proof

/-! ### Bytes of the on-chip memories (R71, R86) -/

/-- Whether an access to a run of bytes reads an 8-byte word of an on-chip memory with an uncorrectable error (R86). (DEDUCED, log entry 62, safe.) -/
def State.spoiled (s : State) (st : BadStore) (off n : Nat) : Bool :=
  s.bad.any fun b => decide (b.store = st) && decide (off / 8 ≤ b.off / 8) && decide (b.off / 8 ≤ (off + n - 1) / 8)

/-- Bytes written are no longer spoiled. (DEDUCED, log entry 62, safe.) -/
def State.repair (s : State) (st : BadStore) (off n : Nat) : State :=
  { s with bad := s.bad.filter fun b => !(decide (b.store = st) && decide (off ≤ b.off) && decide (b.off < off + n)) }

/-- The 8 bytes of a word of an on-chip memory spoiled (R86). -/
def State.spoil (s : State) (st : BadStore) (off : Nat) : State :=
  { s with bad := s.bad ++ ((List.range 8).map fun k => ({ store := st, off := off / 8 * 8 + k } : BadByte)).filter fun b => !s.bad.elem b }

/-- The byte store of a workgroup changed. -/
def State.updWg (s : State) (key : Nat) (f : Workgroup → Workgroup) : State := { s with wgs := modifyFirst (fun w => w.key == key) f s.wgs }

/-- Bytes put into a workgroup's scratchpad allocation. -/
def State.wgPut (s : State) (wg off : Nat) (bs : List Byte) : State :=
  (s.updWg wg fun w => { w with cells := w.cells.writeBytes off bs }).repair (.wg wg) off bs.length

/-- Bytes put into the memory of a cluster instance. -/
def State.instPut (s : State) (inst off : Nat) (bs : List Byte) : State :=
  ({ s with insts := modifyFirst (fun x => x.key == inst) (fun x => { x with cells := x.cells.writeBytes off bs }) s.insts }).repair (.inst inst) off bs.length

/-- A latch that a write of `n` bytes at `off` may reach (R324). (DEDUCED, log entry 79, safe.) -/
def Latch.meet (store : BadStore) (off n : Nat) (l : Latch) : Latch :=
  if l.store != store then l
  else if l.runs.any fun r => decide (r.1 < off + n) && decide (off < r.1 + r.2) then { l with spent := true }
  else { l with near := if l.near.elem (off, n) then l.near else l.near ++ [(off, n)] }

/-- Every weight latch told of a write that ends the reuse of its block (R324). -/
def State.meetLatches (s : State) (store : BadStore) (off n : Nat) : State :=
  { s with clusters := s.clusters.map fun c => { c with subs := c.subs.map fun x =>
      { x with front := x.front.map (Latch.meet store off n), back := x.back.map (Latch.meet store off n) } } }

/-- Bytes written to a workgroup's scratchpad allocation by a store, an atomic, a barrier or an engine. -/
def State.wgWrite (s : State) (wg off : Nat) (bs : List Byte) : State := (s.wgPut wg off bs).meetLatches (.wg wg) off bs.length

/-- Bytes written to the memory of a cluster instance by a store, an atomic or an engine. -/
def State.instWrite (s : State) (inst off : Nat) (bs : List Byte) : State := (s.instPut inst off bs).meetLatches (.inst inst) off bs.length

/-- Bytes written at a physical address of a Cave. -/
def State.caveWrite (s : State) (pa : Nat) (bs : List Byte) : State :=
  ({ s with mem := s.mem.writeBytes pa bs }).repair .cave pa bs.length

/-- What lies at a local physical address (Table 03-1). -/
inductive Place where
  | hbm
  | window (die : Nat)
  | cave (die : Nat)
  | control
  | host
  | reserved
  deriving DecidableEq, Repr

/-- The module ID of a domain physical address (R44). (DESIGN CHOICE, log entry 82, safe.) -/
def moduleOf (pa : Nat) : Nat := pa / 2 ^ 43
/-- The local physical address (R44). -/
def localOf (pa : Nat) : Nat := pa % 2 ^ 43

/-- The place of a local address (Tables 03-1 and 04-5). -/
def placeOf (l : Nat) : Place :=
  if l < 0x14000000000 then .hbm
  else if l < 0x68000000000 then .reserved
  else if l < 0x68008000000 then
    (if l % 0x2000000 < 0x100000 then .window ((l - 0x68000000000) / 0x2000000) else .cave ((l - 0x68000000000) / 0x2000000))
  else if l < 0x6C000000000 then .reserved
  else if l < 0x6C040000000 then .control
  else if l < 0x70000000000 then .reserved
  else .host

/-- The physical address of a Cave offset of a die of this module (Table 03-1). -/
def State.cavePa (s : State) (die off : Nat) : Nat := s.module * 2 ^ 43 + 0x68000000000 + die * 0x2000000 + off

/-- The home die of a physical address (R81). -/
def homeDie (pa : Nat) : Nat := natField pa 11 2 ^^^ natField pa 19 2 ^^^ natField pa 27 2 ^^^ natField pa 35 2
/-- The home slice of a physical address on its die (R81). -/
def homeSlice (pa : Nat) : Nat := natField pa 13 5 ^^^ natField pa 21 5 ^^^ natField pa 29 5 ^^^ natField pa 37 5
/-- The global number of a wheel's owning cluster (R82). -/
def owningCluster (pa : Nat) : Nat := homeDie pa * 8 + homeSlice pa % 8

/-- The set of the L1 data cache that holds a line (R66). -/
def l1Set (pa : Nat) : Nat := natField pa 6 11

/-- The 64-byte line of an address. -/
def lineOf (pa : Nat) : Nat := pa / 64 * 64
/-- The 2 KiB wheel of an address (R109). -/
def wheelOf (pa : Nat) : Nat := pa / 2048 * 2048

/-- The lines that a run of bytes touches. -/
def linesOf (pa size : Nat) : List Nat :=
  (List.range ((pa + size - 1) / 64 - pa / 64 + 1)).map fun k => lineOf pa + 64 * k

/-- A byte mask over a line, of the bytes from `off` on, `n` of them. -/
def byteMask (off n : Nat) : W64 := BitVec.ofNat 64 ((2 ^ n - 1) * 2 ^ off)

/-- The directory entry of a line; none in state I. -/
def State.dirOf (s : State) (line : Nat) : Option DirEntry := s.dir.find? fun d => d.line == line

/-- The directory with a line's entry replaced. -/
def setDir (e : DirEntry) (ds : List DirEntry) : List DirEntry :=
  if ds.any (fun d => d.line == e.line) then ds.map (fun d => if d.line == e.line then e else d) else ds ++ [e]

/-- The L1 copy that a core holds of a line. -/
def State.l1Of (s : State) (core line : Nat) : Option L1Line := s.l1.find? fun c => c.core == core && c.line == line

/-- The L1 records with one copy replaced. -/
def setL1 (c : L1Line) (cs : List L1Line) : List L1Line :=
  if cs.any (fun d => d.core == c.core && d.line == c.line) then
    cs.map (fun d => if d.core == c.core && d.line == c.line then c else d)
  else cs ++ [c]

/-- The version that the L2 holds for a line, if the line is there (R80). -/
def State.versionOf (s : State) (line : Nat) : Option W32 := (s.l2.find? fun l => l.line == line).map fun l => l.version

/-- Every lane that holds a read entry by version homed at a slice is doomed (R80, fourth point): its entries can no longer match. -/
def doomSlice (die slice : Nat) (g : Group) : Group :=
  { g with tx := g.tx.map fun t =>
      { t with reads := t.reads.map fun e =>
          if e.kind == 1 && homeDie e.pa == die && homeSlice e.pa == slice then { e with data := BitVec.allOnes 64 } else e } }

/-- Bytes of a run with those of later writes laid over them. -/
def overWrites (ws : List (Nat × List Byte)) (pa : Nat) (bs : List Byte) : List Byte :=
  ws.foldl (fun bs w => bs.mapIdx fun k b => if w.1 ≤ pa + k ∧ pa + k < w.1 + w.2.length then w.2.getD (pa + k - w.1) b else b) bs

/-- The clock of the time stamp at which a request sent now times out (FABTMO in microseconds, R178, R192). -/
def State.fabricDeadline (s : State) : Nat := s.tstamp.toNat + s.ctl.fabtmo.toNat * 1000

/-- The dirty bytes of a host line, as runs of one byte each. -/
def HostLine.dirtyBytes (h : HostLine) : List (Nat × List Byte) :=
  (List.range 64).filterMap fun k => if h.dirty.getLsbD k then some (h.line + k, [h.bytes.getD k 0]) else none

/-- The dirty bytes of the device's copy of a host line written back to the host, as a posted write for a group or for none (R182, R192): at once,
or sent when steps are deferred. -/
def State.hostBack (s : State) (ident launch core : Nat) (va : W64) (h : HostLine) : State :=
  if h.dirty = 0 then s
  else if s.defer then
    { s with nextId := s.nextId + 1
             fabric := s.fabric ++ [{ id := s.nextId, ident := ident, core := core, inB := false, pc := 0, host := true, posted := true, pa := h.line,
                                      writes := h.dirtyBytes, vaddr := va, mask := 0, deadline := s.fabricDeadline, status := .pending, launch := launch }] }
  else { s with mem := h.dirtyBytes.foldl (fun m w => m.writeBytes w.1 w.2) s.mem }

/-- What the host's memory holds in a line once the posted writes on their way to it have arrived, which every later request of the module to
the host follows (R177). -/
def State.hostMem (s : State) (line : Nat) : List Byte :=
  overWrites ((s.fabric.filter fun r => r.posted && r.host).flatMap fun r => r.writes) line (s.mem.readBytes line 64)

/-- A line replaced from its slice (R79): the dirty bytes of a host line go to the host (R182), and a RESIDENT-S wheel falls back to IDLE when
the first of its lines is replaced (R112). (DESIGN CHOICE, log entry 13, unsafe.) (DESIGN CHOICE, log entry 57, unsafe.) -/
def State.evictL2 (s : State) (line : Nat) : State :=
  let s := { s with
    l2 := s.l2.filter fun l => l.line != line
    wheels := s.wheels.filter fun w => !(w.wheel == wheelOf line && decide (w.state = WheelState.residentS)) }
  match s.hostCopies.find? (fun h => h.line == line) with
  | none => s
  | some h =>
    let s := s.hostBack noIdent 0 (32 * homeDie line) 0 h
    if (s.dirOf line).isSome then { s with hostCopies := s.hostCopies.map fun x => if x.line == line then { x with dirty := 0 } else x }
    else { s with hostCopies := s.hostCopies.filter fun x => x.line != line }

/-- The set of a slice that holds a line (R79): the 32 lines of a wheel, which a fill installs together (R190), lie in sets of their own.
(DESIGN CHOICE, log entry 13, unsafe.) -/
def l2SetOf (line : Nat) : Nat := (Config.l2Set (wheelOf line) * 32 + line / 64 % 32) % 4096

/-- Ways of a cache set still in service, of `n` (R368); the manual says nothing of a set that has lost all of them, and the last one stays. -/
def State.waysLeft (s : State) (n : Nat) (c : CacheSet) : Nat :=
  if s.offWays.isEmpty then n else max 1 (n - (s.offWays.filter fun x => x == c).length)

/-- The cache set of a slice that a line goes to (R67, R79). -/
def l2CacheSet (line : Nat) (ro : Bool) : CacheSet := .l2 (homeDie line) (homeSlice line) (l2SetOf line) ro

/-- Room in the slice for a line (R67, R79): 16 ways of 4,096 sets, of which ways 12 to 15 take lines under `ro` and the others the rest; the least
recently used line goes. (DESIGN CHOICE, log entry 13, unsafe.) -/
def State.l2Room (s : State) (line : Nat) (ro : Bool) : State :=
  let ways := s.waysLeft (if ro then 4 else 12) (l2CacheSet line ro)
  if s.l2.length < ways then s
  else
    let same := s.l2.filter fun l => l.ro == ro && homeDie l.line == homeDie line && homeSlice l.line == homeSlice line
      && l2SetOf l.line == l2SetOf line
    if same.length < ways then s
    else match same.head? with
      | some v => s.evictL2 v.line
      | none => s

/-- The slice's clock advances and the line takes the new value as its version (R80); a line that is not there is brought in under a cache hint:
most recently used, or least recently used under `nt`, where it also stays when the store that brought it is merged (R67). -/
def State.bumpAs (s : State) (line cache : Nat) : State :=
  let d := homeDie line
  let k := homeSlice line
  let v := (s.die d).clocks.getD k 0 + 1
  let s := s.updDie d fun x => { x with clocks := x.clocks.set k v }
  let s := if v = 0 then s.mapGroups (doomSlice d k) else s
  match s.l2.find? fun l => l.line == line with
  | some l =>
    if cache = 2 then { s with l2 := s.l2.map fun x => if x.line == line then { x with version := v } else x }
    else { s with l2 := s.l2.filter (fun l => l.line != line) ++ [{ l with version := v }] }
  | none =>
    let s := s.l2Room line (cache == 1)
    let l : L2Line := { line := line, version := v, ro := cache == 1 }
    { s with l2 := if cache = 2 then l :: s.l2 else s.l2 ++ [l] }

/-- The same without a hint. -/
def State.bump (s : State) (line : Nat) : State := s.bumpAs line 0

/-- The line is brought into its home slice if it is not there, or becomes its set's most recently used (R79, R80). -/
def State.fillAs (s : State) (line cache : Nat) : State :=
  match s.l2.find? fun l => l.line == line with
  | some l => { s with l2 := s.l2.filter (fun l => l.line != line) ++ [l] }
  | none => s.bumpAs line cache

/-- The same without a hint. -/
def State.fill (s : State) (line : Nat) : State := s.fillAs line 0

/-- The bytes of a whole line as a copy of a format holds them (R93). -/
def subLine (t : Tag) (bs : List Byte) : List Byte :=
  match t with
  | .full => bs
  | t => (List.range 16).flatMap fun k => toBytes 4 (subWord (fromBytes ((bs.drop (4 * k)).take 4)) t)

/-- The bytes of a host line as the device has them: its own where they are valid, and beneath them what the host's memory holds (R66, R182). -/
def State.hostBytes (s : State) (h : HostLine) : List Byte :=
  let beneath := s.hostMem h.line
  h.bytes.mapIdx fun k b => if h.valid.getLsbD k then b else beneath.getD k 0

/-- The 64 bytes of a line as this module's slice has them: the device's copy of a host line (R182), or memory, with this module's own posted
writes merged (R188), but for strong ones of device scope or wider, which no other core reads before they are performed (R142). -/
def State.lineBytes (s : State) (line : Nat) : List Byte :=
  match s.hostCopies.find? (fun h => h.line == line) with
  | some h => if h.valid = BitVec.allOnes 64 then h.bytes else s.hostBytes h
  | none =>
    let bs := s.mem.readBytes line 64
    if moduleOf line = s.module then bs
    else overWrites ((s.fabric.filter fun r => r.posted && !r.strong).flatMap fun r => r.writes) line bs

/-- Bytes within one line written where the module keeps them: in the device's copy of a host line, which they make dirty, or in memory. -/
def State.lineWrite (s : State) (pa : Nat) (bs : List Byte) : State :=
  let line := lineOf pa
  if s.hostCopies.any fun h => h.line == line then
    { s with hostCopies := s.hostCopies.map fun h =>
        if h.line == line then { h with bytes := overWrites [(pa, bs)] line h.bytes, dirty := h.dirty ||| byteMask (pa - line) bs.length,
                                        valid := h.valid ||| byteMask (pa - line) bs.length } else h }
  else { s with mem := s.mem.writeBytes pa bs }

/-! ### Poison (R86) -/

/-- Whether a line is poisoned. -/
def State.poisoned (s : State) (line : Nat) : Bool := s.poison.any fun x => x.line == line

/-- Lines poisoned anew. -/
def State.poisonLines (s : State) (ls : List Nat) : State :=
  { s with poison := s.poison.filter (fun x => !ls.elem x.line) ++ ls.map fun l => ({ line := l } : Poisoned) }

/-- Bytes within one line written: a poisoned line is read again once all of its bytes have been. (DEDUCED, log entry 62, safe.) -/
def State.unpoison (s : State) (pa n : Nat) : State :=
  let cut := fun (x : Poisoned) => if x.line == lineOf pa then { x with left := x.left &&& ~~~byteMask (pa % 64) n } else x
  { s with poison := (s.poison.map cut).filter fun x => x.left != 0 }

/-! ### Directory messages (R9, R90, R100, R102) -/

/-- A message to every copy of a line in a set of clusters, of one format or of any (R90, R96), where a write of `writer` leaves the line as
`new`; the writer's own copy holds what it wrote. Delivered at once, an invalidation drops the copy and an update leaves it with the whole new
line; deferred, the copy keeps returning its old bytes until it arrives. (DEDUCED, log entry 14, safe.) (DESIGN CHOICE, log entry 68, unsafe.) -/
def State.send (s : State) (writer : Option Nat) (line : Nat) (mask : W32) (tag : Tag) (all upd : Bool) (old new : List Byte) : State :=
  let hit := fun (c : L1Line) => c.line == line && laneOn mask (clusterOf c.core) && (all || c.tag == tag) && decide (writer ≠ some c.core)
  if s.defer then
    { s with
      msgs := s.msgs ++ (s.l1.filter hit).map fun c =>
        { core := c.core, line := line, kind := if upd then .update else .invalidate, tag := c.tag, all := all,
          data := if upd then new else [] }
      l1 := s.l1.map fun c => if hit c && c.stale.isNone then { c with stale := some (subLine c.tag old) } else c }
  else if upd then { s with l1 := s.l1.map fun c => if hit c then { c with valid := BitVec.allOnes 64, version := none } else c }
  else { s with l1 := s.l1.filter fun c => !hit c }

/-- Whether a save-area entry is parked in `mwait` on a line (R206). -/
def SaveEntry.monitors (e : SaveEntry) (line : Nat) : Bool :=
  decide (e.state = .parked .mwait) && decide (e.maddr = BitVec.ofNat 64 line)

/-- An entry made ready. -/
def SaveEntry.readied (e : SaveEntry) : SaveEntry := { e with state := .ready }

/-- Parked entries that monitor a line become ready (R206). -/
def wakeMonitors (line clock : Nat) (g : Group) : Group :=
  if g.save.any (fun e => e.monitors line) then
    Group.refill clock { g with save := g.save.map fun e => if e.monitors line then e.readied else e }
  else g

/-- Every write performed at device scope wakes the monitors of the lines it touches (R206). -/
def State.wake (s : State) (pa size : Nat) : State :=
  (linesOf pa size).foldl (fun s line => s.mapGroups (wakeMonitors line s.clock)) s

/-- Delivery of one directory message to a core (R90, R99, R102): an invalidation drops the copy, an update renews it with the line that it
carries; the core's monitors of the line see the write that the message tells of (R206). (DEDUCED, log entry 14, safe.) -/
def State.deliverMsg (s : State) (m : DirMsg) : State :=
  let s := match s.l1Of m.core m.line with
    | none => s
    | some c =>
      if m.all || c.tag == m.tag then
        match m.kind with
        | .update =>
          let more := s.msgs.any fun x => x.core == m.core && x.line == m.line
          { s with l1 := setL1 { c with valid := BitVec.allOnes 64, version := none, stale := if more then some (subLine c.tag m.data) else none } s.l1 }
        | .invalidate => { s with l1 := s.l1.filter fun x => !(x.core == m.core && x.line == m.line) }
      else s
  s.wake m.line 64

/-- Whether two messages travel from one die to one other, where they arrive in the order they were sent (R9). -/
def DirMsg.follows (m x : DirMsg) : Bool := homeDie m.line == homeDie x.line && dieOf m.core == dieOf x.core

/-- The first message to a core about a line taken from those on the way, and delivered (R102). -/
def State.deliverHead (s : State) (core line : Nat) : State :=
  match s.msgs.find? (fun m => m.core == core && m.line == line) with
  | none => s
  | some m => ({ s with msgs := removeFirst (fun x => x.core == core && x.line == line) s.msgs }).deliverMsg m

/-- The same, behind every message that was sent before it from the same die to the same die (R9). (DEDUCED, log entry 14, safe.) -/
def State.deliverNext (s : State) (core line : Nat) : State :=
  match s.msgs.find? (fun m => m.core == core && m.line == line) with
  | none => s
  | some m =>
    let before := (s.msgs.takeWhile fun x => !(x.core == core && x.line == line)).filter fun x => m.follows x
    (before.foldl (fun s x => s.deliverHead x.core x.line) s).deliverHead core line

/-- Every message about a line delivered, in order (R100): the directory's last transition of the line is complete (R102).
(DEDUCED, log entry 14, safe.) -/
def State.deliverAll (s : State) (line : Nat) : State :=
  (s.msgs.filter fun m => m.line == line).foldl (fun s m => s.deliverNext m.core line) s

/-- A write of a core is seen by every later access of its die (R137, R142): the messages about the line to cores of the die have arrived.
(DEDUCED, log entry 14, safe.) -/
def State.deliverDie (s : State) (core line : Nat) : State :=
  (s.msgs.filter fun m => m.line == line && dieOf m.core == dieOf core).foldl (fun s m => s.deliverNext m.core line) s

/-- The same for every line that a run of bytes touches. -/
def State.settleOwn (s : State) (core pa size : Nat) : State := (linesOf pa size).foldl (fun s line => s.deliverDie core line) s

/-- A value that one core has read is no older for the other cores of its die (R141, second case): every message about the line to them that is
older than the first one still on its way to the reader has arrived. (DEDUCED, log entry 14, safe.) -/
def State.observe (s : State) (core line : Nat) : State :=
  ((s.msgs.takeWhile fun m => !(m.core == core && m.line == line)).filter fun m => m.line == line && dieOf m.core == dieOf core).foldl
    (fun s m => s.deliverNext m.core line) s

/-! ### Copies at other modules (R189 to R191) -/

/-- Whether some touched word of a line changes as a format sees it (R98). -/
def disturbs (t : Tag) (old new : List Byte) : Bool :=
  (List.range 16).any fun k =>
    let a := fromBytes ((old.drop (4 * k)).take 4)
    let b := fromBytes ((new.drop (4 * k)).take 4)
    a != b && subWord a t != subWord b t

/-- Invalidations of a wheel sent to modules, or to every one, which have acknowledged them or will (R190, R191); a failed module is not waited
for (R193). -/
def State.tellModules (s : State) (line : Nat) (ms : List (Option Nat)) : State :=
  let all := (List.range 384).filter fun m => m != s.module
  let told := (ms.flatMap fun m => match m with
    | some m => [m]
    | none => all).filter fun m => !s.failed.elem m
  { s with fabOut := s.fabOut ++ ms.map (fun m => .invalidate m (wheelOf line))
           modAcks := if s.defer then s.modAcks ++ told.map fun m => (m, line) else s.modAcks }

/-- The pointers of other modules to a wheel compared with a write of one of its lines at the home slice (R190, R191): a module whose format
sees the change is invalidated and its pointer freed; under BROADCAST every module is when any raw bit changes, and the entry goes. -/
def State.compareModules (s : State) (line : Nat) (old new : List Byte) : State :=
  match (s.die (homeDie line)).wheelDir.find? fun w => w.wheel == wheelOf line with
  | none => s
  | some w =>
    let hit := w.ptrs.filter fun p => disturbs p.2 old new
    let s := if w.broadcast then (if old = new then s else s.tellModules line [none])
      else if hit.isEmpty then s else s.tellModules line ((dedup (hit.map fun p => p.1)).map some)
    let left : WheelPtrs := { w with ptrs := w.ptrs.filter fun p => !disturbs p.2 old new }
    let gone := if w.broadcast then old != new else left.ptrs.isEmpty
    s.updDie (homeDie line) fun d => { d with
      wheelDir := if gone then d.wheelDir.filter (fun x => x.wheel != w.wheel) else d.wheelDir.map fun x => if x.wheel == w.wheel then left else x }

/-! ### L1 copies (R66, R67, R101, R103) -/

/-- The owner's dirty bytes are merged at the home slice, which advances the version and compares what other modules hold (R80, R103, R190). -/
def State.writeBack (s : State) (core line : Nat) : State :=
  match s.l1Of core line with
  | none => s
  | some c =>
    if c.dirty = 0 then s
    else
      let s := { s with l1 := setL1 { c with dirty := 0, base := [], version := none } s.l1 }
      (if c.base.isEmpty then s else s.compareModules line c.base (s.lineBytes line)).bump line

/-- Recall of a line held in M (R103): written back, and then dropped, or kept as a clean full copy when the recall downgrades. -/
def State.recall (s : State) (line : Nat) (downgrade : Bool) : State :=
  match s.dirOf line with
  | some { state := .modified o, .. } =>
    let s := s.writeBack o line
    if downgrade then
      { s with dir := setDir { line := line, state := .shared, rinds := [{ tag := .full, mask := BitVec.ofNat 32 (2 ^ clusterOf o) }] } s.dir }
    else { s with dir := s.dir.filter (fun d => d.line != line),
                  l1 := s.l1.filter fun c => !(c.core == o && c.line == line) }
  | _ => s

/-- Every L1 copy of a line dropped, its last transition being complete. -/
def State.dropCopies (s : State) (line : Nat) : State :=
  let s := s.deliverAll line
  { s with l1 := s.l1.filter fun c => c.line != line }

/-- Every copy of a line is dropped, an owner's dirty bytes being written back, and the line enters I (R87, R101). -/
def State.invalidateLine (s : State) (line : Nat) : State :=
  let s := (s.recall line false).dropCopies line
  { s with dir := s.dir.filter fun x => x.line != line }

/-- A copy replaced in a core's L1: an owner writes its line back, a copy in S goes without a word (R90, R101). -/
def State.evictL1 (s : State) (c : L1Line) : State :=
  match s.dirOf c.line with
  | some { state := .modified _, .. } => s.recall c.line false
  | _ => { s with l1 := s.l1.filter fun x => !(x.core == c.core && x.line == c.line) }

/-- The copies of a core in the set of a line, the least recently used first (R66). -/
def State.waysOf (s : State) (core line : Nat) : List L1Line := s.l1.filter fun c => c.core == core && l1Set c.line == l1Set line

/-- Room for a copy in a core's L1 (R66, R67): of 16 ways the least recently used one goes, a kept one only where no other can.
(DESIGN CHOICE, log entry 13, unsafe.) -/
def State.l1Room (s : State) (core line : Nat) : State :=
  let n := s.waysLeft 16 (.l1 core (l1Set line))
  if decide (s.l1.length < n) || (s.l1Of core line).isSome then s
  else
    let ways := s.waysOf core line
    if ways.length < n then s
    else match (ways.find? fun c => !c.keep).or ways.head? with
      | some c => s.evictL1 c
      | none => s

/-- A copy placed in its core's L1 under a cache hint (R67): most recently used, or under `nt` least recently used; `keep` marks it while fewer
than 8 ways of its set are kept. (DESIGN CHOICE, log entry 13, unsafe.) -/
def State.putL1 (s : State) (c : L1Line) (cache : Nat) : State :=
  let s := s.l1Room c.core c.line
  let was := (s.l1Of c.core c.line).any fun x => x.keep
  let keep := was || (cache == 3 && decide (((s.waysOf c.core c.line).filter fun x => x.keep).length < 8))
  let rest := s.l1.filter fun x => !(x.core == c.core && x.line == c.line)
  { s with l1 := if cache = 2 then { c with keep := keep } :: rest else rest ++ [{ c with keep := keep }] }

/-- Room for the directory entry of a line (R87): 131,072 sets of 16 ways for each die; a full set evicts the oldest entry, whose copies are gone
before the new entry is installed. (DESIGN CHOICE, log entry 13, unsafe.) -/
def State.dirRoom (s : State) (line : Nat) : State :=
  if decide (s.dir.length < 16) || (s.dirOf line).isSome then s
  else
    let same := s.dir.filter fun d => homeDie d.line == homeDie line && Config.dirSet d.line % 131072 == Config.dirSet line % 131072
    if same.length < 16 then s
    else match same.head? with
      | some d => s.invalidateLine d.line
      | none => s

/-- The cluster's bit set in the rind of a format; a fifth format collapses the line (R95, R96). -/
def addSharer (d : DirEntry) (cluster : Nat) (t : Tag) : DirEntry :=
  let bit : W32 := BitVec.ofNat 32 (2 ^ cluster)
  let t := if d.col then .full else t
  if d.rinds.any (fun r => r.tag == t) then
    { d with rinds := d.rinds.map fun r => if r.tag == t then { r with mask := r.mask ||| bit } else r }
  else if d.rinds.length < 4 then { d with rinds := d.rinds ++ [{ tag := t, mask := bit }] }
  else { d with col := true, rinds := [{ tag := .full, mask := d.rinds.foldl (fun m r => m ||| r.mask) bit }] }

/-! ### Writes (R97, R98) -/

/-- The comparison of one write, rind by rind (R98, R99): disturbed sharers but the writer are updated or invalidated, and the line stays in S.
(DEDUCED, log entry 14, safe.) -/
def State.compareWrite (s : State) (writer : Option Nat) (line : Nat) (old new : List Byte) : State :=
  match s.dirOf line with
  | none => s
  | some d =>
    let hit := d.rinds.filter fun r => disturbs r.tag old new
    let s := hit.foldl (fun s r => s.send writer line r.mask r.tag d.col d.upd old new) s
    if d.upd then s else { s with dir := setDir { d with rinds := d.rinds.filter fun r => !disturbs r.tag old new } s.dir }

/-- A write performed at a home slice, within one line (R98, R101 to R103), under a cache hint: the line's last transition is complete, an M
owner is recalled, the line is filled, the write is compared and merged, the version advances, monitors wake; poison ends where it was (R86). -/
def State.sliceWriteBy (s : State) (writer : Option Nat) (cache pa : Nat) (bs : List Byte) : State :=
  let line := lineOf pa
  let s := (s.deliverAll line).recall line false
  let cache := if (s.versionOf line).isSome then 0 else cache
  let s := s.fillAs line cache
  let old := s.lineBytes line
  let new := overWrites [(pa, bs)] line old
  let s := (s.compareModules line old new).compareWrite writer line old new
  (((s.lineWrite pa bs).bumpAs line cache).unpoison pa bs.length).wake pa bs.length

/-- The same by no core of its own. -/
def State.sliceWriteLine (s : State) (pa : Nat) (bs : List Byte) : State := s.sliceWriteBy none 0 pa bs

/-- A run of bytes cut at line boundaries: (address, bytes) for each line. -/
def splitLines (pa : Nat) (bs : List Byte) : List (Nat × List Byte) :=
  (linesOf pa bs.length).map fun line =>
    let lo := if pa < line then line else pa
    let hi := if pa + bs.length < line + 64 then pa + bs.length else line + 64
    (lo, (bs.drop (lo - pa)).take (hi - lo))

/-- A write performed at its home slices. -/
def State.sliceWrite (s : State) (pa : Nat) (bs : List Byte) : State :=
  if bs.isEmpty then s else (splitLines pa bs).foldl (fun s x => s.sliceWriteLine x.1 x.2) s

/-- Whether a line has a rind of reduced format that has not collapsed (R97). -/
def DirEntry.reduced (d : DirEntry) : Bool := !d.col && d.rinds.any fun r => decide (r.tag ≠ Tag.full)

/-- The copies that other cores hold of a line dropped. -/
def State.dropOthers (s : State) (core line : Nat) : State := { s with l1 := s.l1.filter fun c => c.line != line || c.core == core }

/-- The bytes of a line whose wheel other modules hold, as the home slice has them before an owner writes (R190). -/
def State.sliceBase (s : State) (line : Nat) : List Byte :=
  if (s.die (homeDie line)).wheelDir.any fun w => w.wheel == wheelOf line then s.lineBytes line else []

/-- A core takes a line in M and merges bytes into its copy at full precision, of which `valid` and `dirty` bytes were there; no other copy is
left (R66, R89, R97). -/
def State.takeOwned (s : State) (core line cache : Nat) (valid dirty bm : W64) (pa : Nat) (bs : List Byte) : State :=
  let s := s.dropOthers core line
  let base := match s.l1Of core line with
    | some c => if dirty = 0 then s.sliceBase line else c.base
    | none => s.sliceBase line
  let s := (s.lineWrite pa bs).putL1
    { core := core, line := line, tag := .full, valid := valid ||| bm, dirty := dirty ||| bm, base := base } cache
  (({ s with dir := setDir { line := line, state := .modified core } s.dir }).unpoison pa bs.length).wake pa bs.length

/-- A store that goes through to the slice (R97, R67): where the core keeps a copy at full precision it holds the stored bytes, and its cluster
stands in the rind of full precision. (DESIGN CHOICE, log entry 71, safe.) -/
def State.storeThrough (s : State) (core cache : Nat) (keep : Bool) (valid bm : W64) (pa : Nat) (bs : List Byte) : State :=
  let line := lineOf pa
  let s := s.sliceWriteBy (some core) (if cache = 2 then 2 else 0) pa bs
  let s := if keep then
      let s := (s.dirRoom line).putL1 { core := core, line := line, tag := .full, valid := valid ||| bm, dirty := 0 } cache
      let d := (s.dirOf line).getD { line := line, state := .shared }
      { s with dir := setDir (addSharer d (clusterOf core) .full) s.dir }
    else s
  s.deliverDie core line

/-- A store from an L1, within one line (R97): write-through where a reduced rind stands, the storing core keeping a copy at full precision
with the stored bytes valid; otherwise the storing core takes the line in M, every other copy being gone first, and the store is merged in its
L1. Under `nt` a store goes to the slice, and a copy that the core holds is updated (R67). (DESIGN CHOICE, log entry 71, safe.) -/
def State.l1StoreLine (s : State) (core cache : Nat) (pa : Nat) (bs : List Byte) : State :=
  let line := lineOf pa
  let bm := byteMask (pa - line) bs.length
  let s := s.deliverAll line
  let s := { s with l1 := s.l1.filter fun c => !(c.core == core && c.line == line && decide (c.tag ≠ Tag.full)) }
  let own := s.l1Of core line
  let valid := (own.map fun c => c.valid).getD 0
  let keep := own.isSome || cache != 2
  match s.dirOf line with
  | some { state := .modified o, .. } =>
    if o = core then s.takeOwned core line cache valid ((own.map fun c => c.dirty).getD 0) bm pa bs
    else if cache = 2 then s.storeThrough core cache keep valid bm pa bs
    else (s.recall line false).takeOwned core line cache 0 0 bm pa bs
  | some d =>
    if d.reduced || cache == 2 then s.storeThrough core cache keep valid bm pa bs
    else s.takeOwned core line cache valid 0 bm pa bs
  | none => if cache = 2 then s.storeThrough core cache keep valid bm pa bs else (s.dirRoom line).takeOwned core line cache 0 0 bm pa bs

/-- A plain store of a core to cacheable memory. -/
def State.l1Store (s : State) (core cache : Nat) (pa : Nat) (bs : List Byte) : State :=
  if bs.isEmpty then s else (splitLines pa bs).foldl (fun s x => s.l1StoreLine core cache x.1 x.2) s

/-! ### Loads (R94, R101, R104) -/

/-- A load request at the directory (Table 05-3), the line's last transition being complete (R102): the line's state and rinds change, and the
reply installs a copy, under `nt` only where the core holds one. An owner that lacks bytes of its line keeps it and has them fetched beneath its
own (R66). (DESIGN CHOICE, log entry 13, unsafe.) (DESIGN CHOICE, log entry 72, safe.) -/
def State.dirLoad (s : State) (core line : Nat) (t : Tag) (upd : Bool) (cache : Nat) : State :=
  let own := match s.dirOf line with
    | some { state := .modified o, .. } => o == core
    | _ => false
  let s := s.deliverAll line
  if own && t == .full then
    let s := s.fillAs line cache
    match s.l1Of core line with
    | some c => s.putL1 { c with valid := BitVec.allOnes 64, version := s.versionOf line } cache
    | none => s
  else
    let s := (((s.recall line true).fillAs line cache)).dirRoom line
    let d := (s.dirOf line).getD { line := line, state := .shared }
    let d := addSharer { d with state := .shared, upd := d.upd || (upd && t != .full) } (clusterOf core) t
    let s := { s with dir := setDir d s.dir }
    if cache = 2 ∧ s.l1Of core line = none then s
    else s.putL1 { core := core, line := line, tag := t, valid := BitVec.allOnes 64, dirty := 0, version := s.versionOf line } cache

/-- Whether an L1 copy serves a load of some bytes at a format (R94). -/
def L1Line.serves (c : L1Line) (t : Tag) (bm : W64) : Bool := (c.tag == t || c.tag == .full) && (c.valid &&& bm) == bm

/-- The bytes that a copy returns for a load at a format (R93, R94, R104). -/
def State.copyBytes (s : State) (c : L1Line) (t : Tag) : List Byte :=
  let held := c.stale.getD (subLine c.tag (s.lineBytes c.line))
  if c.tag == t then held else subLine t held

/-- UPD set by a subscribed load with its update bit (R99), a hit in the L1 included. -/
def State.markUpd (s : State) (line : Nat) (t : Tag) (upd : Bool) : State :=
  if upd && t != .full then
    { s with dir := s.dir.map fun d => if d.line == line && decide (d.state = .shared) then { d with upd := true } else d }
  else s

/-- A cacheable load of some bytes of one line, all in one access of the L1 (R100): a hit in the core's L1, or a request to the directory (R94,
R101). The line as the core sees it, and the state. -/
def State.loadBytes (s : State) (core line : Nat) (bm : W64) (t : Tag) (upd : Bool) (cache : Nat) : List Byte × State :=
  let s := match s.l1Of core line with
    | some c => if c.serves t bm then (s.markUpd line t upd).putL1 c cache else s.dirLoad core line t upd cache
    | none => s.dirLoad core line t upd cache
  let bytes := match s.l1Of core line with
    | some c => if c.serves t bm then s.copyBytes c t else subLine t (s.lineBytes line)
    | none => subLine t (s.lineBytes line)
  (bytes, s.observe core line)

/-- A cacheable load within one line. -/
def State.loadLine (s : State) (core pa size : Nat) (t : Tag) (upd : Bool) (cache : Nat) : List Byte × State :=
  let line := lineOf pa
  let (bytes, s) := s.loadBytes core line (byteMask (pa - line) size) t upd cache
  ((bytes.drop (pa - line)).take size, s)

end Sys2Proof.Machine
end

