-- ==== Sys2Proof/Machine/Wheels.lean ====
section
/-!
DEFINITION. Atomic operations (Table 16-3), vat entries (R113 to R118), the records of wheels (R111, R116, R123) and reads merged with them (R120).
-/
namespace Sys2Proof.Machine
open Sys2Proof

/-- The request code of a plain store, and of a compare-and-swap; codes 0 to 14 are those of Table 16-3, plus 32 for `h2`, 64 for `b2`. -/
def opStore : Nat := 15
def opCas : Nat := 16

/-- The format of a packed half operation: 1 FP16, 2 BF16. -/
def halfFmt (pk : Nat) : NumFmt := if pk = 1 then fp16 else bf16

/-- One function on each 16-bit half of a word. -/
def onHalves (f : Nat → Nat → Nat) (a b : Nat) : Nat :=
  f (a % 65536) (b % 65536) % 65536 + f (a / 65536 % 65536) (b / 65536 % 65536) % 65536 * 65536

/-- A rounded sum of two patterns (R302: always RNE). -/
def faddPat (f : NumFmt) (a b : Nat) : Nat := roundFmt (XReal.add false (decodeFmt a f) (decodeFmt b f)) f 0

/-- The smaller or larger of two signed words. -/
def sminNat (w a b : Nat) : Nat := if sextInt a w ≤ sextInt b w then a else b
def smaxNat (w a b : Nat) : Nat := if sextInt a w ≤ sextInt b w then b else a

/-- The new value of an operation code on old value `o` and operand `d` (Table 16-3); `c` is the expected value of a swap (R306).
(DEDUCED, log entry 52, safe.) -/
def atomNew (op o d c : Nat) : Nat :=
  let pk := op / 32
  match op % 32 with
  | 0 => (o + d) % 2 ^ 32
  | 1 => o &&& d
  | 2 => o ||| d
  | 3 => o ^^^ d
  | 4 => sminNat 32 o d
  | 5 => smaxNat 32 o d
  | 6 => min o d
  | 7 => max o d
  | 8 => d
  | 9 => if pk = 0 then faddPat fp32 o d else onHalves (faddPat (halfFmt pk)) o d
  | 10 => if pk = 0 then fsel false o d fp32 else onHalves (fun a b => fsel false a b (halfFmt pk)) o d
  | 11 => if pk = 0 then fsel true o d fp32 else onHalves (fun a b => fsel true a b (halfFmt pk)) o d
  | 12 => (o + d) % 2 ^ 64
  | 13 => d
  | 14 => (o + d) % 256
  | 15 => d
  | _ => if o = c then d else o

/-- The new value of a request. -/
def AtomReq.new (r : AtomReq) (o : Nat) : Nat := atomNew r.op o (r.operand.toNat % 2 ^ (8 * r.size)) (r.compare.toNat % 2 ^ (8 * r.size))

/-- Width in bytes of an entry's target by FMT (Table 06-3). -/
def VatEntry.width (e : VatEntry) : Nat := if e.fmt = 3 then 1 else if e.fmt = 4 then 2 else 4

/-- The entry form of a request, if it has one (Table 06-4). -/
def entryForm (r : AtomReq) : Option (List VatEntry) :=
  let off := r.addr % 2048
  let d := r.operand.toNat
  let one := fun (op fmt : Nat) => some [({ data := BitVec.ofNat 32 d, off := off, op := op, fmt := fmt } : VatEntry)]
  let flt := if r.op / 32 = 0 then 2 else if r.op / 32 = 2 then 5 else 6
  match r.op % 32 with
  | 15 =>
    if r.size = 1 then one 0 3 else if r.size = 2 then one 0 4 else if r.size = 4 then one 0 0
    else some ((List.range (r.size / 4)).map fun k =>
      { data := BitVec.ofNat 32 (d / 2 ^ (32 * k)), off := off + 4 * k, op := 0, fmt := 0 })
  | 0 => one 1 0
  | 1 => one 4 0
  | 2 => one 5 0
  | 3 => one 6 0
  | 4 => one 2 1
  | 5 => one 3 1
  | 6 => one 2 0
  | 7 => one 3 0
  | 9 => one 1 flt
  | 10 => one 2 flt
  | 11 => one 3 flt
  | _ => none

/-- The word or bytes that an entry leaves when it is applied to a value (R118). -/
def entryValue (op fmt x d : Nat) : Nat :=
  let num : NumFmt := if fmt = 2 then fp32 else if fmt = 5 then bf16 else fp16
  let f := fun (a b : Nat) => if op = 1 then faddPat num a b else fsel (op == 3) a b num
  match fmt with
  | 0 =>
    match op with
    | 0 => d
    | 1 => (x + d) % 2 ^ 32
    | 2 => min x d
    | 3 => max x d
    | 4 => x &&& d
    | 5 => x ||| d
    | _ => x ^^^ d
  | 1 => if op = 2 then sminNat 32 x d else smaxNat 32 x d
  | 2 => f x d
  | 3 => d % 256
  | 4 => d % 65536
  | _ => onHalves f x d

/-- Apply (R118): one entry applied to the bytes of a wheel that starts at `base`. -/
def applyEntry (base : Nat) (m : Cells) (e : VatEntry) : Cells :=
  m.writeNat (base + e.off) e.width (entryValue e.op e.fmt (m.readNat (base + e.off) e.width) e.data.toNat)

/-- Whether the bytes of two entries overlap, and whether those of the first lie within those of the second. -/
def VatEntry.overlaps (e n : VatEntry) : Bool := decide (e.off < n.off + n.width) && decide (n.off < e.off + e.width)
def VatEntry.within (e n : VatEntry) : Bool := decide (n.off ≤ e.off) && decide (e.off + e.width ≤ n.off + n.width)

/-- The position of the latest entry whose bytes overlap those of `n`. -/
def latestOverlap (vat : List VatEntry) (n : VatEntry) : Option Nat :=
  ((List.range vat.length).reverse).find? fun k => (vat[k]?.map fun e => e.overlaps n).getD false

/-- One entry appended with compaction (R117). -/
def appendEntry (vat : List VatEntry) (n : VatEntry) : List VatEntry :=
  if n.op = 0 then vat.filter (fun e => !e.within n) ++ [n]
  else
    match latestOverlap vat n with
    | some k =>
      match vat[k]? with
      | some l =>
        if l.op = n.op ∧ l.off = n.off ∧ l.fmt = n.fmt then
          vat.set k { l with data := BitVec.ofNat 32 (entryValue n.op n.fmt l.data.toNat n.data.toNat) }
        else vat ++ [n]
      | none => vat ++ [n]
    | none => vat ++ [n]

/-- Append (R117) before its test of the size. -/
def appendUnit (vat unit_ : List VatEntry) : List VatEntry := unit_.foldl appendEntry vat

/-- The entries of a unit in unit order (R115); none when some request has no entry form. -/
def unitEntries (reqs : List AtomReq) : Option (List VatEntry) :=
  (reqs.mapM entryForm).map fun ls => sortByKey (fun e => e.off) ls.flatten

/-- A wheel's record; a wheel without one is IDLE. -/
def State.wheelAt (s : State) (w : Nat) : Option Wheel := s.wheels.find? fun x => x.wheel == w

/-- The records with one wheel's replaced. -/
def setWheel (w : Wheel) (ws : List Wheel) : List Wheel :=
  if ws.any (fun x => x.wheel == w.wheel) then ws.map (fun x => if x.wheel == w.wheel then w else x) else ws ++ [w]

/-- The set of a wheel in its die's vat table (R116). -/
def vatSet (pa : Nat) : Nat := natField pa 13 10 ^^^ natField pa 23 10 ^^^ natField pa 33 10

/-- Whether a state has a vat. -/
def WheelState.hasVat : WheelState → Bool
  | .vatted => true
  | .pressing => true
  | _ => false

/-- The 32 lines of a wheel. -/
def wheelLines (w : Nat) : List Nat := (List.range 32).map fun k => w + 64 * k

/-- Bytes of a frame (R123): of a Cave, or of a cluster instance. -/
def State.frameRead (s : State) (cave : Bool) (place off n : Nat) : List Byte :=
  if cave then s.mem.readBytes (s.cavePa place off) n
  else match s.insts.find? (fun i => i.key == place) with
    | some i => i.cells.readBytes off n
    | none => List.replicate n 0

/-- Bytes of a frame written. -/
def State.frameWrite (s : State) (cave : Bool) (place off : Nat) (bs : List Byte) : State :=
  if cave then s.caveWrite (s.cavePa place off) bs else s.instWrite place off bs

/-- Whether an uncorrectable error stands in a run of bytes of a frame (R86). -/
def State.frameBad (s : State) (cave : Bool) (place off n : Nat) : Bool :=
  if cave then s.spoiled .cave (s.cavePa place off) n else s.spoiled (.inst place) off n

/-- What a load of a vat-managed wheel returns without changing anything (R120). -/
def State.mergedRead (s : State) (pa n : Nat) : List Byte :=
  match s.wheelAt (wheelOf pa) with
  | some w => match w.state with
    | .residentF cave place off => s.frameRead cave place (off + (pa - w.wheel)) n
    | .residentS => s.mem.readBytes pa n
    | _ => (w.vat.foldl (applyEntry w.wheel) s.mem).readBytes pa n
  | none => s.mem.readBytes pa n

end Sys2Proof.Machine
end

