-- ==== Sys2Proof/Machine/Translate.lean ====
section
/-!
DEFINITION. Virtual addresses, page tables, TLBs and the checks of a global access (R42 to R59, R301, R374), and the ways an
instruction can end other than by completing.
-/
namespace Sys2Proof.Machine
open Sys2Proof

/-- A trap an instruction raises: code (Table 19-2), xaddr, xmask (the path's `exm` where none is given), INFO and ASYNC (Table 19-1). -/
structure Trap where
  code : Nat
  addr : W64 := 0
  mask : Option W32 := none
  info : Nat := 0
  async : Bool := false
  /-- Addresses that reached the outcome. -/
  vas : List W64 := []
  deriving DecidableEq, Repr

/-- How an instruction ends without completing: a trap, a trap that leaves some effect (R164, R192), a wait (it issues again later), a wait
that leaves something begun, or a stop of the machine. -/
inductive Exc where
  | trap (t : Trap)
  | trapAfter (s : State) (t : Trap)
  | wait (w : Stall)
  | pend (s : State) (w : Stall)
  | stop (f : Fault)
  | refuse (r : Refusal)
  deriving DecidableEq, Repr

/-- A result, or the way the instruction ended. -/
abbrev Res (α : Type) := Except Exc α

/-- Fault codes (Table 19-2). -/
def codeIIN : Nat := 0x01
def codeMisalign : Nat := 0x02
def codePageNp : Nat := 0x03
def codePagePerm : Nat := 0x04
def codeWatch : Nat := 0x05
def codeSpad : Nat := 0x06
def codeJtab : Nat := 0x07
def codeStallShort : Nat := 0x08
def codeAtom : Nat := 0x09
def codeTx : Nat := 0x0A
def codeDivstack : Nat := 0x0B
def codeEcc : Nat := 0x0C
def codeBrk : Nat := 0x0D
def codeTrapi : Nat := 0x0E
def codeFmt : Nat := 0x0F
def codeGuard : Nat := 0x10
def codeFabric : Nat := 0x11

/-- An instruction ended by a trap whose xmask is the path's `exm`. -/
def trapNow {α : Type} (code : Nat) : Res α := .error (.trap { code := code })

/-- A trap when a condition holds. -/
def trapIf (c : Bool) (code : Nat) : Res Unit := if c then trapNow code else .ok ()

/-- Access kinds, coded as INFO of Table 19-1. -/
inductive Kind where
  | load | store | atomic | reduction | fetch
  deriving DecidableEq, Repr

/-- INFO (Table 19-1). -/
def Kind.info : Kind → Nat
  | .load => 0
  | .store => 1
  | .atomic => 2
  | .reduction => 3
  | .fetch => 4

/-- An address is canonical when bits [63:57] equal bit 56 (R42). -/
def canonical (va : W64) : Bool := field va 57 7 == (if va.getLsbD 56 then 127 else 0)

/-- The page-table index of an address at a level (Table 03-2). -/
def levelIndex (va : Nat) (level : Nat) : Nat :=
  match level with
  | 0 => natField va 16 5
  | 1 => natField va 21 9
  | 2 => natField va 30 9
  | 3 => natField va 39 9
  | _ => natField va 48 9

/-- The size of a leaf's page at a level (Table 03-2). -/
def pageSize (level : Nat) : Nat :=
  match level with
  | 0 => 0x10000
  | 1 => 0x200000
  | _ => 0x40000000

/-- The physical address field of an entry (Table 03-3). -/
def ptePa (pte : W64) : Nat := field pte 12 40 * 4096
/-- One attribute bit of an entry (Table 03-3): V 0, LEAF 1, RD 2, W 3, X 4, U 5, G 6, VAT 7, NOSUB 8, WATCH 9, HOSTNC 10, NOATOM128 11. -/
def pteBit (pte : W64) (k : Nat) : Bool := pte.getLsbD k
/-- MT of an entry. -/
def pteMt (pte : W64) : Nat := field pte 52 2

/-- Whether a leaf's page lies within one place that its attributes allow (Tables 03-1 and 03-5, R45). (DEDUCED, log entry 56, safe.)
(DESIGN CHOICE, log entry 82, safe.) -/
def leafPlaced (modId : Nat) (pte : W64) (size : Nat) : Bool :=
  let l := localOf (ptePa pte)
  let first := placeOf l
  let last := placeOf (l + size - 1)
  let own := moduleOf (ptePa pte) == modId
  let vat := pteBit pte 7
  let hostnc := pteBit pte 10
  let mt1 := pteMt pte == 1
  match first with
  | .hbm => decide (last = .hbm) && !hostnc && !mt1
  | .window d => (decide (last = .window d) || (!pteBit pte 5 && decide (l + size ≤ 0x68000000000 + (d + 1) * 0x2000000)))
      && !vat && !hostnc && !mt1 && !pteBit pte 4
  | .cave d => decide (last = .cave d) && !pteBit pte 5 && !vat && !hostnc && !mt1 && !pteBit pte 4
  | .control => decide (last = .control) && mt1 && !pteBit pte 5 && !vat && !hostnc && !pteBit pte 4
  | .host => decide (last = .host) && own && !vat && !mt1 && !pteBit pte 4
  | .reserved => false

/-- Whether a valid entry at a level is malformed (R48). (DEDUCED, log entry 56, safe.) -/
def malformed (modId : Nat) (pte : W64) (level : Nat) : Bool :=
  let leaf := pteBit pte 1
  field pte 54 10 != 0 || decide (2 ≤ pteMt pte)
    || (leaf && decide (3 ≤ level)) || (!leaf && level == 0)
    || (!leaf && (field pte 2 10 != 0 || field pte 52 12 != 0))
    || (!leaf && !(moduleOf (ptePa pte) == modId && decide (placeOf (localOf (ptePa pte)) = .hbm)))
    || (leaf && ptePa pte % pageSize level != 0)
    || (leaf && pteBit pte 3 && !pteBit pte 2)
    || (leaf && !leafPlaced modId pte (pageSize level))

/-- A translation: the leaf and its level. -/
structure Leaf where
  pte : W64
  level : Nat
  deriving DecidableEq, Repr

/-- The physical address that a leaf gives a virtual address. -/
def Leaf.pa (f : Leaf) (va : W64) : Nat := ptePa f.pte + va.toNat % pageSize f.level

/-- The outcome of a walk: a leaf, no valid entry, or a malformed one (R57). -/
inductive Walk where
  | leaf (f : Leaf)
  | absent
  | bad
  deriving DecidableEq, Repr

/-- A page-table entry as a walk reads it, through its home slice (R53, R56): merged with its wheel's vat, or from its frame (R120). -/
def State.tableEntry (s : State) (pa : Nat) : W64 := BitVec.ofNat 64 (fromBytes (s.mergedRead pa 8))

/-- The walk from a table at a level down (R46, R57): `n` counts the levels left, so the level is n − 1. The page-walk cache of the die
answers for a pointer entry that it holds (R53). (DESIGN CHOICE, log entry 12, unsafe.) -/
def State.walkFrom (s : State) (die asid va : Nat) : Nat → Nat → Walk
  | 0, _ => .bad
  | n + 1, table =>
    let cached := s.walkCache.find? fun e => e.die == die && e.asid == asid && e.level == n && e.prefix_ == va / 2 ^ (if n = 0 then 16 else 9 * n + 12)
    let pte : W64 := match cached with
      | some e => e.pte
      | none => s.tableEntry (table + 8 * levelIndex va n)
    if !pteBit pte 0 then .absent
    else if malformed s.module pte n then .bad
    else if pteBit pte 1 then .leaf { pte := pte, level := n }
    else s.walkFrom die asid va n (ptePa pte)

/-- Whether a TLB entry answers for an address in an address space (R53): global entries match under every ASID. -/
def TlbEntry.hits (e : TlbEntry) (loc : TlbLoc) (asid va : Nat) : Bool :=
  decide (e.loc = loc) && (e.asid == asid || pteBit e.pte 6) && e.base == va / pageSize e.level * pageSize e.level

/-- The TLB entry of one structure for an address. -/
def State.tlbHit (s : State) (loc : TlbLoc) (asid va : Nat) : Option TlbEntry := s.tlbs.find? fun e => e.hits loc asid va

/-- The first-level TLB an access uses (Table 03-6). -/
def firstTlb (core : Nat) (k : Kind) : TlbLoc := if k = .fetch then .itlb core else .dtlb core

/-- The walk from a root table, which like every table lies in local HBM (R46, R57). (DEDUCED, log entry 16, safe.) -/
def State.walkRoot (s : State) (die asid root va : Nat) : Walk :=
  if moduleOf root == s.module && decide (placeOf (localOf root) = .hbm) then s.walkFrom die asid va 5 root else .bad

/-- Translation of a canonical address: the core's TLB, the die's TLB, then a walk (R53). (DESIGN CHOICE, log entry 12, unsafe.)
(DEDUCED, log entry 65, safe.) -/
def State.translate (s : State) (core asid root : Nat) (k : Kind) (va : W64) : Walk :=
  let a := va.toNat % 2 ^ 57
  match s.tlbHit (firstTlb core k) asid a with
  | some e => .leaf { pte := e.pte, level := e.level }
  | none =>
    match s.tlbHit (.second (dieOf core)) asid a with
    | some e => .leaf { pte := e.pte, level := e.level }
    | none => s.walkRoot (dieOf core) asid root a

/-- Ways of a set of a TLB, and the set of a page base (Table 03-6): 64 entries fully associative, 512 in 8 ways, 16,384 in 16. -/
def TlbLoc.ways : TlbLoc → Nat
  | .itlb _ => 64
  | .dtlb _ => 8
  | .second _ => 16
def TlbLoc.setOf (loc : TlbLoc) (base : Nat) : Nat :=
  match loc with
  | .itlb _ => 0
  | .dtlb _ => Config.dtlbSet base % 64
  | .second _ => Config.stlbSet base % 1024

/-- Room in a TLB for a page (Table 03-6): of a full set the least recently used entry goes. (DESIGN CHOICE, log entry 12, unsafe.) -/
def State.tlbRoom (s : State) (loc : TlbLoc) (base : Nat) : State :=
  if s.tlbs.length < loc.ways then s
  else
    let same := fun (e : TlbEntry) => decide (e.loc = loc) && loc.setOf e.base == loc.setOf base
    if (s.tlbs.filter same).length < loc.ways then s else { s with tlbs := removeFirst same s.tlbs }

/-- An entry installed in a TLB; one that already answers for the page becomes its set's most recently used. (DESIGN CHOICE, log entry 12, unsafe.) -/
def State.installTlb (s : State) (loc : TlbLoc) (asid : Nat) (va : Nat) (f : Leaf) : State :=
  match s.tlbHit loc asid va with
  | some e => { s with tlbs := removeFirst (fun x => decide (x = e)) s.tlbs ++ [e] }
  | none =>
    let base := va / pageSize f.level * pageSize f.level
    let s := s.tlbRoom loc base
    { s with tlbs := s.tlbs ++ [{ loc := loc, asid := asid, base := base, level := f.level, pte := f.pte }] }

/-- Room in a die's page-walk cache of 1,024 entries (Table 03-6): the oldest goes. (DESIGN CHOICE, log entry 12, unsafe.) -/
def State.walkRoom (s : State) (die : Nat) : State :=
  if s.walkCache.length < 1024 ∨ (s.walkCache.filter fun e => e.die == die).length < 1024 then s
  else { s with walkCache := removeFirst (fun e => e.die == die) s.walkCache }

/-- The pointer entries that a walk passed, put into the page-walk cache (R53). -/
def State.installWalk (s : State) (die asid va : Nat) : Nat → Nat → State
  | 0, _ => s
  | n + 1, table =>
    let pte := s.tableEntry (table + 8 * levelIndex va n)
    if pteBit pte 0 && !pteBit pte 1 && !malformed s.module pte n then
      let e : WalkEntry := { die := die, asid := asid, level := n, prefix_ := va / 2 ^ (9 * n + 12), pte := pte }
      let s := if s.walkCache.any (fun x => x.die == die && x.asid == asid && x.level == n && x.prefix_ == e.prefix_) then s
        else
          let s := s.walkRoom die
          { s with walkCache := s.walkCache ++ [e] }
      s.installWalk die asid va n (ptePa pte)
    else s

/-- The structures filled by a translation that an access used (R53, R54). (DESIGN CHOICE, log entry 12, unsafe.) -/
def State.fillTlb (s : State) (core asid root : Nat) (k : Kind) (va : W64) (f : Leaf) : State :=
  let a := va.toNat % 2 ^ 57
  if (s.tlbHit (firstTlb core k) asid a).isSome then s.installTlb (firstTlb core k) asid a f
  else
    let s := if (s.tlbHit (.second (dieOf core)) asid a).isSome then s else s.installWalk (dieOf core) asid a 5 root
    (s.installTlb (firstTlb core k) asid a f).installTlb (.second (dieOf core)) asid a f

/-! ### Misses (R55) -/

/-- Whether a miss is still to be answered for an address of an address space. -/
def Miss.waits (m : Miss) (asid page : Nat) : Bool := !m.done && m.asid == asid && m.va.toNat / 65536 == page

/-- Whether a miss is that of a path of a core. -/
def Miss.of (core slot : Nat) (inB : Bool) (m : Miss) : Bool := m.core == core && m.slot == slot && m.inB == inB && m.prefetch.isNone

/-- The pages among some addresses, each looked up once, that neither TLB answers for and whose miss has not come back to a path (R55). -/
def State.missing (s : State) (core slot : Nat) (inB : Bool) (asid : Nat) (k : Kind) (vas : List W64) : List W64 :=
  (vas.filter fun va =>
      let a := va.toNat % 2 ^ 57
      (s.tlbHit (firstTlb core k) asid a).isNone && (s.tlbHit (.second (dieOf core)) asid a).isNone
        && !(s.misses.any fun m => m.done && m.of core slot inB && m.asid == asid && m.va.toNat / 65536 == va.toNat / 65536)).foldl
    (fun ps va => if ps.any fun p => p.toNat / 65536 == va.toNat / 65536 then ps else ps ++ [va]) []

/-- Distinct pages that wait in the miss queue of a core (R55); those that the translation unit of a die keeps, at most 256; and the first of these,
which have a walker each. -/
def State.missQueue (s : State) (core : Nat) : List (Nat × Nat) :=
  dedup ((s.misses.filter fun m => !m.done && m.core == core).map fun m => (m.asid, m.va.toNat / 65536))
def State.dieMisses (s : State) (die : Nat) : List (Nat × Nat) :=
  (dedup ((s.misses.filter fun m => !m.done && dieOf m.core == die).map fun m => (m.asid, m.va.toNat / 65536))).take 256
def State.walks (s : State) (die : Nat) : List (Nat × Nat) := (s.dieMisses die).take 64

/-- Misses queued at a core for pages that no walk has answered (R55): a page already queued there is attached to, others take an entry of the queue
of 64; none where it has too few free. The walks that have come back for the access's other pages stay. -/
def State.queueMisses (s : State) (core slot : Nat) (inB : Bool) (asid root : Nat) (k : Kind) (vas ps : List W64) : Option State :=
  let queued := s.missQueue core
  let fresh := ps.filter fun va => !queued.elem (asid, va.toNat / 65536)
  if 64 < queued.length + fresh.length then none
  else
    let stale := fun (m : Miss) => m.of core slot inB && !(m.done && m.asid == asid && vas.any fun va => m.va.toNat / 65536 == va.toNat / 65536)
    some { s with
      misses := s.misses.filter (fun m => !stale m) ++ ps.map fun va =>
        ({ core := core, slot := slot, inB := inB, asid := asid, root := root, va := va, fetch := decide (k = .fetch) } : Miss) }

/-- An access whose pages are in no TLB waits for their walks when steps are deferred (R55): while they find no place at its core it is not
accepted. -/
def State.awaitWalksOf (s : State) (core slot : Nat) (inB : Bool) (asid root : Nat) (k : Kind) (vas : List W64) (why : Stall) : Res Unit :=
  if !s.defer then .ok ()
  else
    match s.missing core slot inB asid k vas with
    | [] => .ok ()
    | ps => match s.queueMisses core slot inB asid root k vas ps with
      | none => .error (.wait why)
      | some t => .error (.pend t why)

/-- The same for the issuing path. (DEDUCED, log entry 65, safe.) -/
def State.awaitWalks (s : State) (core asid root : Nat) (k : Kind) (vas : List W64) (why : Stall) : Res Unit :=
  s.awaitWalksOf core s.g.slot s.g.inB asid root k vas why

/-- Who accesses: core, address space, and whether supervisor code (R43, Table 03-7). -/
structure Who where
  core : Nat
  asid : Nat
  root : Nat
  sup : Bool
  wskip : Bool := false
  /-- Filters are consulted (R374); not for engines and the like. -/
  watched : Bool := true
  deriving DecidableEq, Repr

/-- The issuing group as an accessor. -/
def State.who (s : State) : Who :=
  { core := s.g.core, asid := s.g.asid, root := s.g.root, sup := s.g.sup, wskip := s.cur.wskip }

/-- Whether permissions allow an access (check 5): a page with MT = 1 takes only `sld` and `sst` of 4 or 8 bytes by supervisor code (R301). -/
def permitted (w : Who) (k : Kind) (scalar : Bool) (size : Nat) (pte : W64) : Bool :=
  let rd := pteBit pte 2
  let wr := pteBit pte 3
  (match k with
    | .load => rd
    | .store => wr
    | .atomic => rd && wr
    | .reduction => wr
    | .fetch => pteBit pte 4)
  && (w.sup || pteBit pte 5)
  && (pteMt pte != 1 || (scalar && w.sup && (size == 4 || size == 8)))

/-- Whether a sub-page filter matches an access (R374, Table 20-3). -/
def filterHits (f : BitVec 128) (asid : Nat) (k : Kind) (va size : Nat) : Bool :=
  let lo := field f 0 57
  let len := field f 64 25 + 1
  let bit := match k with
    | .load => 0
    | .store => 1
    | .atomic => 2
    | .reduction => 2
    | .fetch => 3
  f.getLsbD 110 && (f.getLsbD 115 || field f 116 12 == asid) && f.getLsbD (111 + bit)
    && decide (lo < va + size) && decide (va < lo + len)

/-- Whether a page with WATCH set matches some filter of the core's die (check 6). -/
def State.watchHit (s : State) (w : Who) (k : Kind) (va : W64) (size : Nat) (pte : W64) : Bool :=
  pteBit pte 9 && w.watched && !w.wskip
    && (s.die (dieOf w.core)).filters.any fun f => filterHits f w.asid k (va.toNat % 2 ^ 57) size

/-- The outcome of one lane's checks (Table 03-7): the row that failed, or the leaf. -/
inductive Checked where
  | fails (row : Nat)
  | passes (f : Leaf)
  deriving DecidableEq, Repr

/-- The checks of Table 03-7 for one lane, in order. (DEDUCED, log entry 15, safe.) -/
def State.check (s : State) (w : Who) (k : Kind) (scalar : Bool) (size : Nat) (va : W64) : Checked :=
  if va.toNat % size != 0 then .fails 1
  else if !canonical va then .fails 2
  else match s.translate w.core w.asid w.root k va with
    | .absent => .fails 3
    | .bad => .fails 4
    | .leaf f =>
      if !permitted w k scalar size f.pte then .fails 5
      else if s.watchHit w k va size f.pte then .fails 6
      else .passes f

/-- The fault of a row of Table 03-7. -/
def rowCode (row : Nat) : Nat :=
  match row with
  | 1 => codeMisalign
  | 2 => codePagePerm
  | 3 => codePageNp
  | 4 => codePagePerm
  | 5 => codePagePerm
  | _ => codeWatch

/-- One lane's access after translation. -/
structure Placed where
  lane : Nat
  va : W64
  pa : Nat
  leaf : Leaf
  deriving DecidableEq, Repr

/-- Whether a lane fails the checks that come before translation (rows 1 and 2). -/
def preChecks (size : Nat) (va : W64) : Bool := va.toNat % size == 0 && canonical va

/-- The row a lane failed at, or 7 when it passed. -/
def Checked.row : Checked → Nat
  | .fails r => r
  | .passes _ => 7

/-- The checks of all lanes reduced to one outcome (R58): the earliest row that any lane reached decides, with the lanes that reached
it and the address of the lowest of them; if every lane passes, their physical addresses. (DEDUCED, log entry 15, safe.) -/
def State.checkLanes (s : State) (w : Who) (k : Kind) (scalar : Bool) (size : Nat) (ls : List (Nat × W64)) : Res (List Placed) := do
  if ls.all fun x => preChecks size x.2 then s.awaitWalks w.core w.asid w.root k (ls.map fun x => x.2) .memDep
  let rs := ls.map fun x => (x.1, x.2, s.check w k scalar size x.2)
  let worst := rs.foldl (fun m r => min m r.2.2.row) 7
  if worst = 7 then
    .ok (rs.filterMap fun r => match r.2.2 with
      | .passes f => some { lane := r.1, va := r.2.1, pa := f.pa r.2.1, leaf := f }
      | .fails _ => none)
  else
    let bad := rs.filter fun r => r.2.2.row == worst
    .error (.trap { code := rowCode worst, addr := (bad.head?.map fun r => r.2.1).getD 0,
                    mask := some (maskOf (bad.map fun r => r.1)), info := k.info, vas := bad.map fun r => r.2.1 })

/-- The TLB fills of an instruction's lanes. (DEDUCED, log entry 65, safe.) -/
def State.fillAll (s : State) (w : Who) (k : Kind) (ps : List Placed) : State :=
  ps.foldl (fun s p => s.fillTlb w.core w.asid w.root k p.va p.leaf) s

/-- A trap for the lanes that satisfy a test among placed lanes, as R58 gives xmask and xaddr. -/
def trapLanes (ps : List Placed) (bad : Placed → Bool) (code info : Nat) : Res Unit :=
  match ps.filter bad with
  | [] => .ok ()
  | p :: rest => .error (.trap { code := code, addr := p.va, mask := some (maskOf ((p :: rest).map fun q => q.lane)), info := info })

end Sys2Proof.Machine
end

