-- ==== Sys2Proof/Machine/Vat.lean ====
section
/-!
DEFINITION. Vats and presses (R110 to R127), and reads and writes of global memory at the place where each is performed (R78, R110, R120,
R142, R182, R188).
-/
namespace Sys2Proof.Machine
open Sys2Proof

/-- Every L1 copy of a wheel's lines, and every other module's copy of it, is invalidated (R112). -/
def State.invalidateWheel (s : State) (w : Nat) : State :=
  let s := (wheelLines w).foldl (fun s line => if (s.dirOf line).isSome then s.invalidateLine line else s) s
  match (s.die (homeDie w)).wheelDir.find? fun p => p.wheel == w with
  | none => s
  | some p =>
    let s := s.tellModules w (if p.broadcast then [none] else (dedup (p.ptrs.map fun q => q.1)).map some)
    s.updDie (homeDie w) fun d => { d with wheelDir := d.wheelDir.filter fun p => p.wheel != w }

/-- The lines of a wheel leave the slice and every L1 (R112, R121 step 4). -/
def State.dropWheelLines (s : State) (w : Nat) : State :=
  let s := s.invalidateWheel w
  { s with l2 := s.l2.filter fun l => wheelOf l.line != w }

/-- The result of a press or an eviction written to the wheel's 32 lines at the slice: touched lines are compared and merged, and the
version of every line advances (R121, R80). A poisoned line stays poisoned, since its bytes were read to make the result.
(DEDUCED, log entry 62, safe.) -/
def State.writeWheel (s : State) (w : Nat) (m : Cells) : State :=
  { (wheelLines w).foldl (fun s line =>
      let bs := m.readBytes line 64
      if bs = s.lineBytes line then s.bump line else s.sliceWriteLine line bs) s with poison := s.poison }

/-- What an error in a vat makes unreadable is poisoned once a press or a merged read finds it (R127). (DEDUCED, log entry 62, safe.) -/
def State.findBad (s : State) (w : Wheel) : State :=
  if w.bad.isEmpty then s
  else { s.poisonLines w.bad with wheels := s.wheels.map fun x => if x.wheel == w.wheel then { x with bad := [] } else x }

/-- What a merged read of a wheel finds bad in its vat (R127). -/
def State.findBadAt (s : State) (wheel : Nat) : State :=
  match s.wheelAt wheel with
  | some w => s.findBad w
  | none => s

/-- A request applied to a resident wheel at the slice, or in its frame (R111). -/
def State.applyReq (s : State) (st : WheelState) (w : Nat) (r : AtomReq) : State :=
  match st with
  | .residentF cave place off =>
    let o := fromBytes (s.frameRead cave place (off + (r.addr - w)) r.size)
    s.frameWrite cave place (off + (r.addr - w)) (toBytes r.size (r.new o))
  | _ => s.sliceWrite r.addr (toBytes r.size (r.new (s.mem.readNat r.addr r.size)))

/-- What follows a unit's append or application (R119): monitors wake, its core sees its own writes, and another module's unit is acknowledged. -/
def State.afterUnit (s : State) (u : VatUnit) : State :=
  let s := u.reqs.foldl (fun s r => (s.wake r.addr r.size).settleOwn u.core r.addr r.size) s
  if u.src.isSome then { s with fabOut := s.fabOut ++ [.data []] } else s

/-- The unit that forced a fetch applied whole to the resident wheel, straight after the press and before any later arrival, and taken from its
intake queue (R124): it is the oldest one of its wheel. -/
def State.applyForced (s : State) (wheel : Nat) : State :=
  match (s.cluster (owningCluster wheel)).intake.find? (fun u => u.wheel == wheel) with
  | none => s
  | some u =>
    let s := s.updCluster (owningCluster wheel) fun c => { c with intake := removeFirst (fun x => x.wheel == wheel) c.intake }
    (u.reqs.foldl (fun s r => s.applyReq .residentS wheel r) s).afterUnit u

/-- A press carried out (R121): entries applied in log order to the lines at the slice or into the frame, and the vat freed; what an error in
the vat touched is poisoned (R127), the paths that asked for it go on (R122), and a unit that forced the press follows (R124). -/
def State.finishPress (s : State) (w : Wheel) (next : Option WheelState) : State :=
  let m := w.vat.foldl (applyEntry w.wheel) s.mem
  let s := match next with
    | some (.residentF cave place off) =>
      (s.frameWrite cave place off (m.readBytes w.wheel 2048)).dropWheelLines w.wheel
    | _ => s.writeWheel w.wheel m
  let s := s.findBad w
  let s := s.mapGroups fun g => { g with pressWait := g.pressWait.filter fun x => x.2 != w.wheel }
  let s := match next with
    | none => { s with wheels := s.wheels.filter fun x => x.wheel != w.wheel }
    | some st => { s with wheels := setWheel { wheel := w.wheel, state := st, stamp := w.stamp } s.wheels }
  if w.forced then s.applyForced w.wheel else s

/-- A press asked for (R112, R122): done at once, or deferred to its event. -/
def State.press (s : State) (w : Wheel) (next : Option WheelState) : State :=
  if s.defer then { s with wheels := setWheel { w with state := .pressing, after := next } s.wheels } else s.finishPress w next

/-- A press forced by a unit (R124 cases 1 and 2): the whole unit is applied straight after it; where the press is deferred, the unit keeps its
place in the intake queue until the press ends. -/
def State.pressFor (s : State) (w : Wheel) (reqs : List AtomReq) : Bool × State :=
  if s.defer then (false, s.press { w with forced := true } (some .residentS))
  else (true, reqs.foldl (fun s r => s.applyReq .residentS w.wheel r) (s.finishPress w (some .residentS)))

/-- The press of a wheel under way ends (R121): with the residence that was asked for. -/
def State.endPress (s : State) (wh : Nat) : State :=
  match s.wheelAt wh with
  | some w => if decide (w.state = .pressing) then s.finishPress w w.after else s
  | none => s

/-- The wheel is brought to RESIDENT-S from IDLE or VATTED (R124); a press under way ends first, as it was asked for (R121). The lines of a resident
wheel are in the slice (R112). (DEDUCED, log entry 69, safe.) -/
def State.forceResident (s : State) (wh : Nat) : State :=
  let s := s.endPress wh
  match s.wheelAt wh with
  | none =>
    let s := (wheelLines wh).foldl State.fill s
    { s with wheels := setWheel { wheel := wh, state := .residentS } s.wheels }
  | some w => match w.state with
    | .vatted => s.finishPress w (some .residentS)
    | _ => s

/-- A vat made free in a wheel's set (R116, R124 case 3); a RESIDENT-F wheel has none. The oldest VATTED wheel of a full set is fetched; none when every one is pressed.
(DESIGN CHOICE, log entry 73, safe.) -/
def State.makeRoom (s : State) (wh : Nat) : Option State :=
  let same := s.wheels.filter fun x => x.state.hasVat && homeDie x.wheel == homeDie wh && vatSet x.wheel == vatSet wh
  if same.length < 16 then some s
  else
    let vatted := same.filter fun x => decide (x.state = .vatted)
    match (sortByKey (fun x => x.stamp) vatted).head? with
    | none => none
    | some v => some (s.finishPress v (some .residentS))

/-- A unit handled by the owning service group (R117, R119, R124), and whether it was, or must wait for its wheel. -/
def State.vatUnit (s : State) (wh : Nat) (reqs : List AtomReq) : Bool × State :=
  let stamp := s.nextId
  let t := { s with nextId := s.nextId + 1 }
  match s.wheelAt wh with
  | some { state := .pressing, .. } => (false, s)
  | some w =>
    if decide (w.state = .vatted) then
      match unitEntries reqs with
      | none => t.pressFor w reqs
      | some u =>
        let trial := appendUnit w.vat u
        if 64 < trial.length then t.pressFor w reqs
        else (true, { t with wheels := setWheel { w with vat := trial, stamp := stamp } t.wheels })
    else (true, reqs.foldl (fun s r => s.applyReq w.state wh r) t)
  | none =>
    match unitEntries reqs with
    | none => (true, reqs.foldl (fun s r => s.applyReq .residentS wh r) (t.forceResident wh))
    | some u =>
      let vat := appendUnit [] u
      if 64 < vat.length then (true, reqs.foldl (fun s r => s.applyReq .residentS wh r) (t.forceResident wh))
      else match t.makeRoom wh with
        | none => (false, s)
        | some t =>
          let t := t.invalidateWheel wh
          (true, { t with wheels := setWheel { wheel := wh, state := .vatted, vat := vat, stamp := stamp } t.wheels })

/-- The first unit of an intake queue whose wheel has no earlier unit waiting and can be handled, handled (R119); presses that units force on
the way begin. -/
def takeUnit (s : State) (skip : List Nat) : List VatUnit → Option VatUnit × State
  | [] => (none, s)
  | u :: us =>
    if skip.elem u.wheel then takeUnit s skip us
    else match s.vatUnit u.wheel u.reqs with
      | (true, t) => (some u, t)
      | (false, t) => takeUnit t (u.wheel :: skip) us

/-- The units that stand in a cluster's intake queue, which holds 512; those behind them wait at their senders (R119). -/
def Cluster.queued (c : Cluster) : List VatUnit := c.intake.take 512
/-- The units that wait outside. -/
def Cluster.outside (c : Cluster) : List VatUnit := c.intake.drop 512

/-- One unit taken from a cluster's intake queue (R119). -/
def State.intakeStep (s : State) (cluster : Nat) : State :=
  match takeUnit s [] (s.cluster cluster).queued with
  | (none, t) => t
  | (some u, t) => (t.updCluster cluster fun c => { c with intake := removeFirst (fun x => decide (x = u)) c.intake }).afterUnit u

/-- Whether a cluster's intake queue has a unit that can be handled, or that would force a press. -/
def State.intakeDue (s : State) (cluster : Nat) : Bool :=
  let q := (s.cluster cluster).queued
  (takeUnit s [] q).1.isSome || q.any fun u => (s.wheelAt u.wheel).any fun w => decide (w.state = .vatted)

/-- A unit sent to its service group (R110, R119) by a sender, of another module or not: handled at once, or queued when steps are deferred or it
must wait. -/
def State.sendUnitFrom (s : State) (src : Option Nat) (ident core wh : Nat) (reqs : List AtomReq) : State :=
  let u : VatUnit := { ident := ident, core := core, wheel := wh, reqs := reqs, src := src }
  let q := fun (s : State) => s.updCluster (owningCluster wh) fun c => { c with intake := c.intake ++ [u] }
  if s.defer then q s
  else match s.vatUnit wh reqs with
    | (true, t) => t.afterUnit u
    | (false, t) => q t

/-- The same for a unit of this module. -/
def State.sendUnit (s : State) (ident core wh : Nat) (reqs : List AtomReq) : State := s.sendUnitFrom none ident core wh reqs

/-- The STORE units of an engine's write to a vat-managed wheel: whole words, and single bytes at ragged ends (R115, R336). -/
def storeReqs : Nat → Nat → List Byte → List AtomReq
  | 0, _, _ => []
  | n + 1, pa, bs =>
    if bs.isEmpty then []
    else
      let k := if pa % 4 = 0 ∧ 4 ≤ bs.length then 4 else 1
      { lane := 0, addr := pa, size := k, op := opStore, operand := BitVec.ofNat 128 (fromBytes (bs.take k)) } :: storeReqs n (pa + k) (bs.drop k)

/-- How a global access is served. -/
inductive Route where
  | window
  | control
  | hostCached
  | hostDirect
  | remote
  | vat
  | uncached
  | closed
  | plain
  deriving DecidableEq, Repr

/-- Whether a line is enabled in its home die's recorded-line table while RRCTL.MODE is 1 or 2 (R376, R377). -/
def State.recorded (s : State) (line : Nat) : Bool :=
  (field s.ctl.rrctl 0 2 == 1 || field s.ctl.rrctl 0 2 == 2)
    && (s.die (homeDie line)).recLines.any fun r => r.entry.getLsbD 64 && field r.entry 6 46 * 64 == line

/-- Whether a Cave address lies in the vat area, the vat table or the user area, which no global access reaches (Table 04-5).
(DESIGN CHOICE, log entry 74, unsafe.) -/
def closedCave (l : Nat) : Bool :=
  let off := l % 0x2000000
  (decide (0x100000 ≤ off) && decide (off < 0x940000)) || decide (0xC00000 ≤ off)

/-- The route of an access to a physical address under a leaf (Table 04-1, R110, R179, R182, R188). (DESIGN CHOICE, log entry 74, unsafe.) -/
def State.route (s : State) (pte : W64) (pa : Nat) : Route :=
  if moduleOf pa != s.module then .remote
  else match placeOf (localOf pa) with
    | .window _ => .window
    | .cave _ => if closedCave (localOf pa) then .closed else .window
    | .control => .control
    | .host => if pteBit pte 10 then .hostDirect else .hostCached
    | .reserved => .plain
    | .hbm =>
      let busy := match s.wheelAt (wheelOf pa) with
        | some w => w.state.hasVat || (match w.state with
          | .residentF _ _ _ => true
          | _ => false)
        | none => false
      if pteBit pte 7 || busy then .vat
      else if s.recorded (lineOf pa) then .uncached else .plain

/-- The device's copy of a host line, fetched to its home slice if it is not held (R79, R80, R182), and beneath the valid bytes of one that is held in
part (R66). (DESIGN CHOICE, log entry 57, unsafe.) -/
def State.hostFetch (s : State) (line : Nat) : State :=
  let s := s.fill line
  match s.hostCopies.find? (fun h => h.line == line) with
  | some h =>
    if h.valid = BitVec.allOnes 64 then s
    else { s with hostCopies := s.hostCopies.map fun x => if x.line == line then { h with bytes := s.hostBytes h, valid := BitVec.allOnes 64 } else x }
  | none => { s with hostCopies := s.hostCopies ++ [{ line := line, bytes := s.hostMem line, dirty := 0 }] }

/-- A device copy of a host line without a byte of it, which a store that misses is merged into (R66). -/
def State.hostAlloc (s : State) (line : Nat) : State :=
  if s.hostCopies.any fun h => h.line == line then s
  else { s with hostCopies := s.hostCopies ++ [{ line := line, bytes := List.replicate 64 0, dirty := 0, valid := 0 }] }

/-- Whether a core's own copy of a line serves a load of some bytes of it (R94). -/
def State.l1Serves (s : State) (core line : Nat) (bm : W64) : Bool := (s.l1Of core line).any fun c => c.serves .full bm

/-- Whether the device holds bytes of a host line, in its slice or in the copy of the loading core (R66, R182). -/
def State.hostHolds (s : State) (core line : Nat) (bm : W64) : Bool :=
  match s.hostCopies.find? (fun h => h.line == line) with
  | some h => h.valid = BitVec.allOnes 64 || s.l1Serves core line bm
  | none => false

/-- A load of bytes of a host line that the device may cache (R182): a hit in the core's L1, or the line fetched and merged first. -/
def State.hostLoad (s : State) (core line : Nat) (bm : W64) (cache : Nat) : List Byte × State :=
  (if s.l1Serves core line bm then s else s.hostFetch line).loadBytes core line bm .full false cache

/-- The format at which a load of another module is performed: full for pages with NOSUB or VAT, outside HBM, and for recorded lines (R92). -/
def State.remoteTag (s : State) (pte : W64) (pa : Nat) (t : Tag) : Tag :=
  if pteBit pte 7 || pteBit pte 8 || placeOf (localOf pa) != .hbm || s.recorded (lineOf pa) then .full else t

/-- Whether the slice holds a line of another module at a format or at full (R190). -/
def State.holdsRemote (s : State) (t : Tag) (line : Nat) : Bool := s.l2.any fun l => l.line == line && (l.remote.elem t || l.remote.elem .full)

/-- The 32 lines of a wheel of another module installed at the slice and marked with a format (R190). -/
def State.installRemote (s : State) (wheel : Nat) (tag : Tag) : State :=
  (wheelLines wheel).foldl (fun s l =>
    let s := s.fill l
    { s with l2 := s.l2.map fun x => if x.line == l && !x.remote.elem tag then { x with remote := x.remote ++ [tag] } else x }) s

/-- Bytes of one line as the module has them. -/
def State.bytesAt (s : State) (pa n : Nat) : List Byte := ((s.lineBytes (lineOf pa)).drop (pa % 64)).take n

/-- A write performed outside the module: there poison ends where it writes (R86, R186), and monitors of the lines wake. -/
def State.outsideWrite (s : State) (pa : Nat) (bs : List Byte) : State :=
  let s := { s with mem := s.mem.writeBytes pa bs }
  ((splitLines pa bs).foldl (fun s x => s.unpoison x.1 x.2.length) s).wake pa bs.length

/-- A store to a global location that passed its checks, to a place other than a service group. A store to an area that no global access
reaches has no effect. (DESIGN CHOICE, log entry 74, unsafe.) -/
def State.globalStore (s : State) (core : Nat) (pte : W64) (pa : Nat) (bs : List Byte) (cache : Nat) : State :=
  match s.route pte pa with
  | .window => (s.caveWrite pa bs).wake pa bs.length
  | .control => s
  | .closed => s
  | .hostDirect => s.outsideWrite pa bs
  | .hostCached => (if cache = 2 then s.hostFetch (lineOf pa) else s.hostAlloc (lineOf pa)).l1Store core cache pa bs
  | .remote => s.outsideWrite pa bs
  | .uncached => s.sliceWrite pa bs
  | .vat => s.sliceWrite pa bs
  | .plain => s.l1Store core cache pa bs

/-! ### The pending-store buffers (R142) -/

/-- The stores that wait in a die's buffer for a line, oldest first. -/
def State.pendingFor (s : State) (die line : Nat) : List PendStore := s.stores.filter fun x => dieOf x.core == die && lineOf x.pa == line

/-- A waiting store's line is granted, or its write-through reaches the home slice (R97, R142): it is performed there.
(DESIGN CHOICE, log entry 68, unsafe.) -/
def State.performStore (s : State) (x : PendStore) : State :=
  let s := { s with stores := s.stores.filter fun y => y.id != x.id }
  match s.route x.pte x.pa with
  | .vat => s.sendUnit x.ident x.core (wheelOf x.pa)
      [{ lane := 0, addr := x.pa, size := x.bytes.length, op := opStore, operand := BitVec.ofNat 128 (fromBytes x.bytes) }]
  | _ => s.globalStore x.core x.pte x.pa x.bytes x.cache

/-- Every store that a die's buffer holds for a line performed, in order; for a run of bytes; every store of the die. -/
def State.drainLine (s : State) (die line : Nat) : State := (s.pendingFor die line).foldl State.performStore s
def State.drainRun (s : State) (die pa n : Nat) : State := (linesOf pa n).foldl (fun s l => s.drainLine die l) s
def State.drainDie (s : State) (die : Nat) : State := (s.stores.filter fun x => dieOf x.core == die).foldl State.performStore s

/-- What a load of a core takes from its die's buffer (R142): bytes all of which the latest waiting store that meets them writes; a load of bytes of
several stores waits for them, since it reads all of its bytes at one point in coherence order (R134). -/
def State.forwarded (s : State) (core pa n : Nat) : Option (List Byte) :=
  match (s.pendingFor (dieOf core) (lineOf pa)).reverse.find? fun x => decide (x.pa < pa + n) && decide (pa < x.pa + x.bytes.length) with
  | some x => if x.pa ≤ pa ∧ pa + n ≤ x.pa + x.bytes.length then some ((x.bytes.drop (pa - x.pa)).take n) else none
  | none => none

/-! ### Loads and read-modify-writes -/

/-- A load of a vat-managed wheel that has a vat or a frame (R120): no core of the die reads an older value later (R141). -/
def State.vatLoad (s : State) (core : Nat) (w : Wheel) (pa n : Nat) : List Byte × State :=
  let s := s.settleOwn core pa n
  (s.mergedRead pa n, s.findBad w)

/-- A load of a global location that passed its checks (R64, R78, R94, R120, R182, R188): the bytes, and what the load changed. An area that
no global access reaches reads as free values. (DESIGN CHOICE, log entry 74, unsafe.) -/
def State.globalLoad (s : State) (core : Nat) (pte : W64) (pa n : Nat) (t : Tag) (upd : Bool) (cache : Nat) : List Byte × State :=
  match s.route pte pa with
  | .window => (s.mem.readBytes pa n, s)
  | .control => (s.mem.readBytes pa n, s)
  | .closed => ((List.range n).map fun k => Config.freeByte (s.free + k), { s with free := s.free + n })
  | .hostDirect => (overWrites ((s.fabric.filter fun r => r.posted && !r.strong).flatMap fun r => r.writes) pa (s.mem.readBytes pa n), s)
  | .hostCached =>
    let (bs, s) := s.hostLoad core (lineOf pa) (byteMask (pa % 64) n) cache
    ((bs.drop (pa % 64)).take n, s)
  | .remote =>
    let t := s.remoteTag pte pa t
    if pteBit pte 7 || placeOf (localOf pa) != .hbm then (s.bytesAt pa n, s)
    else if s.recorded (lineOf pa) then (s.bytesAt pa n, s.fill (lineOf pa))
    else (if s.holdsRemote t (lineOf pa) then s else s.installRemote (wheelOf pa) t).loadLine core pa n t upd cache
  | .vat =>
    let s := s.drainLine (dieOf core) (lineOf pa)
    match s.wheelAt (wheelOf pa) with
    | some w => if w.state = .residentS then s.loadLine core pa n .full false cache else s.vatLoad core w pa n
    | none => s.loadLine core pa n .full false cache
  | .uncached =>
    let s := s.drainLine (dieOf core) (lineOf pa)
    (s.bytesAt pa n, s.fill (lineOf pa))
  | .plain =>
    let t := if pteBit pte 8 then .full else t
    match if t = .full then s.forwarded core pa n else none with
    | some bs => (bs, s)
    | none => (s.drainLine (dieOf core) (lineOf pa)).loadLine core pa n t upd cache

/-- The dirty bytes of the device's copy of a host line sent to the host for a group, and every copy of the line dropped (R183, R184). -/
def State.hostDropFor (s : State) (ident launch core : Nat) (va : W64) (line : Nat) : State :=
  let s := s.invalidateLine line
  match s.hostCopies.find? (fun h => h.line == line) with
  | none => s
  | some h =>
    let s := s.hostBack ident launch core va h
    { s with hostCopies := s.hostCopies.filter (fun h => h.line != line), l2 := s.l2.filter fun l => l.line != line }

/-- The posted writes towards bytes of the host's memory have arrived, since a later request of the module follows them on their way (R177). -/
def State.landAt (s : State) (pa n : Nat) : State :=
  let mine := fun (r : FabReq) => r.posted && r.host && r.writes.any fun w => decide (w.1 < pa + n) && decide (pa < w.1 + w.2.length)
  { s with mem := ((s.fabric.filter mine).flatMap fun r => r.writes).foldl (fun m w => m.writeBytes w.1 w.2) s.mem
           fabric := s.fabric.filter fun r => !mine r }

/-- A read-modify-write at the place where an atomic is performed (Table 16-5, R306): the old value and the state after it. Stores of the
issuing die that wait for the line come first (R136, R142). (DEDUCED, log entry 69, safe.) (DESIGN CHOICE, log entry 74, unsafe.) -/
def State.globalRmw (s : State) (die : Nat) (pte : W64) (sysScope : Bool) (r : AtomReq) : Nat × State :=
  let s := s.drainRun die r.addr r.size
  let slice := fun (s : State) =>
    let o := fromBytes (s.bytesAt r.addr r.size)
    (o, s.sliceWrite r.addr (toBytes r.size (r.new o)))
  match s.route pte r.addr with
  | .hostCached =>
    if sysScope then
      let s := (s.hostDropFor noIdent 0 (32 * die) 0 (lineOf r.addr)).landAt (lineOf r.addr) 64
      let o := s.mem.readNat r.addr r.size
      (o, s.outsideWrite r.addr (toBytes r.size (r.new o)))
    else slice (s.hostFetch (lineOf r.addr))
  | .vat =>
    let s := s.forceResident (wheelOf r.addr)
    match s.wheelAt (wheelOf r.addr) with
    | some w =>
      let o := fromBytes (match w.state with
        | .residentF cave place off => s.frameRead cave place (off + (r.addr - w.wheel)) r.size
        | _ => s.mem.readBytes r.addr r.size)
      (o, (s.applyReq w.state w.wheel r).wake r.addr r.size)
    | none => (s.mem.readNat r.addr r.size, s)
  | .window =>
    let o := s.mem.readNat r.addr r.size
    (o, (s.caveWrite r.addr (toBytes r.size (r.new o))).wake r.addr r.size)
  | .remote =>
    let o := s.mem.readNat r.addr r.size
    (o, s.outsideWrite r.addr (toBytes r.size (r.new o)))
  | .closed => ((Config.freeDouble s.free).toNat % 2 ^ (8 * r.size), { s with free := s.free + 1 })
  | _ => slice s

/-! ### Posted requests outside the module (R177, R188, R192) -/

/-- What a posted request that has arrived does there: its writes, a strong one being merged into the module's own copies only now (R142), or its
atomics in lane order (R306). -/
def State.settleOne (s : State) (r : FabReq) : State :=
  let s := { s with fabric := s.fabric.filter fun x => x.id != r.id }
  let s := r.atoms.foldl (fun s a => (s.globalRmw (dieOf r.core) a.pte a.sys a.req).2) s
  r.writes.foldl (fun s w =>
    let line := lineOf w.1
    if r.strong && moduleOf w.1 != s.module && (s.versionOf line).isSome then
      let old := s.lineBytes line
      let s := s.outsideWrite w.1 w.2
      (s.compareWrite (some r.core) line old (s.lineBytes line)).bump line
    else s.outsideWrite w.1 w.2) s

/-- The bytes that a posted request writes, and whether it writes some of a run. -/
def FabReq.spans (r : FabReq) : List (Nat × Nat) := r.writes.map (fun w => (w.1, w.2.length)) ++ r.atoms.map fun a => (a.req.addr, a.req.size)
def FabReq.meets (r : FabReq) (pa n : Nat) : Bool := r.spans.any fun x => decide (x.1 < pa + n) && decide (pa < x.1 + x.2)

/-- A posted request outside the module has been acknowledged, or has left the port: earlier ones to the same bytes have arrived before it. -/
def State.settlePosted (s : State) (r : FabReq) : State :=
  let before := (s.fabric.takeWhile fun x => x.id != r.id).filter fun x => x.posted && r.spans.any fun y => x.meets y.1 y.2
  (before.foldl State.settleOne s).settleOne r

/-- Every posted write towards the host that is on its way lands, in the order they were performed at the port. -/
def State.landHost (s : State) : State := (s.fabric.filter fun r => r.posted && r.host).foldl State.settlePosted s

/-- An MSI-X message sent: a posted write, behind every earlier one (R177). -/
def State.sendMsix (s : State) (v : Nat) : State :=
  let s := s.landHost
  { s with msix := s.msix ++ [v] }

/-- A write of the device itself, of no program's path, to global memory (a sample, a fault record, a stamp): a vat-managed wheel takes it as a unit
(R110), the other places at once. -/
def State.agentWrite (s : State) (core pa : Nat) (bs : List Byte) : State :=
  if bs.isEmpty then s
  else (splitLines pa bs).foldl (fun s x =>
    match s.route 0 x.1 with
    | .vat => s.sendUnit noIdent core (wheelOf x.1) (storeReqs x.2.length x.1 x.2)
    | .window => (s.caveWrite x.1 x.2).wake x.1 x.2.length
    | _ => (s.drainLine (dieOf core) (lineOf x.1)).sliceWriteLine x.1 x.2) s

end Sys2Proof.Machine
end

