-- ==== Sys2Proof/Machine/Ops.lean ====
section
/-!
DEFINITION. What every instruction shares: the checks before it has any effect (R198, R207, R233 to R237, R242, R159), its completion, the
waits, transaction aborts (R160 to R164, R171), taking a trap (R356, R358) and returning from one (R359).
-/
namespace Sys2Proof.Machine
open Sys2Proof

/-- The outcome of one step. -/
abbrev Out := Host.Outcome State Fault Refusal

/-! ### Transaction status -/

/-- A lane's status word (R169). -/
def Group.txWord (g : Group) (l : Nat) : W32 := g.txst.getD l 0
/-- A lane's log (R156). -/
def Group.laneTx (g : Group) (l : Nat) : LaneTx := g.tx.getD l {}
/-- A lane's status word replaced. -/
def Group.setTxWord (g : Group) (l : Nat) (x : W32) : Group := { g with txst := g.txst.set l x }
/-- A lane's log replaced by a function of it. -/
def Group.updTx (g : Group) (l : Nat) (f : LaneTx → LaneTx) : Group := { g with tx := modifyAt f l g.tx }

/-- Whether a lane is transactional (ACT), and whether its attempt is irrevocable (IRREV). -/
def Group.inTx (g : Group) (l : Nat) : Bool := (g.txWord l).getLsbD 0
def Group.irrev (g : Group) (l : Nat) : Bool := (g.txWord l).getLsbD 2
/-- ABORTS and CAUSE (Table 08-3). -/
def txAborts (x : W32) : Nat := field x 12 4
def txCause (x : W32) : Nat := field x 8 4

/-- Abort causes (Table 08-3). -/
def causeConflict : Nat := 1
def causeValidate : Nat := 2
def causeLogfull : Nat := 3
def causeExplicit : Nat := 4
def causeTrap : Nat := 5
def causePreempt : Nat := 6

/-- The lanes of a path that are transactional. -/
def Group.txIn (g : Group) (m : W32) : W32 := m &&& g.txLanes

/-- An abort discards the lane's log and records its cause (R162): CONFLICT, VALIDATE and LOGFULL count, TRAP records its code. -/
def Group.abortLane (cause fcode : Nat) (g : Group) (l : Nat) : Group :=
  let x := g.txWord l
  let x := if cause ≤ 3 then setField x 12 4 (min 15 (txAborts x + 1)) else x
  let x := setField x 8 4 cause
  let x := if cause = causeTrap then setField x 18 6 fcode else x
  (g.setTxWord l x).updTx l fun t => { t with reads := [], writes := [], retry := true, atTend := false, atTabt := false }

/-- The slab is freed when no lane of the group is transactional (R156). -/
def Group.dropSlab (g : Group) : Group := if g.txLanes = 0 then { g with slab := false } else g

/-- What a validation needs of the lines it will read: dirty bytes written back, pending vats pressed, lines present (R125, R158, R161). -/
def State.prepareLine (s : State) (e : LogEntry) : State :=
  let s := match s.wheelAt (wheelOf e.pa) with
    | some w => if w.state.hasVat then s.forceResident (wheelOf e.pa) else s
    | none => if e.vat then s.forceResident (wheelOf e.pa) else s
  (s.recall (lineOf e.pa) true).fill (lineOf e.pa)

/-- The lines of a lane's log prepared for validation. -/
def State.prepareLane (s : State) (t : LaneTx) : State := (t.reads ++ t.writes).foldl (fun s e => s.prepareLine e) s

/-- Whether a read entry is valid (R160): by value against what its wheel holds, in a frame or at the slice (R125). -/
def State.entryValid (s : State) (e : LogEntry) : Bool :=
  if e.kind = 0 then fromBytes (s.mergedRead e.pa e.size) == e.data.toNat
  else match s.versionOf (lineOf e.pa) with
    | some v => v.toNat == e.data.toNat
    | none => false

/-- Whether every read entry of a lane is valid (R160). -/
def State.laneValid (s : State) (t : LaneTx) : Bool := t.reads.all s.entryValid

/-- The back-off count of R163 for a path whose largest ABORTS is `a`. -/
def backoff (a draw : Nat) : Nat :=
  let w := min (32 * 2 ^ (a - 1)) 4096
  w / 2 + draw % (w / 2)

/-- The largest ABORTS among lanes. -/
def Group.maxAborts (g : Group) (m : W32) : Nat := (lanesOf m).foldl (fun a l => max a (txAborts (g.txWord l))) 0

/-- A fresh back-off draw (R163). -/
def State.draw (s : State) : Nat × State := (Config.backoffDraw s.free, { s with free := s.free + 1 })

/-- Lanes taken out of every slot and entry. -/
def Group.takeLanes (g : Group) (m : W32) : Group :=
  { g with a := { g.a with exm := g.a.exm &&& ~~~m }, b := { g.b with exm := g.b.exm &&& ~~~m }
           save := g.save.map fun e => { e with mask := e.mask &&& ~~~m } }

/-- Where a lane begins again: its restart address, and the depth and frame tag of its region (R164). -/
def Group.restartAt (g : Group) (l : Nat) : W64 × Nat × BitVec 16 := ((g.laneTx l).restart, (g.laneTx l).depth, (g.laneTx l).tag)

/-- Lanes that aborted at one instruction or by one GroupCommit park in back-off as one path, or as one for each place at which they restart
where their region instances have several (R162, R164); none where too few save-area entries are free. -/
def State.backOff (s : State) (m : W32) : Option State :=
  let keys := dedup ((lanesOf m).map s.g.restartAt)
  if s.g.freeEntries < keys.length then none
  else some (keys.foldl (fun s k =>
    let mine := maskBy fun l => laneOn m l && s.g.restartAt l == k
    let (draw, s) := s.draw
    { s with g := s.g.push { state := .parked .backoff, pc := k.1, mask := mine, depth := k.2.1, frame := k.2.2, seq := 0,
                             maddr := 0x2000000000000000, deadline := s.clock + backoff (s.g.maxAborts mine) draw, begun := s.clock } })
    { s with g := s.g.takeLanes m })

/-! ### Registers in flight -/

/-- One result in flight written to the lanes it still may write (R238). -/
def Group.land (g : Group) (r : Inflight) : Group :=
  match r.val with
  | .lanes x => { g with v := g.v.set r.reg.num ((List.range 32).map fun l =>
      if laneOn r.mask l then x.getD l 0 else (g.readV r.reg.num).getD l 0) }
  | .word x =>
    if r.reg.cls = 2 then { g with p := g.p.set r.reg.num (((g.readP r.reg.num) &&& ~~~r.mask) ||| (BitVec.ofNat 32 x.toNat &&& r.mask)) }
    else if r.reg.cls = 1 then g.writeS r.reg.num x else g

/-- Every result in flight written, oldest first (R356 step 2), but those whose return slots are still awaited (R108). -/
def Group.landAll (g : Group) : Group :=
  { (g.inflight.filter fun x => x.await.isNone).foldl Group.land g with inflight := g.inflight.filter fun x => x.await.isSome }

/-- A later write to a register discards the results still in flight for it, lane by lane (R238). -/
def Group.overtake (g : Group) (r : RegName) (m : W32) : Group :=
  { g with inflight := (g.inflight.map fun x => if x.reg = r then { x with mask := x.mask &&& ~~~m } else x).filter fun x => x.mask != 0 }

/-! ### Taking a trap -/

/-- The group slot number as `xcause` holds it; the status words of an event (Table 19-1). -/
def TrapEvent.cause (e : TrapEvent) : W64 :=
  BitVec.ofNat 64 ((if e.card.isSome then 0 else e.slot * 2 ^ 18) + (if e.inB then 2 ^ 17 else 0) + (if e.txab then 2 ^ 16 else 0) + e.info * 2 ^ 8
    + (if e.async then 2 ^ 7 else 0) + e.code)

/-- The order in which a trap context serves events: time stamp, then group slot (R355). -/
def TrapEvent.key (e : TrapEvent) : Nat := e.stamp.toNat * 128 + e.slot

/-- The trap context of a core started at an address (R355): slot A live with all lanes, nothing parked. (DEDUCED, log entry 25, safe.) -/
def startContext (pc : W64) (clock : Nat) (g : Group) : Group :=
  { g with a := { live := true, pc := pc, exm := BitVec.allOnes 32, entered := clock, lastIssue := clock }, b := {}, inB := false,
           save := [], status := .running }

/-- A save request whose group runs again or is held, because an ASYNC event of it was served first (R362), waits at its group as before.  -/
def State.askSavesAgain (s : State) (c : Nat) : State :=
  let again := fun (e : TrapEvent) => e.code == 0 && e.card.isNone
    && (s.groupAt c e.slot).any fun g => decide (g.status = .running) || decide (g.status = .held)
  ((s.core c).events.filter again).foldl (fun s e => s.updGroup c e.slot fun g => { g with saveAsked := true })
    (s.updCore c fun k => { k with events := k.events.filter fun e => !again e })

/-- The next event of a core started, if its context serves none (R355, R356 step 3): the trap registers are written and the context
begins at vector base + 64 × CODE. The context of a core that has been dumped serves only the debugger (R372). (DEDUCED, log entry 25, safe.) -/
def State.startEvent (s : State) (c : Nat) : State :=
  let s := s.askSavesAgain c
  let k := s.core c
  match k.serving, k.events with
  | none, e :: rest =>
    let ready : Bool := !k.frozenPosted && match s.groupAt c e.slot with
      | some g => decide (g.status = .stopped)
      | none => e.card.isSome
    if ready then
      let s := s.updCore c fun k =>
        { k with events := rest, serving := some e.slot, served := some e, xcause := e.cause, xpc := e.pc &&& 0x01FFFFFFFFFFFFFF, xaddr := e.addr, xmask := e.mask }
      s.updGroup c 64 (startContext (k.vbase + BitVec.ofNat 64 (64 * e.code)) s.clock)
    else s
  | _, _ => s

/-- Every path parked in `mwait` of a group made ready. -/
def Group.wakeAll (clock : Nat) (g : Group) : Group :=
  Group.refill clock { g with save := g.save.map fun e => if decide (e.state = .parked .mwait) then e.readied else e }

/-- An event queued at a core, which wakes its trap context where it is parked in `mwait` (R355). -/
def State.queueEvent (s : State) (c : Nat) (e : TrapEvent) : State :=
  (s.updCore c fun k => { k with events := insertByKey TrapEvent.key e k.events }).updGroup c 64 (Group.wakeAll s.clock)

/-- The issuing path stops before its run and every other path at its next boundary (R356 steps 1 and 2). With nothing deferred the
group is stopped at once: its results in flight are written. -/
def Group.stop (g : Group) (defer : Bool) : Group :=
  let g := { g with a := g.a.rewind, b := g.b.rewind }
  if defer && (!g.inflight.isEmpty || g.commits.any fun k => !k.held.isEmpty) then { g with status := .stopping }
  else { g.landAll with status := .stopped }

/-- A trap of the issuing path delivered (R356, R358). -/
def State.deliver (s : State) (t : Trap) (txab async : Bool) : State :=
  let c := s.cur
  let e : TrapEvent :=
    { slot := s.g.slot, inB := s.g.inB, code := t.code, info := t.info, txab := txab, async := async, pc := c.runPc,
      addr := t.addr, mask := t.mask.getD c.exm, stamp := s.tstamp, vas := t.vas }
  let s := { s with g := { s.g.stop s.defer with early := [] } }
  (s.queueEvent s.g.core e).startEvent s.g.core

/-- Lanes of the group whose transactions are open: not irrevocable, not committing, and not aborted and waiting to begin again. A lane that waits
at `tabt` for its turn (R165) is still open: a trap meanwhile aborts it anew. (DESIGN CHOICE, log entry 86, unsafe.) -/
def Group.openLanes (g : Group) : W32 :=
  maskBy fun l => g.inTx l && !g.irrev l && !(g.laneTx l).retry && !(g.commits.any fun k => laneOn k.lanes l && !k.held.isEmpty)

/-- A trap inside a transaction (R171): lanes whose read logs fail leave with VALIDATE, and the instruction issues again without them, or is
passed over where no lane remains; otherwise every open transaction of the group aborts with TRAP and the trap is delivered. -/
def State.trapInTx (s : State) (t : Trap) : State :=
  let g := s.g
  let m := (t.mask.getD s.exm) &&& g.openLanes
  let s1 := (lanesOf m).foldl (fun s l => s.prepareLane (g.laneTx l)) s
  let bad := maskBy fun l => laneOn m l && !s1.laneValid (g.laneTx l)
  let parked := if bad = 0 then none
    else ({ s1 with g := (lanesOf bad).foldl (fun g l => g.abortLane causeValidate 0 l) s1.g }).backOff bad
  match parked with
  | some u => u.setCur (if u.exm = 0 then { u.cur with hints := {} }.goto (s.cur.pc + 4) else u.cur.rewind)
  | none =>
    let all := g.openLanes
    let g' := (lanesOf all).foldl (fun g l => (g.abortLane causeTrap t.code l).updTx l fun x => { x with restarts := true }) s1.g
    let g' := { g' with commits := g'.commits.filter fun k => !k.held.isEmpty }
    ({ s1 with g := g' }).deliver t true t.async

/-- A trap raised by the issuing path's instruction. One of a path without an open transaction leaves those of the group's other paths open (R171 speaks
of an instruction inside a transaction). The manual describes no trap of a trap context itself. (DEDUCED, log entry 26, safe.)
(DESIGN CHOICE, log entry 86, unsafe.) -/
def State.takeTrap (s : State) (t : Trap) : Out :=
  if s.g.slot = 64 then .fault (.trapInTrapContext t.code)
  else if s.g.txIn s.exm &&& s.g.openLanes = 0 then .next (s.deliver t false t.async)
  else .next (s.trapInTx t)

/-- An instruction that did not complete: it trapped, or it waits where it stands and issues again. -/
def State.raise (s : State) (e : Exc) : Out :=
  match e with
  | .trap t => s.takeTrap t
  | .trapAfter u t => u.takeTrap t
  | .pend u w => .next ({ u with g := { u.g with early := [] } }.setCur { s.cur with exm := u.exm, wait := some w, readyAt := max s.cur.readyAt s.clock })
  | .wait w => .next (s.setCur { s.cur with wait := some w, readyAt := max s.cur.readyAt s.clock })
  | .stop f => .fault f
  | .refuse r => .refused r

/-- A wait of an instruction that runs to its end before a save (R265, R353). -/
def holding {α : Type} (r : Res α) : Res α :=
  match r with
  | .error (.wait .memDep) => .error (.wait .memHold)
  | .error (.pend u .memDep) => .error (.pend u .memHold)
  | r => r

/-! ### Before and after an instruction -/

/-- What an instruction accepts and uses, as its rule states it: registers read and written, selectors, its fixed latency (0 for variable),
the hints it takes, whether it is supervisor-only or illegal inside a transaction, and other conditions that raise IIN. -/
structure Form where
  srcs : List RegName := []
  dsts : List RegName := []
  /-- Destinations of which the form keeps some bits (R239): it waits for results in flight for them, and is no consumer of them. -/
  keeps : List RegName := []
  /-- The lanes that the form writes, where they are not those of the mask (R291). -/
  wrote : Option W32 := none
  sels : List Nat := []
  lat : Nat := 0
  imm : Bool := false
  ords : List Nat := []
  rnd : Bool := false
  sat : Bool := false
  h2 : Bool := false
  b2 : Bool := false
  pkNeeded : Bool := false
  z : Bool := false
  sub : Bool := false
  ext : List Nat := []
  extNeeded : Bool := false
  extDst : Bool := false
  sup : Bool := false
  noTx : Bool := false
  iin : Bool := false
  deriving DecidableEq, Repr

/-- A register name of each class. -/
def rv (n : Nat) : RegName := { cls := 0, num := n }
def rs (n : Nat) : RegName := { cls := 1, num := n }
def rp (n : Nat) : RegName := { cls := 2, num := n }
def rt (n : Nat) : RegName := { cls := 3, num := n }
def ra (n : Nat) : RegName := { cls := 4, num := n }
def rb (n : Nat) : RegName := { cls := 5, num := n }

/-- Whether the form accepts a `hint.mod` at all: one of its fields, or, as the forms that take a `hint.ord` do, CACHE (R234, R298).
(DEDUCED, log entry 81, safe.) -/
def Form.hasMod (f : Form) : Bool := f.rnd || f.sat || f.h2 || f.b2 || f.z || f.sub || !f.ords.isEmpty

/-- Whether a `hint.mod` carries only fields that the form accepts (R236, Table 15-1); CACHE is ignored where it does not apply (R67), and one without
any field is refused by a form that takes none (R234). (DEDUCED, log entry 81, safe.) -/
def Form.takesMod (f : Form) (m : ModHint) : Bool :=
  (f.hasMod || m.cache != 0) && (m.rnd == 0 || f.rnd) && (!m.sat || f.sat) && (m.pk == 0 || (m.pk == 1 && f.h2) || (m.pk == 2 && f.b2))
    && (!m.zero || f.z) && (m.sub == 0 || f.sub) && (!m.upd || f.sub)

/-- Whether the form accepts the hints of its run (R132, R234 to R237). -/
def Form.takesHints (f : Form) (h : Hints) : Bool :=
  (h.imm.isNone || f.imm)
    && (match h.ord with
      | none => true
      | some o => f.ords.elem o.order)
    && (match h.mod with
      | none => !f.pkNeeded
      | some m => f.takesMod m && (!f.pkNeeded || m.pk != 0))
    && (match h.ext with
      | none => !f.extNeeded
      | some e => f.ext.elem e.cls)

/-- The register that a `hint.ext` names. -/
def ExtHint.name (e : ExtHint) : RegName := { cls := e.cls, num := e.reg }

/-- Whether decoding finds no IIN (R198, R207, R233, R237): hints accepted, registers within their allocations, selectors not
reserved, supervisor-only forms issued by supervisor code. -/
def Form.admits (f : Form) (g : Group) (h : Hints) : Bool :=
  f.takesHints h
    && f.srcs.all g.names && f.dsts.all g.names
    && (match h.ext with
      | none => true
      | some e => g.names e.name && (e.sel == 0 || !permReserved (g.permDesc e.sel)))
    && f.sels.all (fun k => k == 0 || !permReserved (g.permDesc k))
    && (!f.sup || g.sup) && !f.iin

/-- Registers the instruction reads, the operand of a `hint.ext` included unless it names a destination. -/
def Form.reads (f : Form) (h : Hints) : List RegName :=
  match h.ext with
  | none => f.srcs
  | some e => if f.extDst then f.srcs else f.srcs ++ [e.name]

/-- MODE of schk (Table 12-7). -/
def Group.schkMode (g : Group) : Nat := field g.schk 0 2

/-- A producer whose count is undersized for a register that the instruction reads (R242). -/
def Form.short (f : Form) (c : Slot) (h : Hints) : Option Producer :=
  c.prods.find? fun p => (f.reads h).elem p.reg && decide (p.sum < p.lat)

/-- What a register holds. -/
def Group.regVal (g : Group) (r : RegName) : RegVal :=
  match r.cls with
  | 0 => .lanes (g.readV r.num)
  | 1 => .word (g.readS r.num)
  | _ => .word (BitVec.ofNat 64 (g.readP r.num).toNat)

/-- The modifiers of the run, none where no `hint.mod` stands. -/
def Hints.mods (h : Hints) : ModHint := h.mod.getD {}

/-- The lanes of a register that a form writes: all of a uniform one, and none of a vector or predicate under an empty mask (R201, R239). -/
def Form.writes (f : Form) (c : Slot) (r : RegName) : W32 :=
  if r.cls == 1 then BitVec.allOnes 32
  else if c.exm = 0 then 0
  else f.wrote.getD (if c.hints.mods.zero then BitVec.allOnes 32 else c.exm)

/-- The path as the instruction begins: its hints are taken, the count that covers it is in force, D grows for every producer, and its own
results become producers if a count covers it (R240, R242). s0 as a destination counts as a register like any other. (DEDUCED, log entry 18, safe.)
(DESIGN CHOICE, log entry 84, unsafe.) -/
def Form.cover (f : Form) (g : Group) (clock : Nat) : Slot :=
  let c := g.cur
  let on := g.schkMode != 2
  let (n, y, rest) := match c.cover with
    | [] => (0, false, [])
    | (n, y) :: rest => (n, y, rest)
  let wrote := f.writes c
  let left : Producer → W32 := fun p => if !f.dsts.elem p.reg then p.mask else if f.lat != 0 then (0 : W32) else p.mask &&& ~~~wrote p.reg
  let kept := (c.prods.map fun p => { p with sum := p.sum + n, mask := left p }).filter fun (p : Producer) => !decide (p.mask = (0 : W32))
  let own := if on && f.lat != 0 && !c.cover.isEmpty then
      (f.dsts.filter fun r => wrote r != 0).map fun r =>
        { reg := r, pc := c.pc, lat := f.lat, sum := n, issued := clock, old := g.regVal r, mask := wrote r : Producer }
    else []
  { c with hints := {}, cover := rest, prods := (kept ++ own).filter (fun p => p.sum < p.lat),
           readyAt := if on then clock + n else clock, giveWay := if on && y then clock + 2 else c.giveWay,
           lastIssue := clock, issuedAt := some clock, readySince := none, wait := none }

/-- What a register held before a producer wrote it, in the lanes that it was the last to write. -/
def Producer.before (p : Producer) (g : Group) : RegVal :=
  match p.old, g.regVal p.reg with
  | .lanes x, .lanes y => .lanes (allLanes.map fun l => if laneOn p.mask l then x.getD l 0 else y.getD l 0)
  | .word x, .word y => .word (if p.reg.cls = 2 then (x &&& p.mask.setWidth 64) ||| (y &&& ~~~(p.mask.setWidth 64)) else x)
  | x, _ => x

/-- Registers that a trusted consumer reads before their producer's latency has passed (R242, Table 12-6). (DEDUCED, log entry 18, safe.) -/
def Form.earlyReads (f : Form) (g : Group) (clock : Nat) (h : Hints) : List (RegName × RegVal) :=
  if g.schkMode = 0 then
    (g.cur.prods.filter fun p => (f.reads h).elem p.reg && decide (p.sum < p.lat) && decide (clock < p.issued + p.lat)).map
      fun p => (p.reg, p.before g)
  else []

/-- The state as the instruction begins. -/
def Form.begin_ (f : Form) (s : State) : State :=
  { s with g := { s.g.setCur (f.cover s.g s.clock) with early := f.earlyReads s.g s.clock s.cur.hints } }

/-- The state as the instruction ends: nothing is read early any more, and the one target without WATCH checks has been performed. -/
def State.finish (s : State) : State := ({ s with g := { s.g with early := [] } }).setCur { s.cur with wskip := false }

/-- The issuing path moved past its instruction. -/
def State.advance (s : State) : State := s.setCur (s.cur.goto (s.cur.pc + 4))

/-- The issuing path moved to an address. -/
def State.jump (s : State) (pc : W64) : State := s.setCur (s.cur.goto pc)

/-- Why an instruction is held by the scoreboard: a result in flight for a register that it reads, which rows 6 and 7 of Table 11-3 tell apart by its
producer, or keeps bits of (R239), or no room for its own results (R227, R228, R238). -/
def Form.pends (f : Form) (g : Group) (h : Hints) : Option Stall :=
  let due := g.inflight.filter fun x => (f.reads h).elem x.reg || f.keeps.elem x.reg
  if due.any (fun x => x.mem) || (decide (32 < g.inflight.length + f.dsts.length) && f.lat == 0 && !f.dsts.isEmpty && !g.inflight.isEmpty) then some .memDep
  else if due.isEmpty then none
  else some .stallCount

/-- A uniform register written with a result: at once, or in flight when steps are deferred and the producer's latency varies (R238). -/
def State.putS (s : State) (var mem : Bool) (n : Nat) (x : W64) : State :=
  let g := s.g.overtake (rs n) (BitVec.allOnes 32)
  if var && s.defer then
    { s with g := { g with inflight := g.inflight ++ [{ mem := mem, reg := rs n, mask := BitVec.allOnes 32, val := .word x }] } }
  else { s with g := g.writeS n x }

/-- A vector register written by WriteVec with a result (R239, R238). -/
def State.putV (s : State) (var mem : Bool) (n : Nat) (mask : W32) (zero : Bool) (val : Nat → W32) : State :=
  if mask = 0 then s
  else
    let m := if zero then BitVec.allOnes 32 else mask
    let g := s.g.overtake (rv n) m
    if var && s.defer then
      { s with g := { g with inflight := g.inflight ++ [{ mem := mem, reg := rv n, mask := m, val := .lanes (writeLanes mask zero (g.readV n) val) }] } }
    else { s with g := g.writeV n mask zero val }

/-- A predicate register's active bits written with a result (R281). -/
def State.putP (s : State) (n : Nat) (mask : W32) (zero : Bool) (val : Nat → Bool) : State :=
  { s with g := (s.g.overtake (rp n) mask).writeP n mask zero val }

/-- An instruction run: IIN first (R275, R294, R316), then an undersized count in checked mode (R242), then TX_ILLEGAL (R159), then the
instruction's own checks and effect, which says itself where the path goes. -/
def Form.control (f : Form) (s : State) (k : Hints → State → Res State) : Out :=
  let h := s.cur.hints
  if !f.admits s.g h then s.takeTrap { code := codeIIN }
  else
    match (if s.g.schkMode = 1 then f.short s.cur h else none) with
    | some p => s.takeTrap { code := codeStallShort, addr := p.pc }
    | none =>
      if (f.noTx || h.ord.isSome) && s.g.txIn s.exm != 0 then s.takeTrap { code := codeTx }
      else match f.pends s.g h with
        | some w => s.raise (.wait w)
        | none => match k h (f.begin_ s) with
          | .ok t => .next t.finish
          | .error e => s.raise e

/-- An instruction that continues at the next word. -/
def Form.run (f : Form) (s : State) (k : Hints → State → Res State) : Out :=
  f.control s fun h t => (k h t).map State.advance

/-- An instruction that always completes. -/
def Form.pure_ (f : Form) (s : State) (k : Hints → State → State) : Out := f.run s fun h t => .ok (k h t)

/-- The rounding mode that RND selects (Tables 02-5, 12-4): RNE when it is 0. -/
def ModHint.mode (m : ModHint) : Nat := if m.rnd = 0 then 0 else m.rnd - 1

/-- The order of the run's `hint.ord`, plain (0 with no hint) treated as none. -/
def Hints.order (h : Hints) : Option OrdHint := h.ord

/-! ### Returning from a trap (R359) -/

/-- The lanes that restart when their group resumes leave their paths for their `tbeg` or `tord` (R171, R173): each as a path of its own, or,
where the save area has no room for so many, one path for each restart place. -/
def Group.restartLanes (clock : Nat) (g : Group) : Group :=
  let m := maskBy fun l => (g.laneTx l).restarts && g.inTx l
  if m = 0 then g
  else
    let emptied := fun (x : W32) => x != 0 && x &&& ~~~m == 0
    let g1 := { g.takeLanes m with save := (g.save.filter fun e => !emptied e.mask).map fun e => { e with mask := e.mask &&& ~~~m }
                                   tx := g.tx.map fun t => { t with restarts := false } }
    let paths := if popMask m ≤ g1.freeEntries then (lanesOf m).map fun l => (g.restartAt l, (BitVec.ofNat 32 (2 ^ l) : W32))
      else (dedup ((lanesOf m).map g.restartAt)).map fun k => (k, maskBy fun l => laneOn m l && g.restartAt l == k)
    let g2 := paths.foldl (fun (x : Group) k => x.push (readyEntry k.1.1 k.2 k.1.2.1 k.1.2.2)) g1
    ({ g2 with a := { g2.a with live := g2.a.live && !emptied g.a.exm }
               b := { g2.b with live := g2.b.live && !emptied g.b.exm } }).settle clock

/-- A stopped group resumed (R359, ACTION 0): the named path continues at an address; no count stays in force (R240). -/
def Group.resume (clock : Nat) (inB : Bool) (pc : W64) (wskip : Bool) (g : Group) : Group :=
  let g := if inB then { g with b := { (g.b.goto pc).endCover with wskip := wskip } }
    else { g with a := { (g.a.goto pc).endCover with wskip := wskip } }
  (({ g with status := .running, fenceWait := [], tlbiWait := [], a := { g.a.endCover with wait := none }, b := { g.b.endCover with wait := none } }).restartLanes clock).settle clock

end Sys2Proof.Machine
end

