-- ==== Sys2Proof/Machine/Operands.lean ====
section
/-!
DEFINITION. Operand forms: immediates widened by `hint.imm` (R235), branch targets (R232), offsets into the on-chip spaces (R50, R70 to
R74), and addresses in modulo buffers (R73).
-/
namespace Sys2Proof.Machine
open Sys2Proof

/-- The combined immediate of a field of `w` bits, as a natural number (R235). -/
def Hints.immNat (h : Hints) (w v : Nat) : Nat :=
  match h.imm with
  | none => v
  | some p => p * 2 ^ w + v

/-- The width of the combined immediate (R235). -/
def Hints.immWidth (h : Hints) (w : Nat) : Nat := if h.imm.isSome then w + 22 else w

/-- The immediate sign-extended from its combined width. -/
def Hints.simm (h : Hints) (w v : Nat) : Int := sextInt (h.immNat w v) (h.immWidth w)

/-- The target of a branch of `w`-bit offset (R232): the branch's own address plus four times the signed offset. -/
def branchTarget (pc : W64) (off w : Nat) : W64 := pc + BitVec.ofInt 64 (4 * sextInt off w)

/-- The workgroup of the issuing group. -/
def State.wgAt (s : State) (key : Nat) : Option Workgroup := s.wgs.find? fun w => w.key == key
def State.myWg (s : State) : Option Workgroup := s.wgAt s.g.wg

/-- The cluster instance of a workgroup. -/
def State.instOf (s : State) (w : Workgroup) : Option Instance :=
  match w.inst with
  | none => none
  | some k => s.insts.find? fun i => i.key == k

/-- The Cave window entry in use for an address space on a die (R77): base offset and size K in bytes. -/
def State.caveEntry (s : State) (die asid : Nat) : Option (Nat × Nat) :=
  ((s.die die).caveWin.find? fun e => e.getLsbD 12 && field e 0 12 == asid).map fun e =>
    (0xC00000 + field e 64 9 * 0x10000, field e 96 9 * 0x10000)

/-- The on-chip spaces of Table 03-4. -/
inductive Space where
  | scratch
  | slice (pos : Nat)
  | cluster
  | cave
  deriving DecidableEq, Repr

/-- The extent of an on-chip space for the issuing group (R50): S, P, C or K. -/
def State.extent (s : State) (sp : Space) : Nat :=
  match sp with
  | .scratch => (s.myWg.map fun w => w.spad).getD 0
  | .slice _ => (s.myWg.map fun w => w.priv).getD 0
  | .cluster => (s.myWg.bind fun w => (s.instOf w).map fun i => i.size).getD 0
  | .cave => ((s.caveEntry (dieOf s.g.core) s.g.asid).map fun e => e.2).getD 0

/-- The thread position of a lane of the issuing group (R195). -/
def State.position (s : State) (l : Nat) : Nat := s.g.gidx * 32 + l

/-- Bytes of an on-chip space at an offset within its extent (R50, R71). -/
def State.chipRead (s : State) (sp : Space) (off n : Nat) : List Byte :=
  match sp with
  | .scratch => match s.myWg with
    | some w => w.cells.readBytes off n
    | none => []
  | .slice pos => match s.myWg with
    | some w => w.cells.readBytes (w.spad + pos * w.priv + off) n
    | none => []
  | .cluster => match s.myWg.bind s.instOf with
    | some i => i.cells.readBytes off n
    | none => []
  | .cave => match s.caveEntry (dieOf s.g.core) s.g.asid with
    | some e => s.mem.readBytes (s.cavePa (dieOf s.g.core) (e.1 + off)) n
    | none => []

/-- The store and the place in it behind an offset of an on-chip space (R50). -/
def State.chipAt (s : State) (sp : Space) (off : Nat) : Option (BadStore × Nat) :=
  match sp with
  | .scratch => some (.wg s.g.wg, off)
  | .slice pos => s.myWg.map fun w => (.wg s.g.wg, w.spad + pos * w.priv + off)
  | .cluster => (s.myWg.bind s.instOf).map fun i => (.inst i.key, off)
  | .cave => (s.caveEntry (dieOf s.g.core) s.g.asid).map fun e => (.cave, s.cavePa (dieOf s.g.core) (e.1 + off))

/-- The physical address of a byte of a store (Table 19-2); the manual gives the scratchpads none. (DEDUCED, log entry 62, safe.) -/
def BadStore.addr (st : BadStore) (off : Nat) : W64 :=
  match st with
  | .cave => BitVec.ofNat 64 off
  | .wg key => Config.chipAddr false key off
  | .inst key => Config.chipAddr true key off
  | .acc cluster => Config.chipAddr true (2 ^ 64 + cluster) off

/-- ECC_UNCORR where some lane consumes spoiled bytes of an on-chip space (R86): lanes, spaces and offsets. (DEDUCED, log entry 62, safe.) -/
def State.checkChip (s : State) (info n : Nat) (ls : List (Nat × Space × Nat)) : Res Unit :=
  match ls.filterMap fun x => (s.chipAt x.2.1 x.2.2).bind fun p => if s.spoiled p.1 p.2 n then some (x.1, p) else none with
  | [] => .ok ()
  | (l, p) :: rest => .error (.trap { code := codeEcc, addr := p.1.addr p.2, mask := some (maskOf (l :: rest.map fun x => x.1)), info := info })

/-- Bytes of an on-chip space written (R50). -/
def State.chipWrite (s : State) (sp : Space) (off : Nat) (bs : List Byte) : State :=
  match sp with
  | .scratch => s.wgWrite s.g.wg off bs
  | .slice pos => match s.myWg with
    | some w => s.wgWrite s.g.wg (w.spad + pos * w.priv + off) bs
    | none => s
  | .cluster => match s.myWg.bind s.instOf with
    | some i => s.instWrite i.key off bs
    | none => s
  | .cave => match s.caveEntry (dieOf s.g.core) s.g.asid with
    | some e => s.caveWrite (s.cavePa (dieOf s.g.core) (e.1 + off)) bs
    | none => s

/-- The lanes' offsets checked for an on-chip access (R316 step 3): MISALIGN before SPAD_BOUNDS; an offset counts as beyond the extent
when it is negative as a signed value or when any of its bytes lies at or beyond the extent (R50, R297). -/
def checkOffsets (extent size info : Nat) (ls : List (Nat × W64)) : Res Unit :=
  let mis := ls.filter fun x => x.2.toNat % size != 0
  let out := ls.filter fun x => decide (extent < x.2.toNat + size)
  match mis, out with
  | m :: _, _ => .error (.trap { code := codeMisalign, addr := m.2, mask := some (maskOf (mis.map fun x => x.1)), info := info })
  | [], o :: _ => .error (.trap { code := codeSpad, addr := o.2, mask := some (maskOf (out.map fun x => x.1)), info := info })
  | [], [] => .ok ()

/-- Fields of a modulo register (Table 04-4). -/
def modBase (b : W64) : Nat := field b 0 22
def modSize (b : W64) : Nat := field b 22 19
def modInc (b : W64) : Int := sextInt (field b 41 22) 22

/-- ModAccess (R73): the checks, and the offset of each lane. -/
def modAccess (extent : Nat) (ptr b : W64) (es info : Nat) : Res (Nat → W64) :=
  let base := modBase b
  let size := modSize b * 16
  let p := ptr.toNat
  let spad : Res (Nat → W64) := .error (.trap { code := codeSpad, addr := ptr, info := info })
  if modSize b = 0 ∨ 262144 < modSize b ∨ base % 16 ≠ 0 then spad
  else if extent < base + size then spad
  else if p < base ∨ base + size ≤ p then spad
  else if p % es ≠ 0 then .error (.trap { code := codeMisalign, addr := ptr, info := info })
  else .ok fun l => BitVec.ofNat 64 (base + (p - base + l * es) % size)

/-- The pointer after an access in a modulo buffer (R73). -/
def modNext (ptr b : W64) : W64 :=
  let base := modBase b
  BitVec.ofNat 64 (base + (((ptr.toNat - base : Nat) + modInc b : Int) % ((modSize b * 16 : Nat) : Int)).toNat)

end Sys2Proof.Machine
end

