-- ==== Sys2Proof/Machine/Flags.lean ====
section
/-!
DEFINITION. Comparison conditions (Tables 13-4, 14-2, 14-5): the machine keeps no flags; a comparison gives a truth value that a branch, a
wait or a predicate register takes at once.
-/
namespace Sys2Proof.Machine
open Sys2Proof

/-- Conditions 0 to 5 on two integers: eq, ne, lt, ge, gt, le. -/
def condInt (cond : Nat) (a b : Int) : Bool :=
  match cond with
  | 0 => a == b
  | 1 => a != b
  | 2 => decide (a < b)
  | 3 => decide (b ≤ a)
  | 4 => decide (b < a)
  | _ => decide (a ≤ b)

/-- A condition on two `n`-bit words, signed or unsigned. -/
def condWord (cond n : Nat) (uns : Bool) (a b : Nat) : Bool :=
  if uns then condInt cond (a % 2 ^ n : Nat) (b % 2 ^ n : Nat) else condInt cond (sextInt a n) (sextInt b n)

/-- The conditions of `vfcmp` (Table 13-4, R281): with a NaN operand only ne and unord hold. -/
def condFloat (cond : Nat) (a b : Nat) : Bool :=
  let x := decodeFmt a fp32
  let y := decodeFmt b fp32
  let nan := x.isNan || y.isNan
  match cond with
  | 0 => XReal.eqv x y
  | 1 => nan || !XReal.eqv x y
  | 2 => !nan && XReal.lt x y
  | 3 => !nan && !XReal.lt x y
  | 4 => !nan && XReal.lt y x
  | 5 => !nan && !XReal.lt y x
  | 6 => !nan
  | _ => nan

end Sys2Proof.Machine
end

