-- ==== Sys2Proof/Machine/Control.lean ====
section
/-!
DEFINITION. Majors 0x00 to 0x06 of chapter 14: nop and hints (R234 to R240), branches, calls and returns, splits, joins, yielding, exit,
traps on purpose, and the mask forms (R254 to R269). `mwait` is in Access.lean, `spawn` and `waitc` are in Launch.lean.
-/
namespace Sys2Proof.Machine
open Sys2Proof

/-! ### nop and hints -/

/-- `nop` (R234): issues and changes nothing; it accepts no hint. -/
def execNop (s : State) : Out := Form.pure_ {} s fun _ t => t

/-- A hint of kind 2 to 5 collected by the run (R234): `put` answers none for a second hint of the kind. -/
def State.hint (s : State) (put : Hints → Option Hints) : Out :=
  match put s.cur.hints with
  | none => s.takeTrap { code := codeIIN }
  | some h => .next (s.setCur { s.cur with hints := h, run := s.cur.run + 1, pc := s.cur.pc + 4, lastIssue := s.clock, issuedAt := some s.clock, readySince := none, wait := none })

/-- `hint.sch` (R240): the counts and yield bits of the next four covered instructions, replacing those pending; no effect when every
result is scoreboarded (Table 12-6). -/
def execHintSch (ymask c4 c3 c2 c1 : Nat) (s : State) : Out :=
  let cover := if s.g.schkMode = 2 then s.cur.cover
    else [(c1, ymask.testBit 0), (c2, ymask.testBit 1), (c3, ymask.testBit 2), (c4, ymask.testBit 3)]
  .next (s.setCur { s.cur with cover := cover, run := s.cur.run + 1, pc := s.cur.pc + 4, lastIssue := s.clock, issuedAt := some s.clock, readySince := none, wait := none })

/-- `hint.imm` (R235). -/
def execHintImm (payload : Nat) (s : State) : Out :=
  s.hint fun h => if h.imm.isSome then none else some { h with imm := some payload }

/-- `hint.ord` (R131, R132); inside a transaction its target raises TX_ILLEGAL, after IIN (R159, R316). -/
def execHintOrd (scope order : Nat) (s : State) : Out :=
  s.hint fun h => if h.ord.isSome then none else some { h with ord := some { order := order, scope := scope } }

/-- `hint.mod` (R236). -/
def execHintMod (upd : Bool) (sub : Nat) (zero : Bool) (pk : Nat) (sat : Bool) (rnd cache : Nat) (s : State) : Out :=
  s.hint fun h => if h.mod.isSome then none else
    some { h with mod := some { upd := upd, sub := sub, zero := zero, pk := pk, sat := sat, rnd := rnd, cache := cache } }

/-- `hint.ext` (R237). -/
def execHintExt (sel cls reg : Nat) (s : State) : Out :=
  s.hint fun h => if h.ext.isSome then none else some { h with ext := some { sel := sel, cls := cls, reg := reg } }

/-! ### The exchange of a `resort` (R209) -/

/-- A thread of a workgroup at a `resort`: its key, its group's place in the list of groups and its lane. -/
structure SortThread where
  key : Nat
  from_ : Nat
  lane : Nat
  deriving DecidableEq, Repr

/-- The groups of a workgroup that take part in a `resort`, by index; the supervisor's own groups are one. -/
def State.sortGroups (s : State) (wg : Nat) : List Group :=
  sortByKey (fun g => g.gidx) (s.allGroups.filter fun g => g.wg == wg && g.slot != 64 && decide (g.status ≠ GroupStatus.draining))

/-- Whether an entry waits at a `resort`. -/
def SaveEntry.sorting (e : SaveEntry) : Bool := decide (e.state = .waitResort)

/-- Whether a live thread that some path of a group holds has not arrived (R209 step 1): a path without lanes holds none (R344). -/
def Group.unsorted (g : Group) : Bool := (g.a.live && g.a.exm != 0) || (g.b.live && g.b.exm != 0) || g.save.any fun e => !e.sorting && e.mask != 0

/-- The live threads of a workgroup in the order of their keys; equal keys keep their position order (R209 step 2). -/
def sortThreads (key : Nat) (gs : List Group) : List SortThread :=
  sortByKey (fun t => t.key) ((gs.zipIdx).flatMap fun x => (lanesOf x.1.lanes).map fun l =>
    { key := (x.1.lane (x.1.sortKey.getD key) l).toNat, from_ := x.2, lane := l })

/-- A group after the exchange (R209 steps 3 to 5): the `n`th thread stands at position `n`, counted over the groups that have not drained.
(DESIGN CHOICE, log entry 87, unsafe.) -/
def placeSorted (clock : Nat) (gs : List Group) (ts : List SortThread) (live : BitVec 128) (at_ : SaveEntry) (i : Nat) (g : Group) : Group :=
  let mine := fun (l : Nat) => ts[32 * i + l]?
  let m := maskBy fun l => (mine l).isSome
  let src := fun (t : SortThread) => gs.getD t.from_ {}
  let e := (g.save.find? SaveEntry.sorting).getD at_
  let g' : Group :=
    { g with
      v := g.v.mapIdx fun k x => if live.getLsbD k then allLanes.map fun l => match mine l with
        | some t => (src t).lane k t.lane
        | none => x.getD l 0 else x
      wid := allLanes.map fun l => match mine l with
        | some t => (src t).wid.getD t.lane 0
        | none => g.wid.getD l 0
      txst := allLanes.map fun l => match mine l with
        | some t => (src t).txWord t.lane
        | none => g.txWord l
      lanes := m, a := { live := true, pc := e.pc + 4, exm := m, depth := e.depth, tag := e.frame, entered := clock, lastIssue := clock }
      b := {}, save := [], sortKey := none, liveMask := 0 }
  if m = 0 then ({ g' with a := {} }).settle clock else g'

/-- Whether every path of a workgroup has arrived at the `resort` at which one waits. -/
def State.sortReady (s : State) (wg : Nat) : Bool :=
  let gs := s.sortGroups wg
  (gs.any fun g => g.save.any SaveEntry.sorting)
    && gs.all fun g => !g.unsorted && decide (g.status = GroupStatus.running) && g.inflight.all fun x => x.await.isNone

/-- The exchange taken when the last path of a workgroup has arrived, and with it every live thread that a path holds (R209, R344). Results in
flight are in their registers before threads move (R238); one that still waits for a service group is waited for (R108). -/
def State.trySort (s : State) (wg : Nat) : State :=
  let gs := s.sortGroups wg
  match gs.findSome? fun g => (g.save.find? SaveEntry.sorting).map fun e => (g.sortKey.getD 0, e) with
  | none => s
  | some (key, at_) =>
    if s.sortReady wg then
      let live := gs.foldl (fun m g => m ||| g.liveMask) (0 : BitVec 128)
      let gs := gs.map Group.landAll
      let ts := sortThreads key gs
      let done := gs.mapIdx fun i g => placeSorted s.clock gs ts live at_ i g
      s.mapGroups fun g => ((done.find? fun d => d.at_ g.core g.slot).getD g)
    else s

/-! ### Leaving a slot -/

/-- Whether an entry is ready. -/
def Group.anyReady (g : Group) : Bool := g.save.any fun e => decide (e.state = .ready)

/-- The issuing path leaves its slot; the group's joins are judged and its slots refilled (R204, R205). -/
def State.leave (s : State) : State := { s with g := (s.g.setCur {}).settle s.clock }

/-- The issuing path written back as a ready entry at an address (R205), or, with all 64 entries in use, giving way for one clock. -/
def State.giveUp (s : State) (pc : W64) : State :=
  if s.g.freeEntries = 0 then (s.jump pc).setCur { (s.jump pc).cur with giveWay := s.clock + 2 }
  else ({ s with g := s.g.push (readyEntry pc s.exm s.cur.depth s.cur.tag) }).leave

/-- A branch of the whole path taken (R205, R256): a long-held backward branch gives up the slot when some entry is ready.
(DEDUCED, log entry 70, safe.) -/
def State.branch (s : State) (target : W64) : State :=
  if decide (target.toNat ≤ s.cur.pc.toNat) && decide (s.cur.entered + 4096 ≤ s.clock) && s.g.anyReady then s.giveUp target
  else s.jump target

/-- A branch taken when a condition holds. -/
def State.branchIf (s : State) (c : Bool) (target : W64) : State := if c then s.branch target else s.advance

/-! ### Branches (R256) -/

/-- `br`. -/
def execBr (off : Nat) (s : State) : Out := Form.control {} s fun _ t => .ok (t.branch (branchTarget t.cur.pc off 22))

/-- `bxz`. -/
def execBxz (off : Nat) (s : State) : Out :=
  Form.control {} s fun _ t => .ok (t.branchIf (t.exm == 0) (branchTarget t.cur.pc off 22))

/-- `bxnz`. -/
def execBxnz (off : Nat) (s : State) : Out :=
  Form.control {} s fun _ t => .ok (t.branchIf (t.exm != 0) (branchTarget t.cur.pc off 22))

/-- `bxall`: taken when no detached lane exists. -/
def execBxall (off : Nat) (s : State) : Out :=
  Form.control {} s fun _ t => .ok (t.branchIf (t.g.claimable &&& ~~~t.exm == 0) (branchTarget t.cur.pc off 22))

/-- `bs`. -/
def execBs (sa cond off : Nat) (s : State) : Out :=
  Form.control { srcs := [rs sa] } s fun _ t =>
    .ok (t.branchIf (condInt cond (t.g.srcS sa).toInt 0) (branchTarget t.cur.pc off 16))

/-! ### Calls and returns (R257 to R260) -/

/-- The link record of a call (Table 14-3). -/
def linkRecord (rpc : W64) (tag : BitVec 16) : List Byte := toBytes 16 (rpc.toNat + tag.toNat * 2 ^ 64)

/-- Call (R258): link records written, a deeper frame entered, and the path at the target; joins that wait for no other path of the frame left go on
(R204). -/
def State.call (s : State) (target : W64) : Res State :=
  let c := s.cur
  let p := s.extent (.slice 0)
  if c.exm = 0 then .ok s.advance
  else if target.toNat % 4 ≠ 0 then .error (.trap { code := codeMisalign, addr := target })
  else if c.depth = 65535 then trapNow codeDivstack
  else if p < 16 * (c.depth + 1) then .error (.trap { code := codeSpad, addr := BitVec.ofInt 64 ((p : Int) - 16 * (c.depth + 1)), info := Kind.store.info })
  else
    let s := (lanesOf c.exm).foldl
      (fun s l => s.chipWrite (.slice (s.position l)) (p - 16 * (c.depth + 1)) (linkRecord (c.pc + 4) c.tag)) s
    let s := s.setCur { c.goto target with depth := c.depth + 1, tag := s.g.frameCtr }
    .ok { s with g := ({ s.g with frameCtr := s.g.frameCtr + 1 }).settle s.clock }

/-- `call`. -/
def execCall (off : Nat) (s : State) : Out := Form.control {} s fun _ t => t.call (branchTarget t.cur.pc off 22)

/-- `calli`. -/
def execCalli (sa : Nat) (s : State) : Out := Form.control { srcs := [rs sa] } s fun _ t => t.call (t.g.srcS sa)

/-- The issuing path split into paths and placed by R203; DIVSTACK_OVF where the save area is too small. -/
def State.split (s : State) (ps : List Path) : Res State :=
  match s.g.placePaths s.clock ps with
  | none => trapNow codeDivstack
  | some g => .ok { s with g := g.settle s.clock }

/-- The link record that a lane's `ret` reads: return address and caller's tag (R259). -/
def State.linkOf (s : State) (l : Nat) : W64 × BitVec 16 :=
  let n := fromBytes (s.chipRead (.slice (s.position l)) (s.extent (.slice 0) - 16 * s.cur.depth) 16)
  (BitVec.ofNat 64 n, BitVec.ofNat 16 (n / 2 ^ 64))

/-- Counts in force kept by a slot whose path goes on elsewhere. -/
def Slot.keepCover (c x : Slot) : Slot := { x with cover := c.cover, prods := c.prods, readyAt := c.readyAt, giveWay := c.giveWay }

/-- The counts in force of a path kept by the paths into which it has been divided, where they stand in slots: `was` says whether the other slot
held a path before. -/
def State.keepCover (s : State) (c : Slot) (was : Bool) : State :=
  let s := s.setCur (c.keepCover s.cur)
  if was || !s.g.other.live then s else { s with g := s.g.setOther (c.keepCover s.g.other) }

/-- `ret` (R259): it ends no count in force, whether its lanes return to one place or to several (R240). -/
def execRet (s : State) : Out :=
  Form.control {} s fun _ t =>
    let c := t.cur
    if c.depth = 0 then trapNow codeDivstack
    else if c.exm = 0 then .ok (t.leave.trySort t.g.wg)
    else if t.extent (.slice 0) < 16 * c.depth then
      .error (.trap { code := codeSpad, addr := BitVec.ofInt 64 ((t.extent (.slice 0) : Int) - 16 * c.depth) })
    else do
      t.checkChip 0 16 ((lanesOf c.exm).map fun l => (l, .slice (t.position l), t.extent (.slice 0) - 16 * c.depth))
      let links := (lanesOf c.exm).map fun l => (l, t.linkOf l)
      let keys := dedup (links.map fun x => x.2)
      match keys with
      | [k] => .ok { t with g := (t.g.setCur { c.goto k.1 with depth := c.depth - 1, tag := k.2 }).settle t.clock }
      | _ =>
        let u ← t.split (keys.map fun k =>
          { pc := k.1, mask := maskOf ((links.filter fun x => x.2 == k).map fun x => x.1), depth := c.depth - 1, tag := k.2 })
        .ok (u.keepCover c t.g.other.live)

/-- `jmpi` (R260). (DEDUCED, log entry 70, safe.) -/
def execJmpi (sa : Nat) (s : State) : Out :=
  Form.control { srcs := [rs sa] } s fun _ t =>
    let target := t.g.srcS sa
    if target.toNat % 4 ≠ 0 then .error (.trap { code := codeMisalign, addr := target }) else .ok (t.branch target)

/-! ### Splits (R261, R262) -/

/-- `bdiv` and `bdiv.n` (R261). (DEDUCED, log entry 70, safe.) -/
def execBdiv (p : Nat) (neg : Bool) (off : Nat) (s : State) : Out :=
  Form.control { srcs := [rp p] } s fun _ t =>
    let c := t.cur
    let pv := t.g.srcP p
    let taken := c.exm &&& (if neg then ~~~pv else pv)
    let fall := c.exm &&& ~~~taken
    let target := branchTarget c.pc off 22
    if taken = 0 then .ok t.advance
    else if fall = 0 then .ok (t.branch target)
    else t.split [{ pc := target, mask := taken, depth := c.depth, tag := c.tag },
                  { pc := c.pc + 4, mask := fall, depth := c.depth, tag := c.tag }]

/-- One path access translated and checked by Table 03-7; a trap names the path's whole mask. -/
def State.checkPath (s : State) (k : Kind) (scalar : Bool) (size : Nat) (va : W64) : Res Placed := do
  if preChecks size va then s.awaitWalks s.g.core s.g.asid s.g.root k [va] .memDep
  match s.check s.who k scalar size va with
  | .fails row => .error (.trap { code := rowCode row, addr := va, info := k.info })
  | .passes f => .ok { lane := 0, va := va, pa := f.pa va, leaf := f }

/-- Whether an address belongs to a module marked failed (R193). -/
def State.moduleFailed (s : State) (pa : Nat) : Bool := moduleOf pa != s.module && s.failed.elem (moduleOf pa)

/-- Whether what an access reads of a line has an uncorrectable error (R86), or is bad by what a merged read finds (R127). -/
def State.lineBad (s : State) (pa size l : Nat) : Bool :=
  s.poisoned l
    || (s.wheelAt (wheelOf l)).any fun w => (w.state.hasVat && w.bad.elem l) || match w.state with
      | .residentF cave place off => s.frameBad cave place (off + (max pa l - w.wheel)) (min (pa + size) (l + 64) - max pa l)
      | _ => false

/-- The bad line among those an access touches; in a Cave, of the words that it touches. -/
def State.poisonedLine (s : State) (pa size : Nat) : Option Nat :=
  match (linesOf pa size).find? fun l => s.lineBad pa size l with
  | some l => some l
  | none => if s.spoiled .cave pa size then some (lineOf pa) else none

/-- The 128 bytes of an instruction line as the module has them: a merged read of a wheel that has a record (R120), else the two lines at their home slices. -/
def State.codeBytes (s : State) (line : Nat) : List Byte :=
  if (s.wheelAt (wheelOf line)).isSome then s.mergedRead line 128 else s.lineBytes line ++ s.lineBytes (line + 64)

/-- The instruction line of an address, as the core's instruction cache holds it or as memory gives it (R68). (DESIGN CHOICE, log entry 11, unsafe.) -/
def State.fetchLine (s : State) (core pa : Nat) : List Byte :=
  let line := pa / 128 * 128
  match (s.core core).icache.find? (fun i => i.pa == line) with
  | some i => i.bytes
  | none => s.codeBytes line

/-- Whether the instruction cache of a core holds the line of an address. -/
def State.icached (s : State) (core pa : Nat) : Bool := (s.core core).icache.any fun i => i.pa == pa / 128 * 128

/-- The instruction cache of a core with a line filled (R68): 128 KiB in 8 ways of 128 sets; the line filled longest ago leaves a full set.
(DESIGN CHOICE, log entry 11, unsafe.) -/
def State.fillLine (s : State) (core pa : Nat) : State :=
  let line := pa / 128 * 128
  if s.icached core pa then s
  else
    let bytes := s.codeBytes line
    let same := fun (i : ILine) => Config.icacheSet i.pa % 128 == Config.icacheSet line % 128
    s.updCore core fun k =>
      let ways := s.waysLeft 8 (.l1i core (Config.icacheSet line % 128))
      let full := decide (ways ≤ k.icache.length) && decide (ways ≤ (k.icache.filter same).length)
      { k with icache := { pa := line, bytes := bytes } :: (if full then (removeFirst same k.icache.reverse).reverse else k.icache) }

/-! ### Requests outside the module (R187, R192) -/

/-- Whether a request is a non-posted one of the issuing path's instruction. -/
def State.ownRequest (s : State) (r : FabReq) : Bool :=
  r.ident == s.g.ident && r.inB == s.g.inB && r.pc == s.cur.runPc && !r.posted

/-- The non-posted requests that the issuing path's instruction has outside the module. -/
def State.fabRequests (s : State) : List FabReq := s.fabric.filter s.ownRequest
def State.myRequest (s : State) : Option FabReq := s.fabric.find? s.ownRequest

/-- The requests without those of the issuing path. -/
def State.dropRequest (s : State) : State := { s with fabric := s.fabric.filter fun r => !s.ownRequest r }

/-- Fabric requests of a die that have left it and are not answered (R187); those to the host take no place. -/
def FabReq.outstanding (die : Nat) (r : FabReq) : Bool :=
  r.sent && !r.host && dieOf r.core == die && decide (r.status = .pending)
def State.requestsOf (s : State) (die : Nat) : Nat := (s.fabric.filter (FabReq.outstanding die)).length

/-- A request sent, or kept at its sender while its die has no place among its 4,096 (R187). -/
def State.sendRequest (s : State) (r : FabReq) : State :=
  { s with nextId := s.nextId + 1, fabric := s.fabric ++ [{ r with sent := r.host || decide (s.requestsOf (dieOf r.core) < 4096) }] }

/-- Requests that waited for a place leave, oldest first, while there is one (R187); their time limits begin (R192). -/
def State.promote (s : State) : State :=
  (s.fabric.filter fun r => !r.sent).foldl (fun s r =>
    if s.requestsOf (dieOf r.core) < 4096 then
      { s with fabric := s.fabric.map fun x => if x.id == r.id then { x with sent := true, deadline := s.fabricDeadline } else x }
    else s) s

/-- A request of the issuing path's instruction for the place of a lane, standing for a mask of lanes. -/
def State.requestFor (s : State) (p : Placed) (m : W32) (posted : Bool) (writes : List (Nat × List Byte)) : FabReq :=
  { id := s.nextId, ident := s.g.ident, core := s.g.core, inB := s.g.inB, pc := s.cur.runPc, host := moduleOf p.pa == s.module, posted := posted
    pa := p.pa, writes := writes, vaddr := p.va, mask := m, deadline := s.fabricDeadline, status := .pending, launch := s.g.launch }

/-- What requests the leaving lanes need, each for some lanes: for loads one for each line, or, where a whole wheel is fetched, the eight of
256 bytes that bring it (Table 09-4); for an atomic one for each target (R306). -/
def requestLanes (k : Kind) (wheels : Bool) (ps : List Placed) : List (Placed × W32) :=
  let key := fun (p : Placed) => if k = .load then (if wheels then wheelOf p.pa else lineOf p.pa) else p.pa
  (dedup (ps.map key)).flatMap fun x => match ps.find? fun p => key p == x with
    | none => []
    | some p =>
      let m := maskOf ((ps.filter fun q => key q == x).map fun q => q.lane)
      if wheels && k = .load then (List.range 8).map fun i => ({ p with pa := x + 256 * i }, m) else [(p, m)]

/-- The trap of some failed requests: the lanes that they stand for, the address of the lowest. -/
def requestTrap (code info : Nat) (async : Bool) (rs : List FabReq) : Trap :=
  let m := rs.foldl (fun m r => m ||| r.mask) (0 : W32)
  { code := code, mask := some m, info := info, async := async
    addr := ((rs.find? fun r => allLanes.any fun l => laneOn r.mask l && m &&& BitVec.ofNat 32 (2 ^ l - 1) == 0).map fun r => r.vaddr).getD 0 }

/-- Requests that leave the module: with nothing deferred they are answered at once; otherwise they are sent, those for which the die has no place
waiting for one, and the instruction waits for all answers, which may be errors (R185, R187, R192). -/
def State.ask (s : State) (k : Kind) (needs : List (Placed × W32)) : Res Unit :=
  if needs.isEmpty || !s.defer then .ok ()
  else
    let rs := s.fabRequests
    match needs.filter fun x => !rs.any fun r => r.pa == x.1.pa with
    | x :: xs => .error (.pend ((x :: xs).foldl (fun s x => s.sendRequest (s.requestFor x.1 x.2 false [])) s) .memDep)
    | [] =>
      if rs.any fun r => decide (r.status = .pending) then .error (.wait .memDep)
      else match rs.filter (fun r => decide (r.status = .unsupported)), rs.filter (fun r => decide (r.status = .failed)) with
        | [], [] => .ok ()
        | [], fs => .error (.trapAfter s.dropRequest (requestTrap codeFabric k.info false fs))
        | us, _ => .error (.trapAfter s.dropRequest (requestTrap codeAtom k.info true us))

/-- An instruction-side read (R68, R86, R193, R262): the line of an address brought into the instruction cache, or the trap of an uncorrectable error
or of a failed module. -/
def State.instrRead (s : State) (va : W64) (pa : Nat) : Res State :=
  if s.icached s.g.core pa then .ok s
  else if s.moduleFailed pa then .error (.trap { code := codeFabric, addr := va, info := Kind.fetch.info })
  else match s.poisonedLine (pa / 128 * 128) 128 with
    | some l => .error (.trap { code := codeEcc, addr := BitVec.ofNat 64 l, info := Kind.fetch.info })
    | none => do
      let p : Placed := { lane := 0, va := va, pa := pa / 128 * 128, leaf := { pte := 0, level := 0 } }
      if moduleOf pa = s.module then .ok (s.fillLine s.g.core pa)
      else do
        s.ask .fetch [(p, s.exm)]
        .ok (s.dropRequest.fillLine s.g.core pa)

/-- An instruction-side read of 4 bytes (R68, R262). -/
def State.fetchWord (s : State) (pa : Nat) : W32 :=
  BitVec.ofNat 32 (fromBytes (((s.fetchLine s.g.core pa).drop (pa % 128)).take 4))

/-- `bjt` (R262). (DEDUCED, log entry 70, safe.) -/
def execBjt (sa sb vi : Nat) (s : State) : Out :=
  Form.control { srcs := [rs sa, rs sb, rv vi] } s fun _ t =>
    let c := t.cur
    if c.exm = 0 then .ok t.advance
    else
      let idx := fun l => t.g.srcLane vi l
      let n := (t.g.srcS sb).toNat % 2 ^ 32
      let bad := (lanesOf c.exm).filter fun l => decide (n ≤ (idx l).toNat)
      match bad with
      | l :: _ => .error (.trap { code := codeJtab, addr := BitVec.ofNat 64 l, mask := some (maskOf bad) })
      | [] => do
        let base := c.pc + t.g.srcS sa
        if (t.g.srcS sa).toNat % 4 ≠ 0 then .error (.trap { code := codeMisalign, addr := base })
        else do
          let ps ← t.checkLanes t.who .fetch false 4 ((lanesOf c.exm).map fun l => (l, base + BitVec.ofNat 64 (4 * (idx l).toNat)))
          let t ← ps.foldlM (fun (t : State) p => t.instrRead p.va p.pa) (t.fillAll t.who .fetch ps)
          let lanes := ps.map fun p => (p.lane, base + BitVec.ofInt 64 (4 * (t.fetchWord p.pa).toInt))
          match dedup (lanes.map fun x => x.2) with
          | [one] => .ok (t.branch one)
          | targets => t.split (targets.map fun a =>
              { pc := a, mask := maskOf ((lanes.filter fun x => x.2 == a).map fun x => x.1), depth := c.depth, tag := c.tag })

/-! ### Joining, yielding and exit (R263) -/

/-- `join` (R204). -/
def execJoin (s : State) : Out :=
  Form.control {} s fun _ t =>
    let c := t.cur
    let same := fun (e : SaveEntry) => decide (e.state = .waitJoin) && e.pc == c.pc && e.depth == c.depth && e.frame == c.tag
    if t.g.save.any same then
      .ok ({ t with g := { t.g with save := t.g.save.map fun e => if same e then { e with mask := e.mask ||| c.exm } else e } }).leave
    else if t.g.freeEntries = 0 then trapNow codeDivstack
    else .ok ({ t with g := t.g.push { state := .waitJoin, pc := c.pc, mask := c.exm, depth := c.depth, frame := c.tag, seq := 0 } }).leave

/-- `yield` (R263, R205). -/
def execYield (s : State) : Out :=
  Form.control {} s fun _ t =>
    if t.g.anyReady then .ok (t.giveUp (t.cur.pc + 4))
    else .ok (t.advance.setCur { t.advance.cur with giveWay := t.clock + 2 })

/-- `exit` (R208, R254): the active lanes end and so does the path; its detached lanes are kept. -/
def execExit (s : State) : Out :=
  Form.control { noTx := true } s fun _ t => 
    .ok (({ t with g := { t.g with lanes := t.g.lanes &&& ~~~t.exm, lastExit := t.cur.runPc, lastMask := t.exm } }).leave.trySort t.g.wg)

/-! ### Waiting on a word (R206, R264) -/

/-- Some lanes of the issuing path leave as one entry, the others continue at the next word; the slot frees when none is left. -/
def State.parkLanes (s : State) (m : W32) (e : SaveEntry) : Res State :=
  if m = 0 then .ok (s.setCur s.cur.endCover).advance
  else if s.g.freeEntries = 0 then trapNow codeDivstack
  else
    let s := { s with g := s.g.push { e with mask := m, depth := s.cur.depth, frame := s.cur.tag } }
    if s.exm &&& ~~~m = 0 then .ok s.leave
    else
      let s := s.advance
      .ok (s.setCur { s.cur.endCover with exm := s.exm &&& ~~~m })

/-- Whether every earlier access of a group, on either path, has been performed at a scope (Table 07-1, R139, R142, R143). At any scope no result
of a load or atomic is in flight, nothing of the group is queued at a service group, on the crossbar or at a vat intake, and no atomic of it is on
its way outside the module, where no core could read its value. At `dev` and beyond, no store of it waits in the die's buffer or on the fabric, and no
copy of a line is still to be told of a write; at `dom` no write of any group is on its way to another module, whose sharers have all been told (R142,
R188, R190), and at `sys` none to the host. A store of a narrower scope has been performed once it has left the core. R141 orders reads of one die
whatever their scopes, while Table 07-6 allows the stale read of that test under hints of scope `cl`: the model follows the table.
(DESIGN CHOICE, log entry 68, unsafe.) -/
def State.performedAt (s : State) (scope : Nat) (g : Group) : Bool :=
  !(g.inflight.any fun x => x.mem)
    && !(s.clusters.any fun c => c.sg.any (fun e => e.ident == g.ident) || c.intake.any (fun u => u.ident == g.ident)
      || c.xbar.any fun x => x.ident == g.ident)
    && !(s.wheels.any fun w => decide (w.state = .pressing))
    && !(s.fabric.any fun r => r.ident == g.ident && !r.atoms.isEmpty)
    && (decide (scope < 3) || (s.msgs.isEmpty && !(s.fabric.any fun r => r.ident == g.ident) && !(s.stores.any fun x => x.ident == g.ident)))
    && (decide (scope < 4) || (s.modAcks.isEmpty && !(s.fabric.any fun r => r.posted && (!r.host || decide (scope = 5)))))

/-- The same at device scope. -/
def State.performed (s : State) (g : Group) : Bool := s.performedAt 3 g

/-- What a release at a scope waits for: the group's earlier accesses performed, and from `dev` on every store that stands in its die's buffer
(R142); a posted request that failed is reported there (R192). -/
def State.releasesAt (s : State) (scope : Nat) : Res Unit :=
  if 3 ≤ scope ∧ s.stores.any (fun x => dieOf x.core == dieOf s.g.core) then .error (.pend (s.drainDie (dieOf s.g.core)) .memDep)
  else if !s.performedAt scope s.g then .error (.wait .memDep)
  else match s.g.lateFault with
    | some va => .error (.trapAfter { s with g := { s.g with lateFault := none, lateUnsup := false, lateInfo := 1 } }
        { code := if s.g.lateUnsup then codeAtom else codeFabric, addr := va, mask := some 0, info := s.g.lateInfo, async := true })
    | none => .ok ()

/-- The same at device scope. (DEDUCED, log entry 55, safe.) -/
def State.releases (s : State) : Res Unit := s.releasesAt 3

/-- A release that is awaited before the instruction's own request leaves the module: one whose request is on its way waits no more. -/
def State.released (s : State) (scope : Nat) : Res Unit := if s.myRequest.isSome then .ok () else s.releasesAt scope

/-- A release or `sc` access is not issued before the group's earlier accesses are performed (Table 07-5, rows 4 and 7). -/
def State.ordered (s : State) (h : Hints) : Res Unit :=
  match h.ord with
  | some o => if 2 ≤ o.order then s.released o.scope else .ok ()
  | none => .ok ()

/-! ### Traps on purpose (R268) -/

/-- `trap`. -/
def execTrap (n : Nat) (s : State) : Out :=
  Form.control {} s fun _ _ => .error (.trap { code := codeTrapi, addr := BitVec.ofNat 64 n })

/-- `brk`. -/
def execBrk (n : Nat) (s : State) : Out :=
  Form.control {} s fun _ _ => .error (.trap { code := codeBrk, addr := BitVec.ofNat 64 n })

/-! ### Mask forms (R269) -/

/-- A mask form that writes `exm`: the old mask goes to sd, the new one is in force from the next instruction on. -/
def State.maskForm (s : State) (sd : Nat) (new : W32) : State :=
  let s := s.putS false false sd (BitVec.ofNat 64 s.exm.toNat)
  s.setCur { s.cur with exm := new }

/-- `xm.get`. -/
def execXmGet (sd : Nat) (s : State) : Out :=
  Form.pure_ { dsts := [rs sd], lat := 4 } s fun _ t => t.putS false false sd (BitVec.ofNat 64 t.exm.toNat)

/-- `xm.set`: lanes that are not claimable are dropped (R254). -/
def execXmSet (sd sa : Nat) (s : State) : Out :=
  Form.pure_ { srcs := [rs sa], dsts := [rs sd], lat := 4 } s fun _ t =>
    t.maskForm sd (BitVec.ofNat 32 (t.g.srcS sa).toNat &&& t.g.claimable)

/-- `xm.and`. -/
def execXmAnd (sd sa : Nat) (s : State) : Out :=
  Form.pure_ { srcs := [rs sa], dsts := [rs sd], lat := 4 } s fun _ t =>
    t.maskForm sd (t.exm &&& BitVec.ofNat 32 (t.g.srcS sa).toNat)

/-- `xm.andn`. -/
def execXmAndn (sd sa : Nat) (s : State) : Out :=
  Form.pure_ { srcs := [rs sa], dsts := [rs sd], lat := 4 } s fun _ t =>
    t.maskForm sd (t.exm &&& ~~~(BitVec.ofNat 32 (t.g.srcS sa).toNat))

/-- `xm.fromp`. -/
def execXmFromp (sd p : Nat) (s : State) : Out :=
  Form.pure_ { srcs := [rp p], dsts := [rs sd], lat := 4 } s fun _ t => t.maskForm sd (t.exm &&& t.g.srcP p)

/-- `xm.pop`. -/
def execXmPop (sd : Nat) (s : State) : Out :=
  Form.pure_ { dsts := [rs sd], lat := 4 } s fun _ t => t.putS false false sd (BitVec.ofNat 64 (popMask t.exm))

end Sys2Proof.Machine
end

