-- ==== Sys2Proof/Machine/Scalar.lean ====
section
/-!
DEFINITION. Uniform arithmetic, logic and immediates: majors 0x07 to 0x0C (R270 to R273).
-/
namespace Sys2Proof.Machine
open Sys2Proof

/-- The signed high half of an `n`-bit product (Table 14-9). -/
def mulHigh (n a b : Nat) : Nat := ((sextInt a n * sextInt b n).fdiv ((2 ^ n : Nat) : Int) % ((2 ^ n : Nat) : Int)).toNat

/-- The signed quotient rounded towards zero: 0 for a zero divisor, modulo 2^n (Table 14-9). -/
def divSigned (n a b : Nat) : Nat := (Int.tdiv (sextInt a n) (sextInt b n) % ((2 ^ n : Nat) : Int)).toNat

/-- The signed remainder, which takes the sign of a: a itself for a zero divisor (Table 14-9). -/
def remSigned (n a b : Nat) : Nat := (Int.tmod (sextInt a n) (sextInt b n) % ((2 ^ n : Nat) : Int)).toNat

/-- Shifts of an `n`-bit word by an amount below `n`: 0 left, 1 logical right, 2 arithmetic right, 3 rotate left (Tables 14-9, 14-11, 15-2). -/
def shiftNat (kind n a k : Nat) : Nat :=
  match kind with
  | 0 => a * 2 ^ k % 2 ^ n
  | 1 => a / 2 ^ k
  | 2 => ((sextInt a n).fdiv ((2 ^ k : Nat) : Int) % ((2 ^ n : Nat) : Int)).toNat
  | _ => (a * 2 ^ k % 2 ^ n + a / 2 ^ (n - k)) % 2 ^ n

/-- The operation width that fn[7] selects (R270). -/
def aluWidth (w32 : Bool) : Nat := if w32 then 32 else 64

/-- An operand at the operation's width. -/
def aluOperand (w32 : Bool) (x : W64) : Nat := x.toNat % 2 ^ aluWidth w32

/-- An `n`-bit result, zero-extended into a register (R270). -/
def aluResult (w32 : Bool) (x : Nat) : W64 := BitVec.ofNat 64 (x % 2 ^ aluWidth w32)

/-- A two-operand form of major 0x07 (R270): `f` gives the result from the width and the operands. -/
def scalarBinary (lat sd sa sb : Nat) (w32 : Bool) (f : Nat → Nat → Nat → Nat) (s : State) : Out :=
  Form.pure_ { srcs := [rs sa, rs sb], dsts := [rs sd], lat := lat } s fun _ t =>
    t.putS (lat == 0) false sd
      (aluResult w32 (f (aluWidth w32) (aluOperand w32 (t.g.srcS sa)) (aluOperand w32 (t.g.srcS sb))))

/-- A one-operand form of major 0x07 (R270). -/
def scalarUnary (sd sa : Nat) (w32 : Bool) (f : Nat → Nat → Nat) (s : State) : Out :=
  Form.pure_ { srcs := [rs sa], dsts := [rs sd], lat := 4 } s fun _ t =>
    t.putS false false sd (aluResult w32 (f (aluWidth w32) (aluOperand w32 (t.g.srcS sa))))

/-- `sadd` (Table 14-9). -/
def execSadd (sd sa sb : Nat) (w32 : Bool) (s : State) : Out :=
  scalarBinary 4 sd sa sb w32 (fun _ a b => a + b) s

/-- `ssub` (Table 14-9). -/
def execSsub (sd sa sb : Nat) (w32 : Bool) (s : State) : Out :=
  scalarBinary 4 sd sa sb w32 (fun n a b => a + 2 ^ n - b) s

/-- `smul` (Table 14-9). -/
def execSmul (sd sa sb : Nat) (w32 : Bool) (s : State) : Out :=
  scalarBinary 6 sd sa sb w32 (fun _ a b => a * b) s

/-- `smulh` (Table 14-9). -/
def execSmulh (sd sa sb : Nat) (w32 : Bool) (s : State) : Out :=
  scalarBinary 6 sd sa sb w32 (fun n a b => mulHigh n a b) s

/-- `smulhu` (Table 14-9). -/
def execSmulhu (sd sa sb : Nat) (w32 : Bool) (s : State) : Out :=
  scalarBinary 6 sd sa sb w32 (fun n a b => a * b / 2 ^ n) s

/-- `sdiv`: signed quotient towards zero; b = 0 gives 0 (Table 14-9). -/
def execSdiv (sd sa sb : Nat) (w32 : Bool) (s : State) : Out :=
  scalarBinary 0 sd sa sb w32 (fun n a b => divSigned n a b) s

/-- `sdivu`: unsigned quotient; b = 0 gives 0 (Table 14-9). -/
def execSdivu (sd sa sb : Nat) (w32 : Bool) (s : State) : Out :=
  scalarBinary 0 sd sa sb w32 (fun _ a b => a / b) s

/-- `srem`: signed remainder, of the sign of a; b = 0 gives a (Table 14-9). -/
def execSrem (sd sa sb : Nat) (w32 : Bool) (s : State) : Out :=
  scalarBinary 0 sd sa sb w32 (fun n a b => remSigned n a b) s

/-- `sand` (Table 14-9). -/
def execSand (sd sa sb : Nat) (w32 : Bool) (s : State) : Out :=
  scalarBinary 4 sd sa sb w32 (fun _ a b => a &&& b) s

/-- `sor` (Table 14-9). -/
def execSor (sd sa sb : Nat) (w32 : Bool) (s : State) : Out :=
  scalarBinary 4 sd sa sb w32 (fun _ a b => a ||| b) s

/-- `sxor` (Table 14-9). -/
def execSxor (sd sa sb : Nat) (w32 : Bool) (s : State) : Out :=
  scalarBinary 4 sd sa sb w32 (fun _ a b => a ^^^ b) s

/-- `sandn` (Table 14-9). -/
def execSandn (sd sa sb : Nat) (w32 : Bool) (s : State) : Out :=
  scalarBinary 4 sd sa sb w32 (fun n a b => a &&& (2 ^ n - 1 - b)) s

/-- `sshl` (Table 14-9). -/
def execSshl (sd sa sb : Nat) (w32 : Bool) (s : State) : Out :=
  scalarBinary 4 sd sa sb w32 (fun n a b => shiftNat 0 n a (b % n)) s

/-- `sshr` (Table 14-9). -/
def execSshr (sd sa sb : Nat) (w32 : Bool) (s : State) : Out :=
  scalarBinary 4 sd sa sb w32 (fun n a b => shiftNat 1 n a (b % n)) s

/-- `ssra` (Table 14-9). -/
def execSsra (sd sa sb : Nat) (w32 : Bool) (s : State) : Out :=
  scalarBinary 4 sd sa sb w32 (fun n a b => shiftNat 2 n a (b % n)) s

/-- `srot` (Table 14-9). -/
def execSrot (sd sa sb : Nat) (w32 : Bool) (s : State) : Out :=
  scalarBinary 4 sd sa sb w32 (fun n a b => shiftNat 3 n a (b % n)) s

/-- `smin` (Table 14-9). -/
def execSmin (sd sa sb : Nat) (w32 : Bool) (s : State) : Out :=
  scalarBinary 4 sd sa sb w32 (fun n a b => sminNat n a b) s

/-- `sminu` (Table 14-9). -/
def execSminu (sd sa sb : Nat) (w32 : Bool) (s : State) : Out :=
  scalarBinary 4 sd sa sb w32 (fun _ a b => min a b) s

/-- `smax` (Table 14-9). -/
def execSmax (sd sa sb : Nat) (w32 : Bool) (s : State) : Out :=
  scalarBinary 4 sd sa sb w32 (fun n a b => smaxNat n a b) s

/-- `smaxu` (Table 14-9). -/
def execSmaxu (sd sa sb : Nat) (w32 : Bool) (s : State) : Out :=
  scalarBinary 4 sd sa sb w32 (fun _ a b => max a b) s

/-- `spopc` (Table 14-9). -/
def execSpopc (sd sa : Nat) (w32 : Bool) (s : State) : Out := scalarUnary sd sa w32 (fun n a => popNat a n) s

/-- `sclz` (Table 14-9). -/
def execSclz (sd sa : Nat) (w32 : Bool) (s : State) : Out := scalarUnary sd sa w32 (fun n a => clzNat a n) s

/-- `sctz` (Table 14-9). -/
def execSctz (sd sa : Nat) (w32 : Bool) (s : State) : Out := scalarUnary sd sa w32 (fun n a => ctzNat a 0 n) s

/-- `sbrev` (Table 14-9). -/
def execSbrev (sd sa : Nat) (w32 : Bool) (s : State) : Out := scalarUnary sd sa w32 (fun n a => brevNat a n) s

/-- The field mask of `sbfx` and `sbfi` (R271). -/
def fieldMask (n sb : Nat) : Nat :=
  let pos := natField sb 0 6
  let len := natField sb 8 6
  if len = 0 ∨ n ≤ pos then 0 else (2 ^ min len (n - pos) - 1) * 2 ^ pos

/-- `sbfx` (R271). -/
def execSbfx (sd sa sb : Nat) (w32 : Bool) (s : State) : Out :=
  Form.pure_ { srcs := [rs sa, rs sb], dsts := [rs sd], lat := 4 } s fun _ t =>
    let ctl := (t.g.srcS sb).toNat
    t.putS false false sd
      (aluResult w32 ((aluOperand w32 (t.g.srcS sa) &&& fieldMask (aluWidth w32) ctl) / 2 ^ natField ctl 0 6))

/-- `sbfi` (R271): sd is a third source. -/
def execSbfi (sd sa sb : Nat) (w32 : Bool) (s : State) : Out :=
  Form.pure_ { srcs := [rs sa, rs sb, rs sd], dsts := [rs sd], lat := 4 } s fun _ t =>
    let ctl := (t.g.srcS sb).toNat
    let m := fieldMask (aluWidth w32) ctl
    let old := aluOperand w32 (t.g.srcS sd)
    t.putS false false sd
      (aluResult w32 ((old - (old &&& m)) ||| (aluOperand w32 (t.g.srcS sa) * 2 ^ natField ctl 0 6 &&& m)))

/-- `sseq` (Table 14-9). -/
def execSseq (sd sa sb : Nat) (w32 : Bool) (s : State) : Out :=
  scalarBinary 4 sd sa sb w32 (fun _ a b => if a = b then 1 else 0) s

/-- `sslt` (Table 14-9). -/
def execSslt (sd sa sb : Nat) (w32 : Bool) (s : State) : Out :=
  scalarBinary 4 sd sa sb w32 (fun n a b => if sextInt a n < sextInt b n then 1 else 0) s

/-- `ssltu` (Table 14-9). -/
def execSsltu (sd sa sb : Nat) (w32 : Bool) (s : State) : Out :=
  scalarBinary 4 sd sa sb w32 (fun _ a b => if a < b then 1 else 0) s

/-- `saddi` (R272). -/
def execSaddi (sd sa imm : Nat) (s : State) : Out :=
  Form.pure_ { srcs := [rs sa], dsts := [rs sd], lat := 4, imm := true } s fun h t =>
    t.putS false false sd (t.g.srcS sa + BitVec.ofInt 64 (h.simm 14 imm))

/-- `sli` (R272). -/
def execSli (sd imm : Nat) (s : State) : Out :=
  Form.pure_ { dsts := [rs sd], lat := 4, imm := true } s fun h t => t.putS false false sd (BitVec.ofInt 64 (h.simm 20 imm))

/-- `sandi` (R272). -/
def execSandi (sd sa imm : Nat) (s : State) : Out :=
  Form.pure_ { srcs := [rs sa], dsts := [rs sd], lat := 4, imm := true } s fun h t =>
    t.putS false false sd (t.g.srcS sa &&& BitVec.ofInt 64 (h.simm 14 imm))

/-- `sori` (R272): the immediate is zero-extended. -/
def execSori (sd sa imm : Nat) (s : State) : Out :=
  Form.pure_ { srcs := [rs sa], dsts := [rs sd], lat := 4, imm := true } s fun h t =>
    t.putS false false sd (t.g.srcS sa ||| BitVec.ofNat 64 (h.immNat 14 imm))

/-- `sshi` (R273): a `hint.imm` may only be one of zero payload, since no bit of the combined immediate above bit 8 may be set. -/
def execSshi (sd sa : Nat) (w32 : Bool) (kind amt : Nat) (s : State) : Out :=
  Form.pure_ { srcs := [rs sa], dsts := [rs sd], lat := 4, imm := true, iin := s.cur.hints.imm.getD 0 != 0 } s fun _ t =>
    t.putS false false sd (aluResult w32 (shiftNat kind (aluWidth w32) (aluOperand w32 (t.g.srcS sa)) amt))

end Sys2Proof.Machine
end

