-- ==== Sys2Proof/Machine/VInt.lean ====
section
/-!
DEFINITION. Vector integer, immediate, unary and compare forms: majors 0x10 to 0x22 (R276, R278 to R281).
-/
namespace Sys2Proof.Machine
open Sys2Proof

/-- A signed value clamped to 32 bits (Table 15-2). -/
def clamp32 (i : Int) : W32 := BitVec.ofInt 32 (max (-(2 ^ 31 : Nat) : Int) (min ((2 ^ 31 - 1 : Nat) : Int) i))

/-- A 32-bit result that `.sat` clamps as a signed value, and that otherwise wraps. -/
def satWord (sat : Bool) (i : Int) : W32 := if sat then clamp32 i else BitVec.ofInt 32 i

/-- A VV integer form (R278): `f` gives a lane's result from the saturation modifier and a, b and the old vd; `acc` says that the old vd
is a source. -/
def vectorBinary (lat : Nat) (sat acc : Bool) (vd : Nat) (va vb : VSrc) (f : Bool → W32 → W32 → W32 → W32) (s : State) : Out :=
  Form.pure_ { srcs := [rv va.reg, rv vb.reg] ++ (if acc then [rv vd] else []), dsts := [rv vd], sels := [va.sel, vb.sel],
               lat := lat, sat := sat, z := true } s fun h t =>
    t.putV (lat == 0) false vd t.exm h.mods.zero fun l =>
      f h.mods.sat (t.g.readSrc va l) (t.g.readSrc vb l) (t.g.srcLane vd l)

/-- A VU or VI integer form (R279, R280): `f` gives a lane's result from the saturation modifier and a. -/
def vectorUnary (sat imm iin : Bool) (vd : Nat) (va : VSrc) (f : Hints → W32 → W32) (s : State) : Out :=
  Form.pure_ { srcs := [rv va.reg], dsts := [rv vd], sels := [va.sel], lat := 6, sat := sat, imm := imm, iin := iin, z := true } s fun h t =>
    t.putV false false vd t.exm h.mods.zero fun l => f h (t.g.readSrc va l)

/-- A form that reads no vector source: `f` gives a lane's result. -/
def vectorConst (imm : Bool) (vd : Nat) (f : Hints → Nat → W32) (s : State) : Out :=
  Form.pure_ { dsts := [rv vd], lat := 6, imm := imm, z := true } s fun h t => t.putV false false vd t.exm h.mods.zero (f h)

/-- A shift or rotation of a lane (Tables 15-2, 15-4). -/
def shiftLane (kind : Nat) (a : W32) (k : Nat) : W32 := BitVec.ofNat 32 (shiftNat kind 32 a.toNat (k % 32))

/-- Byte j of a lane, signed or unsigned. -/
def laneByte (uns : Bool) (a : W32) (j : Nat) : Int := if uns then (field a (8 * j) 8 : Int) else sextInt (field a (8 * j) 8) 8

/-- The dot product of four bytes, added to c (Table 15-2). -/
def dot4 (uns : Bool) (a b c : W32) : W32 :=
  c + BitVec.ofInt 32 ([0, 1, 2, 3].foldl (fun s j => s + laneByte uns a j * laneByte uns b j) 0)

/-! ### Majors 0x10 to 0x1A (R278) -/

/-- `vadd`. -/
def execVadd (vd : Nat) (va vb : VSrc) (s : State) : Out := vectorBinary 6 true false vd va vb (fun z a b _ => satWord z (a.toInt + b.toInt)) s
/-- `vsub`. -/
def execVsub (vd : Nat) (va vb : VSrc) (s : State) : Out := vectorBinary 6 true false vd va vb (fun z a b _ => satWord z (a.toInt - b.toInt)) s
/-- `vmul`. -/
def execVmul (vd : Nat) (va vb : VSrc) (s : State) : Out := vectorBinary 8 false false vd va vb (fun _ a b _ => a * b) s
/-- `vmulh`. -/
def execVmulh (vd : Nat) (va vb : VSrc) (s : State) : Out :=
  vectorBinary 8 false false vd va vb (fun _ a b _ => BitVec.ofNat 32 (mulHigh 32 a.toNat b.toNat)) s
/-- `vmulhu`. -/
def execVmulhu (vd : Nat) (va vb : VSrc) (s : State) : Out :=
  vectorBinary 8 false false vd va vb (fun _ a b _ => BitVec.ofNat 32 (a.toNat * b.toNat / 2 ^ 32)) s
/-- `vmad`. -/
def execVmad (vd : Nat) (va vb : VSrc) (s : State) : Out := vectorBinary 8 false true vd va vb (fun _ a b c => a * b + c) s
/-- `vand`. -/
def execVand (vd : Nat) (va vb : VSrc) (s : State) : Out := vectorBinary 6 false false vd va vb (fun _ a b _ => a &&& b) s
/-- `vor`. -/
def execVor (vd : Nat) (va vb : VSrc) (s : State) : Out := vectorBinary 6 false false vd va vb (fun _ a b _ => a ||| b) s
/-- `vxor`. -/
def execVxor (vd : Nat) (va vb : VSrc) (s : State) : Out := vectorBinary 6 false false vd va vb (fun _ a b _ => a ^^^ b) s
/-- `vandn`. -/
def execVandn (vd : Nat) (va vb : VSrc) (s : State) : Out := vectorBinary 6 false false vd va vb (fun _ a b _ => a &&& ~~~b) s
/-- `vshl`. -/
def execVshl (vd : Nat) (va vb : VSrc) (s : State) : Out := vectorBinary 6 false false vd va vb (fun _ a b _ => shiftLane 0 a b.toNat) s
/-- `vshr`. -/
def execVshr (vd : Nat) (va vb : VSrc) (s : State) : Out := vectorBinary 6 false false vd va vb (fun _ a b _ => shiftLane 1 a b.toNat) s
/-- `vsra`. -/
def execVsra (vd : Nat) (va vb : VSrc) (s : State) : Out := vectorBinary 6 false false vd va vb (fun _ a b _ => shiftLane 2 a b.toNat) s
/-- `vrot`. -/
def execVrot (vd : Nat) (va vb : VSrc) (s : State) : Out := vectorBinary 6 false false vd va vb (fun _ a b _ => shiftLane 3 a b.toNat) s
/-- `vmin`. -/
def execVmin (vd : Nat) (va vb : VSrc) (s : State) : Out := vectorBinary 6 false false vd va vb (fun _ a b _ => if a.toInt ≤ b.toInt then a else b) s
/-- `vmax`. -/
def execVmax (vd : Nat) (va vb : VSrc) (s : State) : Out := vectorBinary 6 false false vd va vb (fun _ a b _ => if a.toInt ≤ b.toInt then b else a) s
/-- `vminu`. -/
def execVminu (vd : Nat) (va vb : VSrc) (s : State) : Out := vectorBinary 6 false false vd va vb (fun _ a b _ => if a.toNat ≤ b.toNat then a else b) s
/-- `vmaxu`. -/
def execVmaxu (vd : Nat) (va vb : VSrc) (s : State) : Out := vectorBinary 6 false false vd va vb (fun _ a b _ => if a.toNat ≤ b.toNat then b else a) s
/-- `vabsd`. -/
def execVabsd (vd : Nat) (va vb : VSrc) (s : State) : Out :=
  vectorBinary 6 false false vd va vb (fun _ a b _ => BitVec.ofNat 32 (a.toInt - b.toInt).natAbs) s
/-- `vaddc`. -/
def execVaddc (vd : Nat) (va vb : VSrc) (s : State) : Out :=
  vectorBinary 6 false false vd va vb (fun _ a b _ => BitVec.ofNat 32 ((a.toNat + b.toNat) / 2 ^ 32)) s
/-- `vdot4`. -/
def execVdot4 (vd : Nat) (va vb : VSrc) (s : State) : Out := vectorBinary 8 false true vd va vb (fun _ a b c => dot4 false a b c) s
/-- `vdot4u`. -/
def execVdot4u (vd : Nat) (va vb : VSrc) (s : State) : Out := vectorBinary 8 false true vd va vb (fun _ a b c => dot4 true a b c) s

/-! ### Immediates (R279) -/

/-- `vaddi`. -/
def execVaddi (vd : Nat) (va : VSrc) (imm : Nat) (s : State) : Out :=
  vectorUnary true true false vd va (fun h a => satWord h.mods.sat (a.toInt + h.simm 10 imm)) s
/-- `vandi`. -/
def execVandi (vd : Nat) (va : VSrc) (imm : Nat) (s : State) : Out :=
  vectorUnary false true false vd va (fun h a => a &&& BitVec.ofInt 32 (h.simm 10 imm)) s
/-- `vori`. -/
def execVori (vd : Nat) (va : VSrc) (imm : Nat) (s : State) : Out :=
  vectorUnary false true false vd va (fun h a => a ||| BitVec.ofNat 32 (h.immNat 10 imm)) s
/-- `vshi`: no bit of a combined immediate above bit 6 may be set. -/
def execVshi (vd : Nat) (va : VSrc) (kind amt : Nat) (s : State) : Out :=
  vectorUnary false true (s.cur.hints.imm.getD 0 != 0) vd va (fun _ a => shiftLane kind a amt) s
/-- `vmovi`. -/
def execVmovi (vd imm : Nat) (s : State) : Out := vectorConst true vd (fun h _ => BitVec.ofInt 32 (h.simm 10 imm)) s

/-! ### Unary forms (R280) -/

/-- `vmov`. -/
def execVmov (vd : Nat) (va : VSrc) (s : State) : Out := vectorUnary false false false vd va (fun _ a => a) s
/-- `vnot`. -/
def execVnot (vd : Nat) (va : VSrc) (s : State) : Out := vectorUnary false false false vd va (fun _ a => ~~~a) s
/-- `vneg`. -/
def execVneg (vd : Nat) (va : VSrc) (s : State) : Out := vectorUnary true false false vd va (fun h a => satWord h.mods.sat (-a.toInt)) s
/-- `vabs`. -/
def execVabs (vd : Nat) (va : VSrc) (s : State) : Out :=
  vectorUnary true false false vd va (fun h a => satWord h.mods.sat (a.toInt.natAbs : Int)) s
/-- `vpopc`. -/
def execVpopc (vd : Nat) (va : VSrc) (s : State) : Out := vectorUnary false false false vd va (fun _ a => BitVec.ofNat 32 (popNat a.toNat 32)) s
/-- `vclz`. -/
def execVclz (vd : Nat) (va : VSrc) (s : State) : Out := vectorUnary false false false vd va (fun _ a => BitVec.ofNat 32 (clzNat a.toNat 32)) s
/-- `vctz`. -/
def execVctz (vd : Nat) (va : VSrc) (s : State) : Out := vectorUnary false false false vd va (fun _ a => BitVec.ofNat 32 (ctzNat a.toNat 0 32)) s
/-- `vbrev`. -/
def execVbrev (vd : Nat) (va : VSrc) (s : State) : Out := vectorUnary false false false vd va (fun _ a => BitVec.ofNat 32 (brevNat a.toNat 32)) s
/-- `vext`. -/
def execVext (vd : Nat) (va : VSrc) (half zext : Bool) (s : State) : Out :=
  let w := if half then 16 else 8
  vectorUnary false false false vd va (fun _ a => if zext then BitVec.ofNat 32 (field a 0 w) else sext32 (field a 0 w) w) s
/-- `vlid`. -/
def execVlid (vd : Nat) (s : State) : Out := vectorConst false vd (fun _ l => BitVec.ofNat 32 l) s

/-! ### Compares (R281) -/

/-- A compare form: each active lane's bit of p is the outcome of the test. -/
def vectorCompare (p : Nat) (va vb : VSrc) (f : W32 → W32 → Bool) (s : State) : Out :=
  Form.pure_ { srcs := [rv va.reg, rv vb.reg], dsts := [rp p], sels := [va.sel, vb.sel], lat := 6, z := true } s fun h t =>
    t.putP p t.exm h.mods.zero fun l => f (t.g.readSrc va l) (t.g.readSrc vb l)

/-- `vcmp`. -/
def execVcmp (p cond : Nat) (va vb : VSrc) (uns : Bool) (s : State) : Out :=
  vectorCompare p va vb (fun a b => condWord cond 32 uns a.toNat b.toNat) s
/-- `vfcmp`. -/
def execVfcmp (p cond : Nat) (va vb : VSrc) (s : State) : Out := vectorCompare p va vb (fun a b => condFloat cond a.toNat b.toNat) s

end Sys2Proof.Machine
end

