-- ==== Sys2Proof/Machine/VFloat.lean ====
section
/-!
DEFINITION. Floating-point arithmetic, conversion, packing and block quantisation: majors 0x28 to 0x30 (R277, R282 to R286).
-/
namespace Sys2Proof.Machine
open Sys2Proof

/-- An element operation carried out on a whole lane as FP32, or on each half under PK (R277, R34). -/
def onElements (pk : Nat) (f : NumFmt → Nat → Nat → Nat → Nat) (a b c : W32) : W32 :=
  if pk = 0 then BitVec.ofNat 32 (f fp32 a.toNat b.toNat c.toNat)
  else
    let half := fun k => f (halfFmt pk) (field a (16 * k) 16) (field b (16 * k) 16) (field c (16 * k) 16) % 65536
    BitVec.ofNat 32 (half 0 + half 1 * 65536)

/-- An exact result rounded once in the mode and with the saturation of the modifiers (R277). -/
def ModHint.round (m : ModHint) (f : NumFmt) (x : XReal) : Nat := roundFmt x (f.withSat m.sat) m.mode

/-- A VV floating-point form (R282): `f` gives an element's pattern from the modifiers, the format and a, b and the old vd. -/
def floatBinary (lat : Nat) (round pk acc : Bool) (vd : Nat) (va vb : VSrc) (f : ModHint → NumFmt → Nat → Nat → Nat → Nat) (s : State) : Out :=
  Form.pure_ { srcs := [rv va.reg, rv vb.reg] ++ (if acc then [rv vd] else []), dsts := [rv vd], sels := [va.sel, vb.sel], lat := lat,
               rnd := round, sat := round, h2 := pk, b2 := pk, z := true } s fun h t =>
    t.putV (lat == 0) false vd t.exm h.mods.zero fun l =>
      onElements h.mods.pk (f h.mods) (t.g.readSrc va l) (t.g.readSrc vb l) (t.g.srcLane vd l)

/-- A VU floating-point form (R283): `f` gives an element's pattern from the modifiers, the format and a. -/
def floatUnary (lat : Nat) (rnd sat pk : Bool) (vd : Nat) (va : VSrc) (f : ModHint → NumFmt → Nat → Nat) (s : State) : Out :=
  Form.pure_ { srcs := [rv va.reg], dsts := [rv vd], sels := [va.sel], lat := lat, rnd := rnd, sat := sat, h2 := pk, b2 := pk, z := true } s
    fun h t => t.putV (lat == 0) false vd t.exm h.mods.zero fun l =>
      onElements h.mods.pk (fun g a _ _ => f h.mods g a) (t.g.readSrc va l) 0 0

/-- The sum of exact terms, rounded once (R277). -/
def ModHint.roundSum (m : ModHint) (f : NumFmt) (ts : List XReal) : Nat := m.round f (sumTerms (m.mode == 3) ts)

/-! ### Binary forms (R282) -/

/-- `vfadd`. -/
def execVfadd (vd : Nat) (va vb : VSrc) (s : State) : Out :=
  floatBinary 8 true true false vd va vb (fun m f a b _ => m.roundSum f [decodeFmt a f, decodeFmt b f]) s
/-- `vfsub`. -/
def execVfsub (vd : Nat) (va vb : VSrc) (s : State) : Out :=
  floatBinary 8 true true false vd va vb (fun m f a b _ => m.roundSum f [decodeFmt a f, (decodeFmt b f).negate]) s
/-- `vfmul`. -/
def execVfmul (vd : Nat) (va vb : VSrc) (s : State) : Out :=
  floatBinary 8 true true false vd va vb (fun m f a b _ => m.round f ((decodeFmt a f).mul (decodeFmt b f))) s
/-- `vfma`. -/
def execVfma (vd : Nat) (va vb : VSrc) (s : State) : Out :=
  floatBinary 8 true true true vd va vb (fun m f a b c => m.roundSum f [(decodeFmt a f).mul (decodeFmt b f), decodeFmt c f]) s
/-- `vfmin`: FSel, no rounding. -/
def execVfmin (vd : Nat) (va vb : VSrc) (s : State) : Out := floatBinary 8 false true false vd va vb (fun _ f a b _ => fsel false a b f) s
/-- `vfmax`: FSel, no rounding. -/
def execVfmax (vd : Nat) (va vb : VSrc) (s : State) : Out := floatBinary 8 false true false vd va vb (fun _ f a b _ => fsel true a b f) s
/-- `vfdiv`. -/
def execVfdiv (vd : Nat) (va vb : VSrc) (s : State) : Out :=
  floatBinary 0 true false false vd va vb (fun m f a b _ => m.round f ((decodeFmt a f).div (decodeFmt b f))) s
/-- `vfms`. -/
def execVfms (vd : Nat) (va vb : VSrc) (s : State) : Out :=
  floatBinary 8 true true true vd va vb (fun m f a b c => m.roundSum f [(decodeFmt a f).mul (decodeFmt b f), (decodeFmt c f).negate]) s

/-- The pair dot product of Table 15-6: c + a.lo × b.lo + a.hi × b.hi, rounded once to FP32. -/
def pairDot (g : NumFmt) (m : ModHint) (a b c : Nat) : Nat :=
  m.roundSum fp32 [decodeFmt c fp32, (decodeFmt (natField a 0 16) g).mul (decodeFmt (natField b 0 16) g),
    (decodeFmt (natField a 16 16) g).mul (decodeFmt (natField b 16 16) g)]

/-- `vbdot2`. -/
def execVbdot2 (vd : Nat) (va vb : VSrc) (s : State) : Out :=
  floatBinary 10 true false true vd va vb (fun m _ a b c => pairDot bf16 m a b c) s
/-- `vhdot2`. -/
def execVhdot2 (vd : Nat) (va vb : VSrc) (s : State) : Out :=
  floatBinary 10 true false true vd va vb (fun m _ a b c => pairDot fp16 m a b c) s

/-! ### Unary forms (R283) -/

/-- A pattern with its sign cleared or inverted; NaN gives the NaN pattern (Table 15-7). -/
def signForm (invert : Bool) (f : NumFmt) (a : Nat) : Nat :=
  if (decodeFmt a f).isNan then nanPattern f
  else if invert then a ^^^ f.magMask else a % f.magMask

/-- `vfabs`. -/
def execVfabs (vd : Nat) (va : VSrc) (s : State) : Out := floatUnary 8 false false true vd va (fun _ f a => signForm false f a) s
/-- `vfneg`. -/
def execVfneg (vd : Nat) (va : VSrc) (s : State) : Out := floatUnary 8 false false true vd va (fun _ f a => signForm true f a) s

/-- `vfrcp`. -/
def execVfrcp (vd : Nat) (va : VSrc) (s : State) : Out :=
  floatUnary 0 true true false vd va (fun m f a => m.round f ((XReal.fin false 1 1 0).div (decodeFmt a f))) s

/-- 1/√a rounded, with the special cases of Table 15-7. -/
def roundRsq (f : NumFmt) (mode : Nat) (a : XReal) : Nat :=
  match a with
  | .nan => nanPattern f
  | .zero n => roundFmt (.inf n) f mode
  | .inf true => nanPattern f
  | .inf false => 0
  | .fin true _ _ _ => nanPattern f
  | .fin false n d e => roundSqrt d n (-e) f mode

/-- √a rounded, with the special cases of Table 15-7. -/
def roundRoot (f : NumFmt) (mode : Nat) (a : XReal) : Nat :=
  match a with
  | .nan => nanPattern f
  | .zero n => roundFmt (.zero n) f mode
  | .inf true => nanPattern f
  | .inf false => roundFmt (.inf false) f mode
  | .fin true _ _ _ => nanPattern f
  | .fin false n d e => roundSqrt n d e f mode

/-- log2 a rounded, with the special cases of Table 15-7. -/
def roundLog (f : NumFmt) (mode : Nat) (a : XReal) : Nat :=
  match a with
  | .nan => nanPattern f
  | .zero _ => roundFmt (.inf true) f mode
  | .inf true => nanPattern f
  | .inf false => roundFmt (.inf false) f mode
  | .fin true _ _ _ => nanPattern f
  | .fin false n _ e => roundLog2 n e f mode

/-- sin a or cos a rounded, with the special cases of Table 15-7. -/
def roundCircle (cosine : Bool) (f : NumFmt) (mode : Nat) (a : XReal) : Nat :=
  match a with
  | .nan => nanPattern f
  | .inf _ => nanPattern f
  | .zero n => if cosine then roundFmt (.fin false 1 1 0) f mode else roundFmt (.zero n) f mode
  | .fin neg n _ e => roundTrig cosine neg n e f mode

/-- `vfrsq`. -/
def execVfrsq (vd : Nat) (va : VSrc) (s : State) : Out :=
  floatUnary 0 true true false vd va (fun m f a => roundRsq (f.withSat m.sat) m.mode (decodeFmt a f)) s
/-- `vfsqrt`. -/
def execVfsqrt (vd : Nat) (va : VSrc) (s : State) : Out :=
  floatUnary 0 true true false vd va (fun m f a => roundRoot (f.withSat m.sat) m.mode (decodeFmt a f)) s
/-- `vfexp2`. -/
def execVfexp2 (vd : Nat) (va : VSrc) (s : State) : Out :=
  floatUnary 0 true true false vd va (fun m f a => roundExp2 (decodeFmt a f) (f.withSat m.sat) m.mode) s
/-- `vflog2`. -/
def execVflog2 (vd : Nat) (va : VSrc) (s : State) : Out :=
  floatUnary 0 true true false vd va (fun m f a => roundLog (f.withSat m.sat) m.mode (decodeFmt a f)) s
/-- `vfsin`. -/
def execVfsin (vd : Nat) (va : VSrc) (s : State) : Out :=
  floatUnary 0 true true false vd va (fun m f a => roundCircle false (f.withSat m.sat) m.mode (decodeFmt a f)) s
/-- `vfcos`. -/
def execVfcos (vd : Nat) (va : VSrc) (s : State) : Out :=
  floatUnary 0 true true false vd va (fun m f a => roundCircle true (f.withSat m.sat) m.mode (decodeFmt a f)) s

/-- The one-hot class of an FP32 pattern (Table 15-8). -/
def classOf (a : Nat) : Nat :=
  match decodeFmt a fp32 with
  | .nan => 2 ^ 8
  | .inf true => 2 ^ 0
  | .inf false => 2 ^ 7
  | .zero true => 2 ^ 3
  | .zero false => 2 ^ 4
  | .fin neg _ _ _ =>
    let sub := natField a 23 8 == 0
    if neg then (if sub then 2 ^ 2 else 2 ^ 1) else (if sub then 2 ^ 5 else 2 ^ 6)

/-- `vfclass`. -/
def execVfclass (vd : Nat) (va : VSrc) (s : State) : Out := floatUnary 8 false false false vd va (fun _ _ a => classOf a) s

/-- A value rounded to an integral value in a mode, keeping its sign (Table 15-7). -/
def roundIntegral (f : NumFmt) (mode : Nat) (a : XReal) : Nat :=
  match a with
  | .fin neg n _ e =>
    if 0 ≤ e then roundFmt a f mode
    else
      let d := 2 ^ (-e).toNat
      let k := n / d
      let k := if roundsUp mode neg k (fracClass (n % d) d) then k + 1 else k
      if k = 0 then roundFmt (.zero neg) f mode else roundFmt (.fin neg k 1 0) f mode
  | x => roundFmt x f mode

/-- `vfrint`. -/
def execVfrint (vd : Nat) (va : VSrc) (s : State) : Out :=
  floatUnary 8 true false false vd va (fun m f a => roundIntegral f m.mode (decodeFmt a f)) s

/-! ### Conversion (R284, R285) -/

/-- The descriptor that a group's format register holds. -/
def Group.fmtReg (g : Group) (n : Nat) : W32 := g.fmt.getD n 0

/-- The type that a `vcvt` index names (Table 15-9). -/
def cvtFmt (g : Group) (x : Nat) : NumFmt :=
  match x with
  | 0 => bf16
  | 1 => fp16
  | 2 => e4m3
  | 3 => e5m2
  | 4 => intFmt 8
  | 5 => uintFmt 8
  | 6 => intFmt 4
  | 7 => uintFmt 4
  | 8 => intFmt 16
  | 9 => uintFmt 16
  | 10 => intFmt 32
  | 11 => uintFmt 32
  | n => descFmt (g.fmtReg (n - 12))

/-- `vcvt` (R284). -/
def execVcvt (vd : Nat) (va : VSrc) (dir : Bool) (x : Nat) (s : State) : Out :=
  Form.run { srcs := [rv va.reg], dsts := [rv vd], sels := [va.sel], lat := 8, rnd := true, sat := !dir && decide (x ≤ 3), z := true } s
    fun h t => do
      let d := t.g.fmtReg (x - 12)
      trapIf (decide (12 ≤ x) && (!descValid d || descBs d)) codeFmt
      let f := cvtFmt t.g x
      pure (t.putV false false vd t.exm h.mods.zero fun l =>
        let a := (t.g.readSrc va l).toNat
        BitVec.ofNat 32 (if dir then roundFmt (decodeFmt (a % 2 ^ f.width) f) fp32 h.mods.mode else h.mods.round f (decodeFmt a fp32)))

/-- `vpack` (R285). -/
def execVpack (vd : Nat) (va vb : VSrc) (s : State) : Out :=
  Form.pure_ { srcs := [rv va.reg, rv vb.reg], dsts := [rv vd], sels := [va.sel, vb.sel], lat := 8, rnd := true, sat := true,
               h2 := true, b2 := true, pkNeeded := true, z := true } s fun h t =>
    t.putV false false vd t.exm h.mods.zero fun l =>
      let half := fun (x : W32) => h.mods.round (halfFmt h.mods.pk) (decodeFmt x.toNat fp32)
      BitVec.ofNat 32 (half (t.g.readSrc va l) + half (t.g.readSrc vb l) * 65536)

/-- `vunpk` (R285). -/
def execVunpk (vd : Nat) (va vb : VSrc) (s : State) : Out :=
  Form.pure_ { srcs := [rv va.reg, rv vb.reg], dsts := [rv vd], sels := [va.sel, vb.sel], lat := 8,
               h2 := true, b2 := true, pkNeeded := true, z := true } s fun h t =>
    t.putV false false vd t.exm h.mods.zero fun l =>
      let k := field (t.g.readSrc vb l) 0 1
      BitVec.ofNat 32 (roundFmt (decodeFmt (field (t.g.readSrc va l) (16 * k) 16) (halfFmt h.mods.pk)) fp32 0)

/-! ### Block quantisation (R286) -/

/-- The value of the uniform register that a required `hint.ext` names. -/
def State.extWord (s : State) (h : Hints) : W64 := (h.ext.map fun e => s.g.srcS e.reg).getD 0

/-- Elements packed from the low lanes of a block on (R34): `per` of them to a lane. -/
def packLane (codes : List Nat) (per k : Nat) : Nat :=
  ((List.range per).map fun j => codes.getD (per * k + j) 0 * 2 ^ (32 / per * j)).foldl (· + ·) 0

/-- Elements of a block to a lane: 8 nibbles or 4 bytes. -/
def perLane (f : NumFmt) : Nat := if f.width ≤ 4 then 8 else 4

/-- Lanes of the data of one block. -/
def dataLanes (f : NumFmt) : Nat := 16 / perLane f

/-- A lane of `vqblk`'s result, from the two blocks. -/
def qblkLane (f : NumFmt) (b0 b1 : Block) (l : Nat) : W32 :=
  let n := dataLanes f
  let entry := fun (b : Block) => b.x + 256 * ((List.range 8).map fun j => b.mu.getD j 0 * 2 ^ j).foldl (· + ·) 0
  BitVec.ofNat 32 (if l < n then packLane b0.codes (perLane f) l
    else if l < 2 * n then packLane b1.codes (perLane f) (l - n)
    else if l = 16 then entry b0 else if l = 17 then entry b1 else 0)

/-- `vqblk` (R286). -/
def execVqblk (vd : Nat) (va : VSrc) (s : State) : Out :=
  Form.run { srcs := [rv va.reg], dsts := [rv vd], sels := [va.sel], lat := 10, rnd := true, z := true, ext := [1], extNeeded := true } s
    fun h t => do
      let d := t.g.fmtReg (field (t.extWord h) 0 3)
      trapIf (!descValid d || !descBs d) codeFmt
      let x := fun l => if laneOn t.exm l then decodeFmt (t.g.readSrc va l).toNat fp32 else .zero false
      let b := fun k => blockScale ((List.range 16).map fun i => x (16 * k + i)) (descFmt d) (descMe d) h.mods.mode
      pure (t.putV false false vd t.exm h.mods.zero (qblkLane (descFmt d) (b 0) (b 1)))

/-- The value of element `i` of block `b` in `vdqblk`'s source (R286). -/
def dqblkValue (f : NumFmt) (me : Bool) (src : Nat → W32) (b i : Nat) : XReal :=
  let per := perLane f
  let code := field (src (dataLanes f * b + i / per)) (32 / per * (i % per)) f.width
  let e := src (16 + b)
  blockValue code (field e 0 8) (if me then field e (8 + i / 2) 1 else 0) f

/-- `vdqblk` (R286): codes and scales are read whatever the mask. -/
def execVdqblk (vd : Nat) (va : VSrc) (s : State) : Out :=
  Form.run { srcs := [rv va.reg], dsts := [rv vd], sels := [va.sel], lat := 10, rnd := true, sat := true, z := true,
             ext := [1], extNeeded := true } s fun h t => do
      let d := t.g.fmtReg (field (t.extWord h) 0 3)
      trapIf (!descValid d || !descBs d) codeFmt
      pure (t.putV false false vd t.exm h.mods.zero fun l =>
        BitVec.ofNat 32 (h.mods.round fp32 (dqblkValue (descFmt d) (descMe d) (t.g.readSrc va) (l / 16) (l % 16))))

end Sys2Proof.Machine
end

