-- ==== Sys2Proof/Machine/VCross.lean ====
section
/-!
DEFINITION. Cross-lane forms: permutation, reductions, scans, compaction, pruning and bitmaps; majors 0x23 to 0x27 (R287 to R293).
-/
namespace Sys2Proof.Machine
open Sys2Proof

/-- `vperm` (R287): gathers. -/
def execVperm (vd : Nat) (va vb : VSrc) (s : State) : Out :=
  Form.pure_ { srcs := [rv va.reg, rv vb.reg], dsts := [rv vd], sels := [va.sel, vb.sel], lat := 12, z := true } s fun h t =>
    t.putV false false vd t.exm h.mods.zero fun l =>
      let k := (t.g.readSrc vb l).toNat
      if k < 32 then t.g.readSrc va k else 0

/-- `vpermx` (R287): scatters; the highest sending lane wins. -/
def execVpermx (vd : Nat) (va vb : VSrc) (s : State) : Out :=
  Form.pure_ { srcs := [rv va.reg, rv vb.reg, rv vd], dsts := [rv vd], sels := [va.sel, vb.sel], lat := 12, z := true } s fun h t =>
    let senders := (lanesOf t.exm).reverse
    t.putV false false vd t.exm h.mods.zero fun r =>
      match senders.find? (fun l => (t.g.readSrc vb l).toNat == r) with
      | some l => t.g.readSrc va l
      | none => t.g.srcLane vd r

/-- A form of major 0x24 that writes a uniform register (R288) from the values of the active lanes. -/
def vectorToScalar (fp : Bool) (sd : Nat) (va : VSrc) (f : ModHint → (Nat → W32) → W32 → W64) (s : State) : Out :=
  Form.pure_ { srcs := [rv va.reg], dsts := [rs sd], sels := [va.sel], lat := 12, rnd := fp, sat := fp } s fun h t =>
    t.putS false false sd (f h.mods (t.g.readSrc va) t.exm)

/-- `vballot` (Table 15-10). -/
def execVballot (sd : Nat) (va : VSrc) (s : State) : Out :=
  vectorToScalar false sd va (fun _ a m => BitVec.ofNat 64 (maskBy fun l => laneOn m l && a l != 0).toNat) s

/-- A lane's value as a signed or an unsigned integer. -/
def laneInt (uns : Bool) (x : W32) : Int := if uns then (x.toNat : Int) else x.toInt

/-- `vredadd` (Table 15-10): the exact sum. -/
def execVredadd (sd : Nat) (va : VSrc) (uns : Bool) (s : State) : Out :=
  vectorToScalar false sd va (fun _ a m => BitVec.ofInt 64 (((lanesOf m).map fun l => laneInt uns (a l)).foldl (· + ·) 0)) s

/-- `vredmin` (Table 15-10): its starting value is what an empty mask gives. -/
def execVredmin (sd : Nat) (va : VSrc) (uns : Bool) (s : State) : Out :=
  vectorToScalar false sd va (fun _ a m =>
    BitVec.ofInt 64 (((lanesOf m).map fun l => laneInt uns (a l)).foldl min (if uns then 0xFFFFFFFF else 0x7FFFFFFF))) s

/-- `vredmax` (Table 15-10). -/
def execVredmax (sd : Nat) (va : VSrc) (uns : Bool) (s : State) : Out :=
  vectorToScalar false sd va (fun _ a m =>
    BitVec.ofInt 64 (((lanesOf m).map fun l => laneInt uns (a l)).foldl max (if uns then 0 else -0x80000000))) s

/-- One step of the butterfly of R289: every lane adds its partner's value. -/
def butterflyStep (m : ModHint) (xs : List XReal) (d : Nat) : List XReal :=
  allLanes.map fun l => decodeFmt (m.roundSum fp32 [xs.getD l .nan, xs.getD (l ^^^ d) .nan]) fp32

/-- `vfredadd` (R289). -/
def execVfredadd (sd : Nat) (va : VSrc) (s : State) : Out :=
  vectorToScalar true sd va (fun h a m =>
    let xs := allLanes.map fun l => if laneOn m l then decodeFmt (a l).toNat fp32 else .zero false
    BitVec.ofNat 64 (h.round fp32 (([1, 2, 4, 8, 16].foldl (butterflyStep h) xs).getD 0 .nan))) s

/-- `vfredmax` (Table 15-10): FSel over the active lanes, from −∞ for an empty mask. -/
def execVfredmax (sd : Nat) (va : VSrc) (s : State) : Out :=
  vectorToScalar false sd va (fun _ a m =>
    match (lanesOf m).map fun l => (a l).toNat with
    | [] => 0xFF800000
    | x :: xs =>
      let r := xs.foldl (fun acc y => fsel true acc y fp32) x
      BitVec.ofNat 64 (if (decodeFmt r fp32).isNan then nanPattern fp32 else r)) s

/-- `vfirst` (Table 15-10). -/
def execVfirst (sd : Nat) (va : VSrc) (s : State) : Out :=
  vectorToScalar false sd va (fun _ a m => BitVec.ofNat 64 (((lanesOf m).find? fun l => a l != 0).getD 32)) s

/-- `vread` (Table 15-10): lane k, active or not. -/
def execVread (sd : Nat) (va : VSrc) (k : Nat) (s : State) : Out :=
  vectorToScalar false sd va (fun _ a _ => BitVec.ofNat 64 (a k).toNat) s

/-- `vwrite` (Table 15-10): lane k of the register written if it is active; the other active lanes are kept, and are no source. -/
def execVwrite (sd vd k : Nat) (s : State) : Out :=
  let one : W32 := s.exm &&& BitVec.ofNat 32 (2 ^ k)
  Form.pure_ { srcs := [rs sd], dsts := [rv vd], keeps := [rv vd], lat := 12, z := true,
               wrote := some (if s.cur.hints.mods.zero then one ||| ~~~s.exm else one) } s fun h t =>
    t.putV false false vd t.exm h.mods.zero fun l => if l = k then BitVec.ofNat 32 (t.g.srcS sd).toNat else t.g.lane vd l

/-- `vbcast` (Table 15-10). -/
def execVbcast (sd vd : Nat) (s : State) : Out :=
  Form.pure_ { srcs := [rs sd], dsts := [rv vd], lat := 12, z := true } s fun h t =>
    t.putV false false vd t.exm h.mods.zero fun _ => BitVec.ofNat 32 (t.g.srcS sd).toNat

/-! ### Scans (R290) -/

/-- The operation of a scan (Table 15-11). -/
def scanOp (op : Nat) (m : ModHint) (x y : W32) : W32 :=
  match op with
  | 0 => x + y
  | 1 => if x.toInt ≤ y.toInt then x else y
  | 2 => if x.toInt ≤ y.toInt then y else x
  | 3 => if x.toNat ≤ y.toNat then x else y
  | 4 => if x.toNat ≤ y.toNat then y else x
  | _ => BitVec.ofNat 32 (m.roundSum fp32 [decodeFmt x.toNat fp32, decodeFmt y.toNat fp32])

/-- The identity of a scan (Table 15-11). -/
def scanIdentity (op : Nat) : W32 :=
  match op with
  | 1 => 0x7FFFFFFF
  | 2 => 0x80000000
  | 3 => 0xFFFFFFFF
  | _ => 0

/-- The inclusive prefix over the active lanes up to a lane: none before the first. -/
def scanTo (op : Nat) (m : ModHint) (a : Nat → W32) (ls : List Nat) : Option W32 :=
  ls.foldl (fun acc l => match acc with
    | none => some (a l)
    | some x => some (scanOp op m x (a l))) none

/-- Both scans: `f` says which active lanes count towards a lane. -/
def vectorScan (vd : Nat) (va : VSrc) (op : Nat) (upTo : Nat → Nat → Bool) (s : State) : Out :=
  Form.pure_ { srcs := [rv va.reg], dsts := [rv vd], sels := [va.sel], lat := 12, rnd := op == 5, sat := op == 5, z := true } s fun h t =>
    t.putV false false vd t.exm h.mods.zero fun l =>
      (scanTo op h.mods (t.g.readSrc va) ((lanesOf t.exm).filter (upTo l))).getD (scanIdentity op)

/-- `vscan` (R290): inclusive. -/
def execVscan (vd : Nat) (va : VSrc) (op : Nat) (s : State) : Out := vectorScan vd va op (fun l k => decide (k ≤ l)) s
/-- `vscanx` (R290): exclusive. -/
def execVscanx (vd : Nat) (va : VSrc) (op : Nat) (s : State) : Out := vectorScan vd va op (fun l k => decide (k < l)) s

/-! ### Compaction (R291) -/

/-- `vcompact`: the dense run is written whatever the mask bits of its lanes. -/
def execVcompact (vd : Nat) (va : VSrc) (s : State) : Out :=
  Form.pure_ { srcs := [rv va.reg], dsts := [rv vd], sels := [va.sel], lat := 12, z := true,
               wrote := some (if s.cur.hints.mods.zero then BitVec.allOnes 32 else maskBy fun l => decide (l < (lanesOf s.exm).length)) } s fun h t =>
    let ls := lanesOf t.exm
    t.putV false false vd (maskBy fun l => decide (l < ls.length)) h.mods.zero fun l => t.g.readSrc va (ls.getD l 0)

/-- `vexpand`. -/
def execVexpand (vd : Nat) (va : VSrc) (s : State) : Out :=
  Form.pure_ { srcs := [rv va.reg], dsts := [rv vd], sels := [va.sel], lat := 12, z := true } s fun h t =>
    t.putV false false vd t.exm h.mods.zero fun l => t.g.readSrc va ((lanesOf t.exm).filter fun k => decide (k < l)).length

/-! ### Pruning and bitmaps (R292, R293) -/

/-- Elements to a lane under a packing. -/
def perWord (pk : Nat) : Nat := if pk = 0 then 1 else 2

/-- The format of the elements under a packing. -/
def elemFmt (pk : Nat) : NumFmt := if pk = 0 then fp32 else halfFmt pk

/-- The pattern of element `i` of a register: lane and half (R292). -/
def elemPattern (pk : Nat) (a : Nat → W32) (i : Nat) : Nat :=
  if pk = 0 then (a i).toNat else field (a (i / 2)) (16 * (i % 2)) 16

/-- The saliency of an element as a BF16 pattern without its sign (R292). -/
def saliency (pk w g : Nat) : XReal :=
  decodeFmt (roundFmt ((decodeFmt w (elemFmt pk)).mul (decodeFmt g (elemFmt pk))).abs bf16 0) bf16

/-- Whether element `j` ranks above element `i` of its block: a NaN above every number, ties to the lower index. -/
def ranksAbove (x y : XReal) (j i : Nat) : Bool :=
  if x.isNan && y.isNan then decide (j < i)
  else if x.isNan then true
  else if y.isNan then false
  else XReal.lt y x || (!XReal.lt x y && decide (j < i))

/-- Whether an active element is among the k most salient of its block. -/
def kept (pk k : Nat) (m : W32) (w g : Nat → W32) (i : Nat) : Bool :=
  let sal := fun e => saliency pk (elemPattern pk w e) (elemPattern pk g e)
  let block := (List.range 16).map fun j => i / 16 * 16 + j
  let above := block.filter fun j => laneOn m (j / perWord pk) && j != i && ranksAbove (sal j) (sal i) j i
  decide (above.length < k)

/-- `vprune` (R292). -/
def execVprune (vd : Nat) (va vb : VSrc) (s : State) : Out :=
  Form.pure_ { srcs := [rv va.reg, rv vb.reg], dsts := [rv vd], sels := [va.sel, vb.sel], lat := 12, h2 := true, b2 := true, z := true,
               ext := [1], extNeeded := true } s fun h t =>
    let pk := h.mods.pk
    let w := t.g.readSrc va
    let keep := kept pk (field (t.extWord h) 0 5) t.exm w (t.g.readSrc vb)
    t.putV false false vd t.exm h.mods.zero fun l =>
      if pk = 0 then (if keep l then w l else 0)
      else BitVec.ofNat 32 ((if keep (2 * l) then field (w l) 0 16 else 0) + (if keep (2 * l + 1) then field (w l) 16 16 else 0) * 65536)

/-- The bitmap of one block of a register (R293). -/
def blockBitmap (pk : Nat) (m : W32) (a : Nat → W32) (b : Nat) : Nat :=
  ((List.range 16).map fun i =>
    let e := 16 * b + i
    if laneOn m (e / perWord pk) && !(decodeFmt (elemPattern pk a e) (elemFmt pk)).isZero then 2 ^ i else 0).foldl (· + ·) 0

/-- `vbmap` (R293). -/
def execVbmap (vd : Nat) (va vb : VSrc) (s : State) : Out :=
  Form.pure_ { srcs := [rv va.reg, rv vb.reg], dsts := [rv vd], sels := [va.sel, vb.sel], lat := 12, h2 := true, b2 := true, z := true } s
    fun h t =>
      let n := 2 * perWord h.mods.pk
      t.putV false false vd t.exm h.mods.zero fun l =>
        BitVec.ofNat 32 (if l < n then blockBitmap h.mods.pk t.exm (t.g.readSrc va) l
          else if l < 2 * n then blockBitmap h.mods.pk t.exm (t.g.readSrc vb) (l - n) else 0)

end Sys2Proof.Machine
end

