-- ==== Sys2Proof/Machine/Replay.lean ====
section
/-!
DEFINITION. Debug records, the debug-event ring, and record and replay: arbitration logs and gates, and the running hash of a group
(R20, R369 to R371, R376 to R379, R426, R427).
-/
namespace Sys2Proof.Machine
open Sys2Proof

/-- A unit of a die that is a source of hardware events (R20, Table 01-2); a number counts within the die. -/
inductive EventUnit where
  | core (n : Nat) | slice (n : Nat) | serviceGroup (n : Nat) | matrixEngine (n : Nat) | distributor | translation | directory | scaleUpPort (n : Nat)
  /-- The host port stands on C0 only. -/
  | hostPort
  deriving DecidableEq, Repr

/-- UNIT of a source number (Table 01-2). -/
def EventUnit.code : EventUnit → Nat
  | .core n => n
  | .slice n => 32 + n
  | .serviceGroup n => 64 + n
  | .matrixEngine n => 72 + n
  | .distributor => 80
  | .translation => 81
  | .directory => 82
  | .scaleUpPort n => 84 + n
  | .hostPort => 120

/-- Whether a die has a unit (Table 01-2). -/
def EventUnit.exists (die : Nat) : EventUnit → Bool
  | .core n => decide (n < 32)
  | .slice n => decide (n < 32)
  | .serviceGroup n => decide (n < 8)
  | .matrixEngine n => decide (n < 8)
  | .scaleUpPort n => decide (n < 36)
  | .hostPort => decide (die = 0)
  | .distributor | .translation | .directory => true

/-- The source number of a unit of a die (R20, Table 01-2): MOD, DIE and UNIT. -/
def State.sourceNumber (s : State) (die : Nat) (unit : EventUnit) : Nat := s.module * 2 ^ 11 + die % 4 * 2 ^ 9 + unit.code % 2 ^ 9

/-- The place of a hardware event in the order of R20: by time stamp, and among equal ones by source number. -/
def eventKey (stamp source : Nat) : Nat := stamp * 2 ^ 20 + source % 2 ^ 20

/-- The source number of a core. -/
def State.coreSource (s : State) (core : Nat) : Nat := s.sourceNumber (dieOf core) (.core (core % 32))

/-- A record header (Table 20-1). -/
def State.recordHeader (s : State) (core slot path kind detail : Nat) (pc : W64) (mask : W32) (handle : Nat) : List Byte :=
  toBytes 8 s.tstamp.toNat ++ toBytes 4 (s.coreSource core) ++ toBytes 1 slot ++ toBytes 1 path ++ toBytes 1 kind ++ toBytes 1 detail
    ++ toBytes 8 (pc.toNat % 2 ^ 57) ++ toBytes 4 mask.toNat ++ toBytes 4 handle

/-- The physical address of an entry of the debug-event ring (R370). -/
def State.debugEntryPa (s : State) (n : Nat) : Nat := s.cavePa 0 (0x2000 + 64 * n)

/-- Waiting debug events written to the ring while the next entry is free (R370), each raising MSI-X vector 3; `n` bounds how many. -/
def State.flushDebug (s : State) : Nat → State
  | 0 => s
  | n + 1 =>
    match s.dbgWait with
    | [] => s
    | e :: rest =>
      let pa := s.debugEntryPa s.dbgNext
      if s.mem.read (pa + 63) = 1 then s
      else
        let bs := e.header ++ toBytes 8 e.addr.toNat ++ toBytes 8 e.cause.toNat ++ (e.data ++ List.replicate 15 0).take 15 ++ [1]
        ((({ s.caveWrite pa bs with dbgNext := (s.dbgNext + 1) % 64, dbgWait := rest }).wake pa 64).sendMsix 3).flushDebug n

/-- The time stamp and the source that a debug event's header names (Table 20-1), as its place in the order of R20. -/
def DebugEvent.key (e : DebugEvent) : Nat := eventKey (fromBytes (e.header.take 8)) (fromBytes ((e.header.drop 8).take 4))

/-- A debug event posted, or put among those that wait, in their order (R20, R370). -/
def State.postDebug (s : State) (e : DebugEvent) : State :=
  let s := { s with dbgWait := insertByKey DebugEvent.key e s.dbgWait }
  s.flushDebug s.dbgWait.length

/-- ATTACH (Table 20-2). -/
def State.attached (s : State) : Bool := s.ctl.dbgctl.getLsbD 0

/-- A stop event raised for every group of a launch (R371); no effect while no debugger is attached. -/
def State.stopLaunch (s : State) (handle : Nat) : State :=
  if s.attached && handle != 0 then s.mapGroups fun g => if g.launch == handle && g.slot != 64 then { g with stopAsked := true } else g else s

/-- RRCTL.MODE, STOPDIV, CKPT and the handle of the recorded launch (Table 20-2). -/
def State.rrMode (s : State) : Nat := field s.ctl.rrctl 0 2
def State.rrStopdiv (s : State) : Bool := s.ctl.rrctl.getLsbD 2
def State.rrCkpt (s : State) : Nat := field s.ctl.rrctl 3 5
def State.rrHandle (s : State) : Nat := field s.ctl.rrctl 32 32

/-- The replay source of a group of a workgroup (R376). -/
def Workgroup.source (w : Workgroup) (gidx : Nat) : Nat := w.index * w.groups + gidx

/-- A divergence reported (R378, R379): DIVERGED set, an entry of KIND 5 posted, and with STOPDIV the launch stopped. -/
def State.diverge (s : State) (core slot path : Nat) (pc : W64) (mask : W32) (addr : W64) (data : List Byte) : State :=
  let s := { s with ctl := { s.ctl with rrstat := s.ctl.rrstat ||| 1 } }
  let s := s.postDebug { header := s.recordHeader core slot path 5 0 pc mask s.rrHandle, addr := addr, cause := 0, data := data }
  if s.rrStopdiv then s.stopLaunch s.rrHandle else s

/-- Whether a recorded-line entry is enabled for a line (R376). -/
def RecLine.covers (r : RecLine) (line : Nat) : Bool := r.entry.getLsbD 64 && field r.entry 6 46 * 64 == line

/-- The supervisor area of a die's Cave (Table 04-5): its offset and its end. -/
def supArea : Nat := 0x940000
def supEnd : Nat := 0xC00000

/-- The physical address of a chunk of the log of entry `k` of a die (R376). (DESIGN CHOICE, log entry 83, safe.) -/
def State.chunkPa (s : State) (die k i : Nat) : Nat := s.cavePa die (supArea + Config.logPlace die k % (supEnd - supArea - 4096) / 8 * 8 + 8 * i)
/-- The physical address of a record of a die's hash log (R426). (DESIGN CHOICE, log entry 83, safe.) -/
def State.hashPa (s : State) (die i : Nat) : Nat := s.cavePa die (supArea + Config.hashPlace die % (supEnd - supArea) / 16 * 16 + 16 * i)

/-- A chunk of an arbitration log as the Cave holds it (Table 20-4); none at the end of the log, its first all-zero chunk or the 512th (R426).
(DESIGN CHOICE, log entry 27, safe.) -/
def State.chunkAt (s : State) (die k i : Nat) : Option Chunk :=
  let n := s.mem.readNat (s.chunkPa die k i) 8
  if i ≥ 512 ∨ n = 0 then none else some { src := n / 2 ^ 44, run := n % 2 ^ 32 }

/-- A chunk written. -/
def State.putChunk (s : State) (die k i : Nat) (c : Chunk) : State :=
  s.caveWrite (s.chunkPa die k i) (toBytes 8 (c.src % 2 ^ 20 * 2 ^ 44 + c.run % 2 ^ 32))

/-- Where an arbitration log ends. -/
def State.logEnd (s : State) (die k : Nat) : Nat := ((List.range 512).find? fun i => (s.chunkAt die k i).isNone).getD 512

/-- One event of a source logged (R377): the last chunk grows, or a new one starts; none when all 512 chunks are used. -/
def State.logEvent (s : State) (die k src : Nat) : Option State :=
  let n := s.logEnd die k
  match if n = 0 then none else s.chunkAt die k (n - 1) with
  | some c =>
    if c.src = src ∧ c.run < 2 ^ 32 - 1 then some (s.putChunk die k (n - 1) { c with run := c.run + 1 })
    else if 512 ≤ n then none else some (s.putChunk die k n { src := src, run := 1 })
  | none => some (s.putChunk die k n { src := src, run := 1 })

/-- The records of a die's hash log (Table 27-2). (DESIGN CHOICE, log entry 27, safe.) -/
def State.hashLog (s : State) (die : Nat) : List HashRec :=
  (List.range (s.die die).hashNum).map fun i =>
    let n := s.mem.readNat (s.hashPa die i) 16
    { num := n / 2 ^ 96, src := n / 2 ^ 64 % 2 ^ 32, hash := BitVec.ofNat 64 n }

/-- A record appended to a die's hash log, while the supervisor area has room for it (R426). (DESIGN CHOICE, log entry 83, safe.) -/
def State.logHash (s : State) (die : Nat) (r : HashRec) : State :=
  let n := (s.die die).hashNum
  if s.cavePa die supEnd < s.hashPa die n + 16 then s
  else (s.caveWrite (s.hashPa die n) (toBytes 16 (r.num % 2 ^ 32 * 2 ^ 96 + r.src % 2 ^ 32 * 2 ^ 64 + r.hash.toNat))).updDie die
    fun d => { d with hashNum := n + 1 }

/-- A log that the firmware has been asked to load (R426, R428): the arbitration log of an entry of a die, or the die's hash log.
(DESIGN CHOICE, log entry 27, safe.) -/
def State.loadLog (s : State) (die : Nat) (line : Option Nat) (bs : List Byte) : State :=
  match line with
  | some k => if 64 ≤ k ∨ 4 ≤ die then s else s.caveWrite (s.chunkPa die k 0) ((bs ++ List.replicate 4096 0).take 4096)
  | none =>
    let room := (s.cavePa die supEnd - s.hashPa die 0) / 16
    let n := min (bs.length / 16) room
    if 4 ≤ die then s else (s.caveWrite (s.hashPa die 0) (bs.take (16 * n))).updDie die fun d => { d with hashNum := n }

/-- The logs of the enabled lines and the hash logs cleared, as the firmware does when MODE is written 1 (R426). -/
def State.clearLogs (s : State) : State :=
  (List.range 4).foldl (fun s die =>
    let s := ((List.range 64).filter fun k => ((s.die die).recLines.getD k {}).entry.getLsbD 64).foldl
      (fun s k => s.caveWrite (s.chunkPa die k 0) (List.replicate 4096 0)) s
    (s.caveWrite (s.hashPa die 0) (List.replicate (16 * (s.die die).hashNum) 0)).updDie die fun d => { d with hashNum := 0 }) s

/-- The recorded line of an address changed. -/
def State.updRec (s : State) (line : Nat) (f : RecLine → RecLine) : State :=
  s.updDie (homeDie line) fun d => { d with recLines := modifyFirst (fun r => r.covers line) f d.recLines }

/-- The recorded line that covers a line, and its number in its die's table. -/
def State.recOf (s : State) (line : Nat) : Option RecLine := (s.die (homeDie line)).recLines.find? fun r => r.covers line
def State.recIdx (s : State) (line : Nat) : Nat := (s.die (homeDie line)).recLines.findIdx fun r => r.covers line

/-- One request logged at a recorded line (R377). -/
def State.recordEvent (s : State) (src line : Nat) : State :=
  match s.recOf line with
  | none => s
  | some r =>
    if r.entry.getLsbD 65 then s
    else match s.logEvent (homeDie line) (s.recIdx line) src with
      | some s => s
      | none =>
        let s := s.updRec line fun r => { r with entry := r.entry ||| BitVec.ofNat 128 (2 ^ 65) }
        { s with ctl := { s.ctl with rrstat := s.ctl.rrstat ||| 2 } }

/-- The chunk at the head of a line's gate (R378). -/
def State.gateHead (s : State) (line : Nat) (r : RecLine) : Option Chunk := s.chunkAt (homeDie line) (s.recIdx line) r.pos

/-- Whether the gate of a line serves a source now (R378): it is open, the source is at its head, or its log is exhausted. -/
def State.gateServes (s : State) (line : Nat) (r : RecLine) (src : Nat) : Bool :=
  r.opened || (match s.gateHead line r with
    | none => true
    | some c => c.src == src)

/-- A request served by a gate (R378): one more of the head's RUN has been served, and after the last the next chunk is the head; an exhausted log
reports divergence and opens the gate. (DESIGN CHOICE, log entry 27, safe.) -/
def State.passGate (s : State) (w : GateWait) (line : Nat) : State :=
  match s.recOf line with
  | none => s
  | some r =>
    if r.opened then s
    else match s.gateHead line r with
      | none => (s.updRec line fun r => { r with opened := true, waiting := none }).diverge w.core w.slot w.path w.pc w.mask (BitVec.ofNat 64 line) []
      | some c =>
        s.updRec line fun r =>
          let r := if c.run ≤ r.used + 1 then { r with pos := r.pos + 1, used := 0 } else { r with used := r.used + 1 }
          { r with waiting := none, moved := s.tstamp.toNat }

/-- A request of the recorded launch brought to the recorded lines it touches (R377, R378): logged, served, or made to wait.
(DESIGN CHOICE, log entry 27, safe.) -/
def State.gateLines (s : State) (launch src : Nat) (w : GateWait) (lines : List Nat) : Res State :=
  if s.rrMode = 0 ∨ launch ≠ s.rrHandle ∨ launch = 0 then .ok s
  else
    let ls := dedup (lines.filter s.recorded)
    if s.rrMode = 1 then .ok (ls.foldl (fun s l => s.recordEvent src l) s)
    else
      let shut := ls.filter fun l => match s.recOf l with
        | some r => !s.gateServes l r src
        | none => false
      if shut.isEmpty then .ok (ls.foldl (fun s l => s.passGate w l) s)
      else .error (.pend (shut.foldl (fun s l => s.updRec l fun r =>
        if r.waiting.isSome then r else { r with waiting := some w, moved := s.tstamp.toNat }) s) .memDep)

/-- The lines of the issuing group's request gated. -/
def State.gate (s : State) (lines : List Nat) : Res State :=
  match s.myWg with
  | none => .ok s
  | some w => s.gateLines s.g.launch (w.source s.g.gidx) { core := s.g.core, slot := s.g.slot, path := if s.g.inB then 1 else 0, pc := s.cur.runPc, mask := s.exm } lines

/-! ### The running hash (R379) -/

/-- One bit of CRC-64 with the polynomial 0x42F0E1EBA9EA3693, not reflected. -/
def crcBit (c : W64) : W64 := if c.getLsbD 63 then (c <<< 1) ^^^ 0x42F0E1EBA9EA3693 else c <<< 1

/-- One byte fed to the CRC. -/
def crcByte (c : W64) (b : Byte) : W64 := (List.range 8).foldl (fun c _ => crcBit c) (c ^^^ BitVec.ofNat 64 (b.toNat * 2 ^ 56))

/-- What one lane feeds: its address word and its data bytes. -/
structure HashFeed where
  space : Nat
  addr : Nat
  data : List Byte
  deriving DecidableEq, Repr

/-- The bytes of one lane's feed. -/
def HashFeed.bytes (f : HashFeed) : List Byte := toBytes 8 (f.space * 2 ^ 60 + f.addr % 2 ^ 57) ++ f.data

/-- A checkpoint of a group's hash logged in the Cave of its die, or compared with the record of the same source and number, whichever die's log
holds it (R379, R426). (DESIGN CHOICE, log entry 27, safe.) -/
def State.checkpoint (s : State) (core slot gidx : Nat) (w : Workgroup) (num : Nat) (h : W64) (path : Nat) (pc : W64) (mask : W32) : State :=
  let src := w.source gidx
  if s.rrMode = 1 then s.logHash (dieOf core) { num := num, src := src, hash := h }
  else if s.rrMode = 2 then
    let old := ((List.range 4).flatMap s.hashLog).find? fun r => r.num == num && r.src == src
    let same := match old with
      | some r => r.hash == h
      | none => false
    if same then s
    else s.diverge core slot path pc mask ((old.map fun r => r.hash).getD 0) (toBytes 8 h.toNat ++ toBytes 4 num)
  else s

/-- The stores or atomics of one instruction of the issuing group fed to its hash (R379); a checkpoint names the path's next hint run (R369, R427). -/
def State.feedHash (s : State) (fs : List HashFeed) : State :=
  match s.myWg with
  | none => s
  | some w =>
    if s.rrMode = 0 ∨ s.g.launch ≠ s.rrHandle ∨ fs.isEmpty then s
    else
      let h := fs.foldl (fun h f => f.bytes.foldl crcByte h) s.g.hash
      let n := s.g.hashCount + 1
      let s := { s with g := { s.g with hash := h, hashCount := n } }
      if n % 2 ^ s.rrCkpt = 0 then
        s.checkpoint s.g.core s.g.slot s.g.gidx w (n / 2 ^ s.rrCkpt - 1) h (if s.g.inB then 1 else 0) (s.cur.pc + 4) s.exm
      else s

end Sys2Proof.Machine
end

