-- ==== Sys2Proof/Machine/Special.lean ====
section
/-!
DEFINITION. Special registers: major 0x0D (R199, R274, Table 10-3).
-/
namespace Sys2Proof.Machine
open Sys2Proof

/-- Whether a special register is reached only by a trap context (R357). -/
def trapReg (num : Nat) : Bool := decide (32 ≤ num)

/-- The registers that naming a special register names: a modulo register counts against its allocation (R72, R198). -/
def specialRegs (num : Nat) : List RegName := if 16 ≤ num ∧ num ≤ 23 then [rb (num - 16)] else []

/-- What `smfs` reads (Table 10-3). -/
def State.readSpecial (s : State) (num : Nat) : W64 :=
  let k := s.core s.g.core
  if num = 1 then BitVec.ofNat 64 s.g.pcfg.toNat
  else if num = 2 then BitVec.ofNat 64 s.g.schk.toNat
  else if num = 3 then s.tstamp
  else if num = 7 then s.g.dsave
  else if num ≤ 15 then BitVec.ofNat 64 (s.g.fmt.getD (num - 8) 0).toNat
  else if num ≤ 23 then s.g.bm.getD (num - 16) 0
  else if num = 32 then k.xcause
  else if num = 33 then k.xpc
  else if num = 34 then k.xaddr
  else BitVec.ofNat 64 k.xmask.toNat

/-- A value with the bits of a mask replaced by those of another. -/
def mergeBits (mask old new : Nat) : Nat := (old &&& (2 ^ 64 - 1 - mask)) ||| (new &&& mask)

/-- The writable bits of `xcause` (Table 19-1): ACTION, WSKIP, SLOT, PATH and CODE. -/
def xcauseMask : Nat := 0xE0FE003F

/-- What `smts` writes, keeping read-only and reserved bits (R29, R72, R243, R274, Tables 10-6 and 19-1). -/
def State.writeSpecial (s : State) (num : Nat) (x : W64) : State :=
  let g := s.g
  if num = 1 then { s with g := { g with pcfg := BitVec.ofNat 32 (x.toNat % 2 ^ 24) } }
  else if num = 2 then
    (if g.schk.getLsbD 2 then s else { s with g := { g with schk := setField g.schk 0 2 (field x 0 2) } })
  else if num = 7 then { s with g := { g with dsave := BitVec.ofNat 64 (x.toNat / 2048 * 2048) } }
  else if num ≤ 15 then { s with g := { g with fmt := g.fmt.set (num - 8) (BitVec.ofNat 32 (x.toNat % 2 ^ 17)) } }
  else if num ≤ 23 then { s with g := { g with bm := g.bm.set (num - 16) (BitVec.ofNat 64 (x.toNat % 2 ^ 63)) } }
  else if num = 32 then
    s.updCore g.core fun k => { k with xcause := BitVec.ofNat 64 (mergeBits xcauseMask k.xcause.toNat x.toNat) }
  else if num = 33 then s.updCore g.core fun k => { k with xpc := BitVec.ofNat 64 (x.toNat % 2 ^ 57) }
  else if num = 34 then s.updCore g.core fun k => { k with xaddr := x }
  else s.updCore g.core fun k => { k with xmask := BitVec.ofNat 32 x.toNat }

/-- `smfs` (R274). -/
def execSmfs (sd num : Nat) (s : State) : Out :=
  Form.pure_ { srcs := specialRegs num, dsts := [rs sd], sup := trapReg num, iin := trapReg num && s.g.slot != 64 } s
    fun _ t => t.putS true false sd (t.readSpecial num)

/-- `smts` (R274): a MODE of 3 for `schk` raises IIN (R243). -/
def execSmts (sa num : Nat) (s : State) : Out :=
  Form.run { srcs := [rs sa], dsts := specialRegs num, sup := trapReg num || num == 7, iin := trapReg num && s.g.slot != 64 } s
    fun _ t =>
      if num = 2 && field (t.g.srcS sa) 0 2 == 3 then trapNow codeIIN else .ok (t.writeSpecial num (t.g.srcS sa))

/-- `vmfs` (R274): numbers 4 and 5 are the halves of `wid`, 6 is `txst`. -/
def execVmfs (lo num : Nat) (hi : Bool) (s : State) : Out :=
  let vd := lo + (if hi then 64 else 0)
  Form.pure_ { dsts := [rv vd], z := true } s fun h t =>
    t.putV true false vd t.exm h.mods.zero fun l =>
      if num = 4 then BitVec.ofNat 32 (t.g.wid.getD l 0).toNat
      else if num = 5 then BitVec.ofNat 32 ((t.g.wid.getD l 0).toNat / 2 ^ 32)
      else t.g.txWord l

end Sys2Proof.Machine
end

