-- ==== Sys2Proof/Machine/Access.lean ====
section
/-!
DEFINITION. What every global access shares after its checks (R86, R187, R192, R193, R376 to R378): failed modules, poisoned lines,
requests that travel outside the module, and recorded lines; one path's load; and `mwait` (R264).
-/
namespace Sys2Proof.Machine
open Sys2Proof

/-- ECC_UNCORR where some lane consumes poisoned data (R86, Table 19-2). -/
def State.checkPoison (s : State) (k : Kind) (size : Nat) (ps : List Placed) : Res Unit :=
  match ps.filter fun p => (s.poisonedLine p.pa size).isSome with
  | [] => .ok ()
  | p :: rest => .error (.trap
      { code := codeEcc, addr := BitVec.ofNat 64 ((s.poisonedLine p.pa size).getD 0),
        mask := some (maskOf ((p :: rest).map fun q => q.lane)), info := k.info })

/-! ### Waiting for earlier accesses of the group -/

/-- The code of an on-chip space in a hash's address word (R379), and as the space of an atomic (R64). -/
def Space.hashCode : Space → Nat
  | .scratch => 1
  | .slice _ => 2
  | .cluster => 3
  | .cave => 4
def Space.atomCode : Space → Nat
  | .scratch => 1
  | .slice _ => 1
  | .cluster => 2
  | .cave => 3

/-- Whether an access kind writes. -/
def Kind.writes (k : Kind) : Bool := k == .store || k == .atomic || k == .reduction

/-- Whether an order is `acq`, `ar` or `sc` (Table 07-2). -/
def Hints.acquires (h : Hints) : Bool :=
  match h.ord with
  | some o => o.order == 1 || o.order == 3 || o.order == 4
  | none => false

/-- Whether some atomic or load of the group on its way to an on-chip memory has an order that later accesses of its threads wait for (R130,
R139 to R141). -/
def State.acqPending (s : State) : Bool :=
  s.clusters.any fun c => c.sg.any (fun e => e.ident == s.g.ident && e.acq) || c.xbar.any fun x => x.ident == s.g.ident && x.acq

/-- Whether some load of cluster memory of the group, and whether some such load or atomic with return, has yet to take its value: writes of its
threads are performed after it (R138). -/
def State.loadOpen (s : State) : Bool := s.clusters.any fun c => c.xbar.any fun x => x.ident == s.g.ident && x.load
def State.readOpen (s : State) : Bool := s.loadOpen || s.clusters.any fun c => c.sg.any fun e => e.ident == s.g.ident && e.ret

/-- Whether a posted request outside the module holds back an access to a run of bytes: one of the group (Table 07-5 row 1), a strong one
(R142), or, for an atomic or an `sc` access of wide scope, any (R137, R142). -/
def State.postHolds (s : State) (k : Kind) (strong : Bool) (pa n : Nat) : Bool :=
  s.fabric.any fun r => r.posted && (r.ident == s.g.ident || r.strong || strong || k == .atomic || k == .reduction) && r.meets pa n

/-- Whether earlier accesses of the group, or posted ones of others, hold back a global access (R119, R130, R138, Table 07-5), or a press that the
group asked for holds its wheel (R122). -/
def State.globalBusy (s : State) (k : Kind) (strong : Bool) (ps : List Placed) (size : Nat) : Bool :=
  s.defer && (s.acqPending || (k.writes && s.readOpen) || ps.any fun p =>
    (s.clusters.any fun c => c.intake.any fun u => u.ident == s.g.ident && u.wheel == wheelOf p.pa)
      || (s.g.pressWait.any fun w => w.2 == wheelOf p.pa)
      || s.postHolds k strong p.pa size)

/-- Whether the frame that a press of the group is to fill meets a run of bytes of an on-chip space (R122). -/
def State.frameHeld (s : State) (sp : Space) (meets : Nat → Nat → Bool) : Bool :=
  s.wheels.any fun w => decide (w.state = .pressing) && (s.g.pressWait.any fun x => x.2 == w.wheel) && match w.after, sp with
    | some (.residentF false _ off), .cluster => meets off 2048
    | some (.residentF true d off), .cave => (s.caveEntry d s.g.asid).any fun e => meets (off - e.1) 2048
    | _, _ => false

/-- Whether an access of the group on the crossbar reaches bytes of a run in cluster memory, or left another core (R74). -/
def State.xbarMeets (s : State) (sp : Space) (size : Nat) (offs : List Nat) : Bool :=
  sp == .cluster && s.clusters.any fun c => c.xbar.any fun x => x.ident == s.g.ident
    && (x.core != s.g.core || x.parts.any fun p => offs.any fun o => decide (p.2.1 < o + size) && decide (o < p.2.1 + p.2.2.length))

/-- Whether earlier atomics of the group to bytes of an on-chip access, at some offsets, are still in a service group's queue, or accesses to them on
the crossbar (Table 07-5 row 1, R74, R106), or earlier accesses hold it back by their order (R130, R138), or it reaches a frame that a press of the group is to fill (R122). Other atomics
are not waited for (R149). -/
def State.chipBusy (s : State) (k : Kind) (sp : Space) (size : Nat) (offs : List Nat) : Bool :=
  let slice := match sp with
    | .slice _ => true
    | _ => false
  let meets := fun (a n : Nat) => offs.any fun o => decide (a < o + size) && decide (o < a + n)
  s.defer && (s.acqPending || (k.writes && s.readOpen) || (!slice
    && ((s.clusters.any fun c => c.sg.any fun e => e.ident == s.g.ident && e.space == sp.atomCode
          && e.reqs.any fun r => meets r.addr r.size)
      || s.xbarMeets sp size offs
      || s.frameHeld sp meets)))

/-- An access waits while such accesses are pending. -/
def waitWhile (b : Bool) : Res Unit := if b then .error (.wait .memDep) else .ok ()

/-- Whether an access is an `sc` one of scope `dev` or wider (R142). -/
def Hints.strong (h : Hints) : Bool :=
  match h.ord with
  | some o => o.order == 4 && decide (3 ≤ o.scope)
  | none => false

/-! ### Requests outside the module -/

/-- Whether a store or reduction is sent over the fabric (R188). -/
def State.posts (s : State) (p : Placed) : Bool := decide (s.route p.leaf.pte p.pa = .remote)

/-- Whether a load of some bytes at a format leaves the module: the slice does not hold a line of another module at that format or at full (R188,
R190), or the device does not hold the bytes of a line of host memory (R66, R182). -/
def State.loadLeaves (s : State) (n : Nat) (tag : Tag) (p : Placed) : Bool :=
  match s.route p.leaf.pte p.pa with
  | .remote => !s.holdsRemote (s.remoteTag p.leaf.pte p.pa tag) (lineOf p.pa)
  | .hostDirect => true
  | .hostCached => !s.hostHolds s.g.core (lineOf p.pa) (byteMask (p.pa % 64) n)
  | _ => false

/-- Whether a load outside the module fetches a whole wheel (R188): it is of memory that may be cached. -/
def State.fetchesWheel (s : State) (p : Placed) : Bool :=
  s.posts p && !pteBit p.leaf.pte 7 && decide (placeOf (localOf p.pa) = .hbm) && !s.recorded (lineOf p.pa)

/-- Requests sent for the lanes that leave the module, and their answers awaited (R187, R192). (DESIGN CHOICE, log entry 61, safe.) -/
def State.askFabric (s : State) (k : Kind) (ps : List Placed) : Res Unit :=
  if ps.isEmpty || !s.defer then .ok ()
  else s.ask k (requestLanes k true (ps.filter fun p => k == .load && s.fetchesWheel p)
    ++ requestLanes k false (ps.filter fun p => !(k == .load && s.fetchesWheel p)))

/-- What an access whose checks have passed meets before it is performed: a failed module (R193), poison (R86), the answer of a request
that leaves the module (R192), and the logs or gates of recorded lines (R377, R378). `leaves` says which lanes need an answer. -/
def State.admitAccess (s : State) (k : Kind) (size : Nat) (ps : List Placed) (leaves : Placed → Bool) : Res State := do
  trapLanes (ps.filter leaves) (fun p => s.moduleFailed p.pa) codeFabric k.info
  s.checkPoison k size ps
  s.askFabric k (ps.filter leaves)
  let s ← s.gate (ps.flatMap fun p => linesOf p.pa size)
  .ok s.dropRequest

/-- A trap of a path's single access names the path's whole mask. -/
def pathTrap : Exc → Exc
  | .trap t => .trap { t with mask := none }
  | .trapAfter s t => .trapAfter s { t with mask := none }
  | e => e

/-- The same for a result. -/
def wholePath {α : Type} (r : Res α) : Res α := r.mapError pathTrap

/-- ECC_UNCORR where spoiled bytes of the core scratchpad are what a whole path consumes. -/
def State.checkOwn (s : State) (info off n : Nat) : Res Unit := wholePath (s.checkChip info n [(0, .scratch, off)])

/-- A load for a whole path checked by Table 03-7 (R264, R265). -/
def State.loadPlace (s : State) (w : Who) (size : Nat) (va : W64) : Res Placed := do
  if preChecks size va then s.awaitWalks w.core w.asid w.root .load [va] .memDep
  match s.check w .load false size va with
  | .fails row => .error (.trap { code := rowCode row, addr := va, info := Kind.load.info })
  | .passes f => .ok { lane := 0, va := va, pa := f.pa va, leaf := f }

/-- The bytes of a place whose load has been admitted. -/
def State.readPlace (s : State) (w : Who) (size : Nat) (p : Placed) : List Byte × State :=
  (s.fillAll w .load [p]).globalLoad w.core p.leaf.pte p.pa size .full false 0

/-- One load for a whole path: checked, then performed. -/
def State.pathLoad (s : State) (w : Who) (size : Nat) (va : W64) : Res (List Byte × Nat × State) := do
  let p ← s.loadPlace w size va
  waitWhile (s.globalBusy .load false [p] size)
  let s ← wholePath (s.admitAccess .load size [p] (s.loadLeaves size .full))
  let (bs, s) := s.readPlace w size p
  .ok (bs, p.pa, s)

/-- `mwait` (R264). -/
def execMwait (sa sb : Nat) (dbl uns : Bool) (cond : Nat) (s : State) : Out :=
  Form.control { srcs := [rs sa, rs sb], ords := [0, 1], ext := [0], noTx := true,
                 iin := dbl && s.cur.hints.ext.isSome } s fun h t =>
    if t.exm = 0 then .ok t.advance
    else do
      let size := if dbl then 8 else 4
      let (bs, pa, t) ← t.pathLoad t.who size (t.g.srcS sa)
      let m := fromBytes bs
      let k := fun l => match h.ext with
        | some e => (t.g.readSrc { sel := e.sel, reg := e.reg } l).toNat
        | none => (t.g.srcS sb).toNat
      let fails := t.exm &&& maskBy fun l => !condWord cond (8 * size) uns m (k l)
      t.parkLanes fails { state := .parked .mwait, pc := t.cur.runPc, mask := 0, depth := 0, frame := 0, seq := 0,
                          maddr := BitVec.ofNat 64 (lineOf pa), deadline := t.clock + 65536, begun := t.clock, next := t.cur.pc + 4 }

end Sys2Proof.Machine
end

