-- ==== Sys2Proof/Machine/Barrier.lean ====
section
/-!
DEFINITION. Barrier objects in the core scratchpad and the barrier forms (R310 to R313).
-/
namespace Sys2Proof.Machine
open Sys2Proof

/-- The fields of a barrier object (Table 16-7). -/
structure BarObj where
  exp : Nat
  wait : Nat
  obs : Nat
  arr : Nat
  pend : Nat
  phase : Bool
  deriving DecidableEq, Repr

/-- A barrier object as its 16 bytes give it. -/
def BarObj.ofNat (n : Nat) : BarObj :=
  { exp := natField n 32 16, wait := natField n 64 16, obs := natField n 80 16, arr := natField n 16 16,
    pend := natField n 96 24, phase := n % 2 == 1 }

/-- The 16 bytes of an object; bits outside its fields keep what `old` holds. -/
def BarObj.toNat (o : BarObj) (old : Nat) : Nat :=
  let x : BitVec 128 := BitVec.ofNat 128 old
  (setField (setField (setField (setField (setField (setField x 32 16 o.exp) 64 16 o.wait) 80 16 o.obs) 16 16 o.arr) 96 24 o.pend)
    0 1 (if o.phase then 1 else 0)).toNat

/-- Complete (R312). -/
def BarObj.complete (o : BarObj) : BarObj :=
  if o.exp ≠ 0 ∧ o.arr = o.exp ∧ o.pend = 0 then { o with phase := !o.phase, arr := 0, obs := 0 } else o

/-- A decrement of PEND by an engine (R312, R84). -/
def BarObj.decrement (o : BarObj) (k : Nat) : BarObj := if o.exp ≠ 0 then ({ o with pend := o.pend - k }).complete else o

/-- An arrival of `n` (R312): whether it is accepted, and the object after it. -/
def BarObj.arrive (o : BarObj) (n : Nat) : Bool × BarObj :=
  if o.exp ≠ 0 ∧ o.wait ≤ o.obs ∧ o.arr + n ≤ o.exp then (true, ({ o with arr := o.arr + n }).complete) else (false, o)

/-- A count owed by engines announced (R312). -/
def BarObj.expect (o : BarObj) (n : Nat) : Bool × BarObj :=
  if o.exp ≠ 0 ∧ o.pend + n ≤ 0xFFFFFF then (true, { o with pend := o.pend + n }) else (false, o)

/-- A test for a phase (R312): whether it is done, and the object with the observation counted. -/
def BarObj.try_ (o : BarObj) (parity : Bool) : Bool × BarObj :=
  if o.exp = 0 ∨ o.phase ≠ parity then
    (true, if o.exp ≠ 0 ∧ o.obs < o.wait then { o with obs := o.obs + 1 } else o)
  else (false, o)

/-- Whether a parked entry waits in `bar.wait` on the object at an offset (R313). -/
def SaveEntry.waitsOn (e : SaveEntry) (off : Nat) : Bool :=
  match e.state with
  | .parked (.barWait o _) => o == off
  | _ => false

/-- Paths of a workgroup that wait on an object made ready (R313). -/
def State.wakeBarrier (s : State) (wg off : Nat) : State :=
  s.mapGroups fun g =>
    if g.wg == wg && g.slot != 64 && g.save.any (fun e => e.waitsOn off) then
      Group.refill s.clock { g with save := g.save.map fun e => if e.waitsOn off then e.readied else e }
    else g

/-- The 16 bytes of an object in a workgroup's scratchpad. -/
def State.barBytes (s : State) (wg off : Nat) : Nat := fromBytes (((s.wgAt wg).map fun w => w.cells.readBytes off 16).getD [])

/-- One indivisible step on an object (R312); waiting paths wake when it changes PHASE or EXP (R313). -/
def State.barSet (s : State) (wg off new : Nat) : State :=
  let old := BarObj.ofNat (s.barBytes wg off)
  let o := BarObj.ofNat new
  let s := s.wgWrite wg off (toBytes 16 new)
  if o.phase ≠ old.phase ∨ o.exp ≠ old.exp then s.wakeBarrier wg off else s

/-- A step that changes the fields of an object. -/
def State.barStep (s : State) (wg off : Nat) (f : BarObj → BarObj) : State :=
  let n := s.barBytes wg off
  s.barSet wg off ((f (BarObj.ofNat n)).toNat n)

/-- The object of the issuing workgroup as a barrier form finds it. -/
def State.barObj (s : State) (off : Nat) : BarObj := BarObj.ofNat (s.barBytes s.g.wg off)

/-- A barrier form (R310, R312): nothing with an empty mask; otherwise the address is checked and the step performed, after
the group's own queued atomics on the object (R136). -/
def barForm (reads : Bool) (srcs dsts : List RegName) (sa : Nat) (s : State) (k : Nat → State → Res State) : Out :=
  Form.control { srcs := rs sa :: srcs, dsts := dsts, noTx := true } s fun _ t =>
    if t.exm = 0 then .ok t.advance
    else
      let off := t.g.srcS sa
      match checkOffsets (t.extent .scratch) 16 0 [(0, off)] with
      | .error (.trap e) => .error (.trap { e with mask := none })
      | .error e => .error e
      | .ok _ => do
        waitWhile (t.chipBusy .store .scratch 16 [off.toNat])
        if reads then t.checkOwn 0 off.toNat 16
        k off.toNat t

/-- `bar.init` (R312). -/
def execBarInit (sa sb : Nat) (s : State) : Out :=
  barForm false [rs sb] [] sa s fun off t =>
    let x := t.g.srcS sb
    let o : BarObj := { exp := field x 0 16, wait := field x 16 16, obs := field x 16 16, arr := 0, pend := 0, phase := false }
    .ok (t.barSet t.g.wg off (o.toNat 0)).advance

/-- `bar.arr` and `bar.arr.g` (R312); an accepted arrival is a release at scope `wg` (R145). -/
def execBarArr (sa : Nat) (grp : Bool) (p : Nat) (s : State) : Out :=
  barForm true [rp p] [rp p] sa s fun off t =>
    let n := if grp then 1 else popMask t.exm
    let r := (t.barObj off).arrive n
    if r.1 then (t.releasesAt 1).map fun _ => ((t.barStep t.g.wg off fun _ => r.2).putP p t.exm false fun _ => true).advance
    else .ok (t.putP p t.exm false fun _ => false).advance

/-- `bar.wait` (R312, R313): done, it goes on; otherwise the path parks until PHASE or EXP changes. -/
def execBarWait (sa sb : Nat) (s : State) : Out :=
  barForm true [rs sb] [] sa s fun off t =>
    let parity := (t.g.srcS sb).getLsbD 0
    let r := (t.barObj off).try_ parity
    if r.1 then .ok (t.barStep t.g.wg off fun _ => r.2).advance
    else if t.g.freeEntries = 0 then trapNow codeDivstack
    else
      let e : SaveEntry :=
        { state := .parked (.barWait off parity), pc := t.cur.runPc, mask := t.exm, depth := t.cur.depth, frame := t.cur.tag, seq := 0,
          maddr := BitVec.ofNat 64 (2 ^ 63 + off) }
      .ok ({ t with g := t.g.push e }).leave

/-- `bar.exp` (R312). -/
def execBarExp (sa sb p : Nat) (s : State) : Out :=
  barForm true [rs sb, rp p] [rp p] sa s fun off t =>
    let r := (t.barObj off).expect (field (t.g.srcS sb) 0 24)
    .ok ((t.barStep t.g.wg off fun _ => r.2).putP p t.exm false fun _ => r.1).advance

/-- `bar.try` (R312). -/
def execBarTry (sa sb p : Nat) (s : State) : Out :=
  barForm true [rs sb, rp p] [rp p] sa s fun off t =>
    let r := (t.barObj off).try_ ((t.g.srcS sb).getLsbD 0)
    .ok ((t.barStep t.g.wg off fun _ => r.2).putP p t.exm false fun _ => r.1).advance

/-- `bar.inval` (R312). -/
def execBarInval (sa : Nat) (s : State) : Out :=
  barForm false [] [] sa s fun off t => .ok (t.barSet t.g.wg off 0).advance

end Sys2Proof.Machine
end

