-- ==== Sys2Proof/Machine/Cards.lean ====
section
/-!
DEFINITION. Job cards held by a core's footprint scheduler: their edges, their queue, guard slots, and how a card ends (R221 to R223,
R334, R338, R340).
-/
namespace Sys2Proof.Machine
open Sys2Proof

/-- Fields of CTL and IDX (Tables 18-1, 18-2). -/
def Card.len (c : Card) : Nat := field c.ctl 0 20
def Card.ssp (c : Card) : Nat := field c.ctl 37 2
def Card.dsp (c : Card) : Nat := field c.ctl 39 2
def Card.op (c : Card) : Nat := field c.ctl 41 2
def Card.rows (c : Card) : Nat := field c.idx 20 20
def Card.trows (c : Card) : Nat := field c.idx 40 24
def Card.idxOff (c : Card) : Nat := field c.idx 0 20

/-- Whether a job moves rows (GATHER or SCATTER). -/
def Card.byRows (c : Card) : Bool := c.op == 1 || c.op == 2

/-- The barrier object that a job decrements (Table 18-1). -/
def Card.bar (c : Card) : Option Nat := if c.kind = .job ∧ c.ctl.getLsbD 43 then some (field c.ctl 44 20) else none

/-- The count that a job still owes its barrier (R334). -/
def Card.owed (c : Card) : Nat := (if c.byRows then c.rows else c.len) - c.delivered

/-- The handle of a card (Table 18-5). -/
def Card.handle (c : Card) : W64 := BitVec.ofNat 64 (c.seq * 2 ^ 32 + c.stat / 8 * 2 ^ 12 + c.cslot)

/-- The cards of a core changed. -/
def State.updCards (s : State) (core : Nat) (f : List Card → List Card) : State := s.updCore core fun k => { k with cards := f k.cards }

/-- A held card of a core. -/
def State.cardOf (s : State) (core seq : Nat) : Option Card := (s.core core).cards.find? fun c => c.seq == seq

/-- Whether some card of the core is bound to a guard slot. -/
def Core.bound (k : Core) (slot : Nat) : Bool := k.cards.any fun c => c.guard == some slot

/-- A resolved guard slot to which no card is bound any more becomes FREE (Table 11-5). -/
def freeGuard (slot : Nat) (k : Core) : Core :=
  let g := k.guards.getD slot {}
  if (decide (g.state = .isTrue) || decide (g.state = .isFalse)) && !k.bound slot then { k with guards := k.guards.set slot {} } else k

/-- Cards whose edges are all released enter the queue in acceptance order (R222). -/
def enqueueReady (k : Core) : Core :=
  let new := k.cards.filter fun c => decide (c.state = .waiting) && c.edges.isEmpty
  { k with cards := k.cards.map fun c => if decide (c.state = .waiting) && c.edges.isEmpty then { c with state := .ready } else c
           queue := k.queue ++ new.map fun c => c.seq }

/-- Paths parked in `eyield` on a handle made ready (R338). -/
def wakeYield (core : Nat) (handle : W64) (clock : Nat) (g : Group) : Group :=
  let hit := fun (e : SaveEntry) => decide (e.state = .parked (.eyield handle))
  if g.core == core && g.slot != 64 && g.save.any hit then
    Group.refill clock { g with save := g.save.map fun e => if hit e then e.readied else e }
  else g

/-- One card ended: its status word, then the count not yet delivered to its barrier, its edges and its guard, and the paths that wait for it (R334, R222, R223, R338).
(DEDUCED, log entry 75, safe.) -/
def State.finishCard (s : State) (core : Nat) (c : Card) (state elem fcode : Nat) : State :=
  let s := s.wgWrite c.wg c.stat (toBytes 8 (elem * 2 ^ 32 + fcode * 2 ^ 8 + state))
  let s := match c.bar with
    | some b => if c.owed = 0 then s else s.barStep c.wg b fun o => o.decrement c.owed
    | none => s
  let s := s.updCore core fun k =>
    let k := { k with cards := (k.cards.filter fun x => x.seq != c.seq).map fun x => { x with edges := x.edges.filter fun e => e != c.seq }
                      queue := k.queue.filter fun x => x != c.seq }
    enqueueReady (match c.guard with
      | some g => freeGuard g k
      | none => k)
  s.mapGroups (wakeYield core c.handle s.clock)

/-- The cards that have an edge from one of a set, directly or through others; `n` bounds the depth (R222). -/
def dependents (cards : List Card) : Nat → List Nat → List Nat
  | 0, set => set
  | n + 1, set => dependents cards n (set ++ (cards.filter fun c => !set.elem c.seq && c.edges.any fun e => set.elem e).map fun c => c.seq)

/-- The ordinal of a rotation or collective, and which of the two it is. -/
def CardKind.ordinal : CardKind → Option (Bool × Nat)
  | .job => none
  | .rotate k => some (false, k)
  | .collective k => some (true, k)

/-- Whether a rotation or collective of an instance lacks a party for good (R340). -/
def Instance.lacks (i : Instance) (o : Bool × Nat) : Bool := i.dead.elem o || i.gone.any fun x => x.1 == o.1 && decide (x.2 ≤ o.2)

/-- The held cards of an instance's rotations and collectives that lack a party end cancelled, but for a started one (R340). -/
def State.cancelLacking (s : State) (inst : Nat) : State :=
  match s.insts.find? (fun i => i.key == inst) with
  | none => s
  | some i =>
    let hit := fun (s : State) (c : Card) => (match c.kind.ordinal with
      | some o => i.lacks o
      | none => false) && (s.wgAt c.wg).any fun w => w.inst == some inst
    ((List.range 4).map fun k => 4 * i.cluster + k).foldl (fun s core =>
      ((s.core core).cards.filter fun c => decide (c.state ≠ .running) && hit s c).foldl (fun s c => s.finishCard core c 2 0 0) s) s

/-- A rotation or collective of an instance loses a party for good (R340). -/
def State.killCollective (s : State) (inst : Nat) (o : Bool × Nat) : State :=
  ({ s with insts := modifyFirst (fun x => x.key == inst) (fun x => if x.dead.elem o then x else { x with dead := x.dead ++ [o] }) s.insts }).cancelLacking inst

/-- A workgroup of an instance ends: what it has not issued lacks a party (R340). -/
def State.partyEnds (s : State) (w : Workgroup) (party : Nat) : State :=
  match w.inst with
  | none => s
  | some inst =>
    if 4 ≤ party then s
    else
      let lost := [(false, w.rotations), (true, w.collectives)]
      ({ s with insts := modifyFirst (fun x => x.key == inst) (fun x => { x with gone := x.gone ++ lost }) s.insts }).cancelLacking inst

/-- A card ended; those that depend on a faulted one end cancelled, and a collective that loses a party is cancelled (R222, R340). -/
def State.endCard (s : State) (core : Nat) (c : Card) (state elem fcode : Nat) : State :=
  let cards := (s.core core).cards
  let deps := if state = 1 then cards.filter fun x => x.seq != c.seq && (dependents cards cards.length [c.seq]).elem x.seq else []
  let s := s.finishCard core c state elem fcode
  let s := deps.foldl (fun s d => s.finishCard core d 2 0 0) s
  let lost := (if state = 2 ∨ state = 3 then [c] else []) ++ deps
  lost.foldl (fun s d => match d.kind.ordinal, (s.wgAt d.wg).bind fun w => w.inst with
    | some o, some i => s.killCollective i o
    | _, _ => s) s

/-- Held cards of a launch that have not started end cancelled (R365). -/
def State.cancelCards (s : State) (launch : Nat) : State :=
  (List.range 128).foldl (fun s core =>
    ((s.core core).cards.filter fun c => c.launch == launch && (decide (c.state = .waiting) || decide (c.state = .ready))).foldl
      (fun s c => match s.cardOf core c.seq with
        | some c => s.endCard core c 2 0 0
        | none => s) s) s

end Sys2Proof.Machine
end

