-- ==== Sys2Proof/Machine/Launch.lean ====
section
/-!
DEFINITION. Launches: the header (R194 to R197), `spawn` and `waitc` (R265 to R267), placement by the distributors (R213 to R216),
draining and completion (R208, R210), faulting and killing (R365, R366), and saving and resuming workgroups (R224, R225, R363).
-/
namespace Sys2Proof.Machine
open Sys2Proof

/-! ### The launch header (R196) -/

/-- A field of a header. -/
def hdr (bs : List Byte) (off len : Nat) : Nat := fromBytes ((bs.drop off).take len)

/-- Product of extents. -/
def extents (fs : List (Nat × Nat)) : Nat := fs.foldl (fun n f => n * f.2) 1

/-- Whether a field word of a header is well formed (Table 10-1). -/
def fieldOk (nf k x : Nat) : Bool :=
  if nf ≤ k then x == 0
  else decide (1 ≤ natField x 0 6) && decide (natField x 0 6 ≤ 58) && decide (natField x 6 58 < 2 ^ natField x 0 6)
    && (k != 0 || natField x 0 6 == 5)

/-- The launch a 128-byte header describes, or none where it breaks a limit of Table 10-1 or R70. -/
def parseHeader (bs : List Byte) : Option Launch :=
  let nf := hdr bs 0x38 1
  let wgb := hdr bs 0x39 1
  let clb := hdr bs 0x3A 1
  let words := (List.range 6).map fun k => (k, hdr bs (8 + 8 * k) 8)
  let fields := (words.take nf).map fun x => (natField x.2 0 6, natField x.2 6 58 + 1)
  let spad := hdr bs 0x44 4
  let priv := hdr bs 0x48 4
  let clmem := hdr bs 0x4C 4
  let gran := (List.range 6).map fun k => hdr bs (0x3C + k) 1
  let flags := hdr bs 0x60 4
  if hdr bs 0 8 % 4 = 0
      && decide (1 ≤ nf) && decide (nf ≤ 6) && words.all (fun x => fieldOk nf x.1 x.2)
      && decide ((fields.map fun f => f.1).sum ≤ 64)
      && decide (1 ≤ wgb) && decide (wgb ≤ nf) && (clb == 0 || (decide (wgb < clb) && decide (clb ≤ nf)))
      && decide (hdr bs 0x3B 1 < 4)
      && decide (1 ≤ gran.getD 0 0) && decide (gran.getD 0 0 ≤ 16) && decide (1 ≤ gran.getD 1 0) && decide (gran.getD 1 0 ≤ 4)
      && (gran.drop 2).all (fun x => decide (x ≤ 1))
      && spad % 16 == 0 && decide (spad ≤ 0x100000) && priv % 16 == 0 && decide (priv ≤ 0x10000)
      && clmem % 0x4000 == 0 && decide (clmem ≤ 0x400000) && (clb != 0 || clmem == 0)
      && hdr bs 0x58 8 % 8 == 0 && decide (flags % 4 < 3) && decide (flags < 8)
      && (bs.drop 0x64).all (fun b => b == 0) then
    some { handle := 0, entry := BitVec.ofNat 64 (hdr bs 0 8), fields := fields, wgb := wgb, clb := clb, prio := hdr bs 0x3B 1
           regs := [8 * gran.getD 0 0, 16 * gran.getD 1 0, 8 * gran.getD 2 0, 8 * gran.getD 3 0, 8 * gran.getD 4 0, 8 * gran.getD 5 0]
           step := hdr bs 0x42 2, spad := spad, priv := priv, clmem := clmem, param := BitVec.ofNat 64 (hdr bs 0x50 8)
           done := BitVec.ofNat 64 (hdr bs 0x58 8), flags := flags }
  else none

/-- Groups of a workgroup (R195). -/
def Launch.groups (l : Launch) : Nat := extents ((l.fields.take l.wgb).drop 1)
/-- Workgroups of a cluster instance (R195). -/
def Launch.perInstance (l : Launch) : Nat := if l.clb = 0 then 1 else extents ((l.fields.take l.clb).drop l.wgb)
/-- Units that the distributors place (R213). -/
def Launch.units (l : Launch) : Nat := extents (l.fields.drop (if l.clb = 0 then l.wgb else l.clb))
/-- Bytes of a workgroup's scratchpad allocation (R70). -/
def Launch.bytes (l : Launch) : Nat := l.spad + l.priv * 32 * l.groups
/-- Vector registers of each group. -/
def Launch.vregs (l : Launch) : Nat := l.regs.getD 0 8

/-- A size in 4 KiB granules (R70). -/
def granules (n : Nat) : Nat := (n + 4095) / 4096 * 4096

/-- Groups among `g` that lie in a quadrant (R200). -/
def inQuadrant (g q : Nat) : Nat := (g + 3 - q) / 4

/-- Whether a launch can be placed on an empty module (R70, R195, R200). -/
def Launch.placeable (l : Launch) : Bool :=
  let per := (l.perInstance + 3) / 4
  decide (l.bytes + l.clmem / 4 ≤ 0x100000) && decide (per * inQuadrant l.groups 0 ≤ min 16 (1024 / l.vregs))
    && decide (l.groups ≤ 64) && decide (l.perInstance ≤ 64) && decide (per * l.groups ≤ 64)
    && decide (per * granules l.bytes + l.clmem / 4 ≤ 0x100000)

/-- The root table of an address space (R43). (DESIGN CHOICE, log entry 10, unsafe.) -/
def State.rootOf (s : State) (asid : Nat) : Option Nat := (s.roots.find? fun r => r.1 == asid).map fun r => r.2

/-- Whether a completion flag translates with W and U to a page of the coherent window (R196). -/
def State.doneOk (s : State) (core asid root : Nat) (done : W64) : Bool :=
  done == 0 || (canonical done && (match s.translate core asid root .store done with
    | .leaf f => pteBit f.pte 3 && pteBit f.pte 5 && (match placeOf (localOf (f.pa done)) with
      | .window _ => moduleOf (f.pa done) == s.module
      | _ => false)
    | _ => false))

/-- A refusal of `spawn` (Table 14-6). -/
def refusal (reason : Nat) : W64 := BitVec.ofNat 64 (2 ^ 63 + reason)

/-- Launches that have not completed. -/
def State.liveLaunches (s : State) : List Launch := s.launches.filter fun l => !l.complete

/-- A launch made: its handle, and the state that holds it (R213, R265). (DESIGN CHOICE, log entry 21, safe.) -/
def State.makeLaunch (s : State) (l : Launch) (asid root : Nat) : W64 × State :=
  let h := (s.nextHandle - 1) % (2 ^ 32 - 1) + 1
  let units := List.range l.units
  let l := { l with handle := h, parent := s.g.launch, asid := asid, root := root, order := s.nextId,
                    unplaced := (List.range 4).map fun d => units.filter fun u => u % 4 == d
                    toResume := List.replicate 4 [], passed := List.replicate 4 none }
  (BitVec.ofNat 64 h, { s with launches := s.launches ++ [l], nextHandle := s.nextHandle + 1, nextId := s.nextId + 1 })

/-- The checks of `spawn` after the header is read (R196, R70, R200, Table 14-6), and the launch. -/
def State.spawnWith (s : State) (bs : List Byte) (asid root : Nat) : W64 × State :=
  match parseHeader bs with
  | none => (refusal 1, s)
  | some l =>
    if !s.doneOk s.g.core asid root l.done then (refusal 1, s)
    else if !l.placeable then (refusal 2, s)
    else if 1024 ≤ s.liveLaunches.length then (refusal 3, s)
    else s.makeLaunch l asid root

/-- The two 64-byte halves of a header checked and read (R265). -/
def State.readHeader (s : State) (w : Who) (va : W64) : Res (List Byte × State) := do
  let p ← s.loadPlace w 64 va
  let q ← s.loadPlace w 64 (va + 64)
  let s ← wholePath (s.admitAccess .load 64 [p, q] (s.loadLeaves 64 .full))
  let (a, s) := s.readPlace w 64 p
  let (b, s) := s.readPlace w 64 q
  .ok (a ++ b, s)

/-- `spawn` (R265): a release at scope `dev` (R267); the supervisor form takes its address space from s(sa + 1) and turns a failed
check of the header into a refusal. Where several reasons hold, the refusal names the first of the checks here. The path goes on only with sb written, and is not saved while it waits.
(DESIGN CHOICE, log entry 88, unsafe.) -/
def execSpawn (sa sb : Nat) (sup : Bool) (s : State) : Out :=
  Form.run { srcs := rs sa :: (if sup then [rs (sa + 1)] else []), dsts := [rs sb], sup := sup, noTx := true } s fun _ t =>
    holding (match t.released 3 with
    | .error e => .error e
    | .ok _ =>
      let va := t.g.srcS sa
      let asid := if sup then field (t.g.srcS (sa + 1)) 0 12 else t.g.asid
      match (if sup then t.rootOf asid else some t.g.root) with
      | none => .ok (t.putS false true sb (refusal 4))
      | some root =>
        if va.toNat % 64 ≠ 0 then .ok (t.putS false true sb (refusal 1))
        else match t.readHeader { t.who with asid := asid, root := root } va with
          | .ok (bs, t) =>
            let (x, t) := t.spawnWith bs asid root
            .ok (t.putS false true sb x)
          | .error (.trap e) => if sup && e.code != codeEcc && e.code != codeFabric then .ok (t.putS false true sb (refusal 1)) else .error (.trap e)
          | .error e => .error e)

/-- The status word of a launch (Table 10-8). -/
def Launch.status (l : Launch) : W64 :=
  if l.killed then 2 else if l.faulted then BitVec.ofNat 64 (field l.frec 8 49 * 256 + 1) else 0

/-- `waitc` (R266): an unknown handle gives STATUS 2 at once. -/
def execWaitc (sa sb : Nat) (s : State) : Out :=
  Form.run { srcs := [rs sa], dsts := [rs sb], noTx := true } s fun _ t =>
    let h := field (t.g.srcS sa) 0 32
    match t.launches.find? fun l => l.handle == h && l.parent == t.g.launch with
    | none => .ok (t.putS true true sb 2)
    | some l => if l.complete then .ok (t.putS true true sb l.status) else .error (.wait .memDep)

/-! ### Groups and workgroups -/

/-- The work identifier of lane `l` of group `g` of workgroup `w` (R194, R195): `k` fields stand below, at bit `lo`. -/
def composeWid (wgb : Nat) : List (Nat × Nat) → Nat → Nat → Nat → Nat → Nat → Nat
  | [], _, _, _, _, _ => 0
  | (width, ext) :: rest, k, lo, l, g, w =>
    if k = 0 then l * 2 ^ lo + composeWid wgb rest 1 (lo + width) l g w
    else if k < wgb then g % ext * 2 ^ lo + composeWid wgb rest (k + 1) (lo + width) l (g / ext) w
    else w % ext * 2 ^ lo + composeWid wgb rest (k + 1) (lo + width) l g (w / ext)

/-- A new group of a workgroup in a slot of a core (R195, R197, R243, R244). -/
def Launch.newGroup (l : Launch) (core slot key index g clock born : Nat) : Group :=
  let r := fun k => l.regs.getD k 0
  let base := Group.fresh (r 0) (r 1) (r 2) (r 3) (r 4) (r 5)
  let lanes := maskBy fun k => decide (k < (l.fields.getD 0 (5, 0)).2)
  let mis := l.step != 0x0901
  let mode := if mis then 2 else l.flags % 4
  { base with
    core := core, slot := slot, launch := l.handle, wg := key, gidx := g, asid := l.asid, root := l.root, prio := l.prio, lanes := lanes
    a := { live := true, pc := l.entry, exm := lanes, entered := clock, lastIssue := clock }
    s := if l.flags / 4 % 2 = 1 then base.s.set 1 l.param else base.s
    schk := BitVec.ofNat 32 (0x09010000 + (if mis then 4 else 0) + mode)
    dsave := Config.dsaveOf core slot
    wid := allLanes.map fun k => if laneOn lanes k then BitVec.ofNat 64 (composeWid l.wgb l.fields 0 0 k g index) else 0
    born := born }

/-- The groups in the slots of a core. -/
def State.groupsOn (s : State) (core : Nat) : List Group := s.allGroups.filter fun g => g.core == core && g.slot != 64

/-- The free group slots of a core. -/
def State.freeSlots (s : State) (core : Nat) : List Nat :=
  let used := (s.groupsOn core).map fun g => g.slot
  (List.range 64).filter fun k => !used.elem k

/-- Scratchpad bytes that the allocations of a core take (R70). -/
def State.spadUsed (s : State) (core : Nat) : Nat :=
  (s.wgs.filter fun w => w.core == core && !w.saved).foldl (fun n w => n + granules (w.spad + w.priv * 32 * w.groups)) 0
    + (s.insts.filter fun i => i.cluster == clusterOf core && !i.saved).foldl (fun n i => n + i.size / 4) 0

/-- Whether `n` workgroups of a launch and `extra` bytes fit on a core (R216, R200, R70). -/
def State.fitsCore (s : State) (core n : Nat) (l : Launch) (extra : Nat) : Bool :=
  let gs := s.groupsOn core
  (s.core core).frozen.isNone && (List.range 4).all (fun q =>
    let here := gs.filter fun g => g.gidx % 4 == q
    let k := n * inQuadrant l.groups q
    k == 0 || (decide (here.length + k ≤ 16) && decide (here.foldl (fun m g => m + g.v.length) 0 + k * l.vregs ≤ 1024)))
  && decide (n * l.groups ≤ (s.freeSlots core).length)
  && decide (s.spadUsed core + n * granules l.bytes + extra ≤ 0x100000)

/-- The place with the largest score, the first of equals. -/
def bestOf (xs : List (Nat × Nat)) : Option Nat :=
  (xs.foldl (fun best x => match best with
    | none => some x
    | some b => if b.2 < x.2 then some x else some b) none).map fun b => b.1

/-- The cores of a die, and the global numbers of its clusters. -/
def coresOf (die : Nat) : List Nat := (List.range 32).map fun k => 32 * die + k
def clustersOf (die : Nat) : List Nat := (List.range 8).map fun k => 8 * die + k
/-- The cores of a cluster. -/
def coresIn (cluster : Nat) : List Nat := (List.range 4).map fun k => 4 * cluster + k

/-- Whether an instance fits a cluster (R216). -/
def State.fitsCluster (s : State) (cluster : Nat) (l : Launch) : Bool :=
  (List.range 4).all fun j => s.fitsCore (4 * cluster + j) (inQuadrant l.perInstance j) l (l.clmem / 4)

/-- The core that a workgroup goes to (R216). (DEDUCED, log entry 60, safe.) -/
def State.bestCore (s : State) (die : Nat) (l : Launch) : Option Nat :=
  bestOf (((coresOf die).filter fun c => s.fitsCore c 1 l 0).map fun c => (c, (s.freeSlots c).length))

/-- The cluster that an instance goes to (R216). (DEDUCED, log entry 60, safe.) -/
def State.bestCluster (s : State) (die : Nat) (l : Launch) : Option Nat :=
  bestOf (((clustersOf die).filter fun k => s.fitsCluster k l).map fun k =>
    (k, (coresIn k).foldl (fun n c => n + (s.freeSlots c).length) 0))

/-- A launch's record changed. -/
def State.updLaunch (s : State) (h : Nat) (f : Launch → Launch) : State := { s with launches := modifyFirst (fun l => l.handle == h) f s.launches }

/-- A launch's record. -/
def State.launchOf (s : State) (h : Nat) : Option Launch := s.launches.find? fun l => l.handle == h

/-- A workgroup placed on a core (R195, R197); the launch's first one there empties the instruction cache (R68).
(DESIGN CHOICE, log entry 11, unsafe.) -/
def State.placeWg (s : State) (l : Launch) (core index : Nat) (inst : Option Nat) : State :=
  let first := !(s.wgs.any fun w => w.launch == l.handle && w.core == core)
  let s := if first then s.updCore core fun k => { k with icache := [] } else s
  let key := s.nextKey
  let slots := s.freeSlots core
  let groups := (List.range l.groups).map fun g => l.newGroup core (slots.getD g 0) key index g s.clock (s.nextId + g)
  { s with
    nextKey := key + 1, nextId := s.nextId + l.groups
    groups := s.groups ++ groups
    wgs := s.wgs ++ [{ key := key, launch := l.handle, index := index, core := core, inst := inst, groups := l.groups, spad := l.spad,
                       priv := l.priv, placed := s.nextId }] }

/-- A unit placed on a die where it fits (R213, R216); none where it does not. (DEDUCED, log entry 60, safe.) -/
def State.placeUnit (s : State) (die : Nat) (l : Launch) (u : Nat) : Option State :=
  if l.clb = 0 then (s.bestCore die l).map fun c => s.placeWg l c u none
  else (s.bestCluster die l).map fun k =>
    let key := s.nextKey
    let s := { s with nextKey := key + 1
                      insts := s.insts ++ [{ key := key, launch := l.handle, index := u, cluster := k, size := l.clmem }] }
    (List.range l.perInstance).foldl (fun s j => s.placeWg l (4 * k + j % 4) (u * l.perInstance + j) (some key)) s

/-! ### Distributors (R213 to R215) -/

/-- Units that a launch has on a distributor and that are not placed. -/
def Launch.waitingOn (l : Launch) (d : Nat) : List Nat := l.unplaced.getD d []
/-- Saved workgroups of a launch that wait at a distributor. -/
def Launch.savedOn (l : Launch) (d : Nat) : List Nat := l.toResume.getD d []

/-- A distributor's launches in the order it considers them (R214). -/
def State.byPriority (s : State) : List Launch := sortByKey (fun l => 3 - l.prio) (s.launches.filter fun l => !l.complete && !l.killed && !l.faulted)

/-- The count of units that a distributor reports (R215): those that have not been placed yet, saved workgroups not among them.
(DESIGN CHOICE, log entry 88, unsafe.) -/
def State.unplacedCount (s : State) (d : Nat) : Nat := s.launches.foldl (fun n l => n + (l.waitingOn d).length) 0

/-- The groups of a workgroup. -/
def State.groupsOfWg (s : State) (key : Nat) : List Group := s.allGroups.filter fun g => g.wg == key && g.slot != 64 && g.launch != 0

/-- The cores of a die on which a workgroup may resume (R363): its own one, those of its cluster, or any. One whose instance's memory still stands in a
cluster goes there. -/
def State.resumeCores (s : State) (w : Workgroup) : List Nat :=
  let k := s.core w.core
  let gs := s.groupsOfWg w.key
  let home := match s.instOf w with
    | some i => if i.saved then none else some i.cluster
    | none => none
  if k.cards.any (fun c => c.wg == w.key) || k.guards.any (fun g => g.wg == w.key && decide (g.state ≠ .free)) then [w.core]
  else if gs.any (fun g => g.ac.any fun a => a.getLsbD 5) || (s.cluster (clusterOf w.core)).resv.any (fun r => r.wg == w.key) then
    coresIn (clusterOf w.core)
  else match home with
    | some k => coresIn k
    | none => coresOf (dieOf w.core)

/-- Whether a saved workgroup fits on a core, with the memory of its instance, where that has been released, on the four cores of the cluster. -/
def State.resumeFits (s : State) (w : Workgroup) (l : Launch) (c : Nat) : Bool :=
  match (s.instOf w).filter fun i => i.saved with
  | none => s.fitsCore c 1 l 0
  | some i => s.fitsCore c 1 l (i.size / 4) && (coresIn (clusterOf c)).all fun d => decide (s.spadUsed d + i.size / 4 ≤ 0x100000)

/-- A saved workgroup resumed where it fits (R224, R363), its contexts restored without the counts in force (R240); the core's instruction cache is invalidated before its first fetch there (R68).
(DESIGN CHOICE, log entry 11, unsafe.) -/
def State.resumeWg (s : State) (key : Nat) : Option State :=
  match s.wgAt key with
  | none => none
  | some w => match s.launchOf w.launch with
    | none => none
    | some l =>
      let fit := (s.resumeCores w).filter fun c => s.resumeFits w l c
      (bestOf (fit.map fun c => (c, (s.freeSlots c).length))).map fun c =>
        let slots := s.freeSlots c
        let s := s.updWg key fun w => { w with core := c, saved := false, placed := s.nextId }
        let moved := fun (x : Cluster) => { x with resv := x.resv.map fun r => if r.wg == key then { r with core := c } else r }
        let back := fun (i : Instance) => if w.inst = some i.key && i.saved then { i with cluster := clusterOf c, saved := false } else i
        let s := { s with nextId := s.nextId + 1, clusters := s.clusters.map moved, insts := s.insts.map back }.updCore c fun k => { k with icache := [] }
        s.mapGroups fun g =>
          if g.wg == key && decide (g.status = GroupStatus.saved) then
            (({ g with core := c, slot := slots.getD g.gidx 0, status := .running, saveAsked := false, a := g.a.endCover, b := g.b.endCover }).restartLanes
              s.clock).settle s.clock
          else g

/-- What a distributor places next of a launch, as a mark names it (R214): a saved workgroup by its key, or its lowest unplaced unit. -/
def Launch.nextUnit (l : Launch) (d : Nat) : Option Nat :=
  match l.savedOn d, l.waitingOn d with
  | k :: _, _ => some (2 * k + 1)
  | [], u :: _ => some (2 * u)
  | [], [] => none

/-- Whether the unit that a mark names has still to be placed. -/
def Launch.holds (l : Launch) (d m : Nat) : Bool := if m % 2 = 1 then (l.savedOn d).elem (m / 2) else (l.waitingOn d).elem (m / 2)

/-- The mark of a launch on a die, while its unit has not been placed. -/
def Launch.mark (l : Launch) (d : Nat) : Option (Nat × Nat) := (l.passed.getD d none).filter fun m => l.holds d m.1

/-- One unit of a launch placed or resumed on a die. -/
def State.placeNext (s : State) (d : Nat) (l : Launch) : Option State :=
  match l.savedOn d with
  | k :: rest => (s.resumeWg k).map fun s => s.updLaunch l.handle fun x => { x with toResume := x.toResume.set d rest }
  | [] => match l.waitingOn d with
    | [] => none
    | u :: rest => (s.placeUnit d l u).map fun s => s.updLaunch l.handle fun x => { x with unplaced := x.unplaced.set d rest }

/-- 100 µs, counted in main-clock cycles at 940 MHz (R214, R386). -/
def passLimit : Nat := 94000

/-- The first placement of R214: launches before it that have a unit which fits nowhere are passed over, unless one of them has been so
for too long (its mark stands at 0). -/
def State.placeFirst (s : State) (d : Nat) : List Launch → List Nat → Option State
  | [], _ => none
  | l :: rest, passed =>
    if (l.waitingOn d).isEmpty && (l.savedOn d).isEmpty then s.placeFirst d rest passed
    else match s.placeNext d l with
      | some s' => some (passed.foldl (fun s h => s.updLaunch h fun x =>
          if (x.mark d).isSome then x else { x with passed := x.passed.set d ((x.nextUnit d).map fun u => (u, s.clock + passLimit)) }) s')
      | none => if (l.mark d).any fun m => m.2 == 0 then none else s.placeFirst d rest (passed ++ [l.handle])

/-- Time has run out for a unit that was passed over (R214): its launch stops later placements on the die until it is placed. -/
def State.passOver (s : State) (d : Nat) : State :=
  { s with launches := s.launches.map fun l => match l.mark d with
    | some m => if m.2 ≤ s.clock then { l with passed := l.passed.set d (some (m.1, 0)) } else l
    | none => l }

/-! ### Pre-emption (R224, R225, R363) -/

/-- Whether a group may be saved now (R225, R265, R353, R362). -/
def State.saveAllowed (s : State) (g : Group) : Bool :=
  !(s.clusters.any fun c => c.sg.any (fun e => e.ident == g.ident && e.ret) || c.xbar.any fun x => x.ident == g.ident && x.load)
    && g.commits.all (fun k => k.held.isEmpty)
    && !((lanesOf g.lanes).any fun l => g.inTx l && g.irrev l)
    && !((s.cluster (clusterOf g.core)).resv.any fun r => r.granted && r.wg == g.wg && r.gidx == g.gidx)
    && (s.core g.core).serving != some g.slot && g.lateFault.isNone
    && !(s.fallback.any fun f => f.1 == g.core && f.2.1 == g.slot)
    && g.a.wait != some .memHold && g.b.wait != some .memHold
    && (decide (g.status = .running) || decide (g.status = .stopped) || decide (g.status = .held))

/-- A path that waits at a `resort` issues it again when its group resumes (R353). -/
def Group.abandonSort (g : Group) : Group :=
  { g with save := g.save.map fun e => if decide (e.state = .waitResort) then e.readied else e, sortKey := none, liveMask := 0 }

/-- Every open transaction of a group aborted with PREEMPT, to restart when it resumes (R173). -/
def Group.preemptTx (g : Group) : Group :=
  (lanesOf g.openLanes).foldl (fun g l => (g.abortLane causePreempt 0 l).updTx l fun x => { x with restarts := true }) { g with commits := [] }

/-- A group stopped for a save (R363): a pending synchronous trap is dropped (R362), and the request is served as event 0x00. -/
def State.stopForSave (s : State) (core slot : Nat) : State :=
  match s.groupAt core slot with
  | none => s
  | some g =>
    if g.saveAsked && s.saveAllowed g then
      let s := s.updCore core fun k => { k with events := k.events.filter fun e => e.slot != slot || e.async }
      let s := s.updGroup core slot fun g => { (g.preemptTx.abandonSort.stop false) with saveAsked := false, matWait := [] }
      let s := { s with fallbackWait := s.fallbackWait.filter fun f => !(f.1 == core && f.2.1 == slot) }
      (s.queueEvent core { slot := slot, inB := false, code := 0, pc := g.a.runPc, stamp := s.tstamp }).startEvent core
    else s

/-- The state without some workgroups and their groups, to see what would fit. -/
def State.withoutWgs (s : State) (keys : List Nat) : State :=
  { s with groups := s.allGroups.filter (fun g => !(g.launch != 0 && keys.elem g.wg)), g := trapContext 128
           wgs := s.wgs.filter fun w => !keys.elem w.key
           insts := s.insts.map fun i => { i with saved := i.saved || s.wgs.all fun w => w.inst != some i.key || w.saved || keys.elem w.key } }

/-- The fewest workgroups, in the order given, whose removal makes a place fit. (DEDUCED, log entry 60, safe.) -/
def fewest (fits : List Nat → Bool) (keys : List Nat) : Option (List Nat) :=
  ((List.range (keys.length + 1)).map fun n => keys.take n).find? fits

/-- The victims of R224 at a place of some cores: lowest priority first, most recently placed first. (DEDUCED, log entry 60, safe.) -/
def State.victimOrder (s : State) (cores : List Nat) : List Nat :=
  let prioOf := fun (w : Workgroup) => ((s.launchOf w.launch).map fun l => l.prio).getD 3
  (sortByKey (fun w => prioOf w) (sortByKey (fun w => s.nextId - w.placed)
    (s.wgs.filter fun w => cores.elem w.core && !w.saved && decide (prioOf w < 3)))).map fun w => w.key

/-- The victims of R224 for a priority-3 launch on a die: the place that needs the fewest, the first of equals. (DEDUCED, log entry 60, safe.) -/
def State.victims (s : State) (d : Nat) (l : Launch) : Option (List Nat) :=
  let places := if l.clb = 0 then
      (coresOf d).map fun c => fewest (fun ks => (s.withoutWgs ks).fitsCore c 1 l 0) (s.victimOrder [c])
    else (clustersOf d).map fun k => fewest (fun ks => (s.withoutWgs ks).fitsCluster k l) (s.victimOrder (coresIn k))
  (places.filterMap id).foldl (fun best v => match best with
    | none => some v
    | some b => if v.length < b.length then some v else some b) none

/-- Whether the die already has a save under way. -/
def State.savingOn (s : State) (d : Nat) : Bool :=
  s.allGroups.any fun g => dieOf g.core == d && g.slot != 64 && (g.saveAsked || ((s.core g.core).serving == some g.slot && decide (g.status = .stopped) && field (s.core g.core).xcause 0 6 == 0)
    || (s.core g.core).events.any fun e => e.slot == g.slot && e.code == 0)

/-- The workgroups that the first priority-3 unit that fits nowhere needs removed (R224), unless a save is already under way. -/
def State.preemptPlan (s : State) (d : Nat) : Option (List Nat) :=
  if s.savingOn d then none
  else s.byPriority.findSome? fun l =>
    if l.prio == 3 && !((l.waitingOn d).isEmpty && (l.savedOn d).isEmpty) && (s.placeNext d l).isNone then (s.victims d l).filter fun ks => !ks.isEmpty
    else none

/-- Save requests for the workgroups of a plan (R224). -/
def State.preempt (s : State) (ks : List Nat) : State :=
  ((ks.flatMap fun k => s.groupsOfWg k).map fun g => (g.core, g.slot)).foldl
    (fun s x => (s.updGroup x.1 x.2 fun g => { g with saveAsked := true }).stopForSave x.1 x.2) s

/-- A frame's bytes put into its wheel's lines at the home slice, and the wheel made IDLE (R112); a line with an uncorrectable error is
poisoned (R86). (DEDUCED, log entry 62, safe.) -/
def State.evictFrame (s : State) (w : Wheel) : State :=
  match w.state with
  | .residentF cave place off =>
    let bs := s.frameRead cave place off 2048
    let lost := (wheelLines w.wheel).filter fun l => s.frameBad cave place (off + (l - w.wheel)) 64
    let s := { (if lost.isEmpty then s else s.poisonLines lost) with wheels := s.wheels.filter fun x => x.wheel != w.wheel }
    s.writeWheel w.wheel (s.mem.writeBytes w.wheel bs)
  | _ => s

/-- The frames of released space evicted (R112, R123): resident wheels, and wheels being pressed into such a frame, which go to their slices. -/
def State.evictFrames (s : State) (gone : Bool → Nat → Nat → Bool) : State :=
  let in_ := fun (st : WheelState) => match st with
    | .residentF cave place off => gone cave place off
    | _ => false
  let s := (s.wheels.filter fun w => decide (w.state = .pressing) && w.after.any in_).foldl (fun s w => s.finishPress w none) s
  (s.wheels.filter fun w => in_ w.state).foldl (fun s w => s.evictFrame w) s

/-- The frames in a cluster instance's memory evicted (R112, R208, R363). -/
def State.evictInst (s : State) (inst : Nat) : State := s.evictFrames fun cave place _ => !cave && place == inst

/-- With every group of a workgroup saved, its allocation is released and it returns to the front of its distributor's units (R224, R363); the memory of
a cluster instance is copied out and released with the last of its workgroups. -/
def State.finishSave (s : State) (g : Group) (die : Nat) : State :=
  let gs := s.groupsOfWg g.wg
  if !gs.isEmpty && gs.all fun x => decide (x.status = GroupStatus.saved) then
    let s := match (s.wgAt g.wg).bind fun w => w.inst with
      | some i => s.evictInst i
      | none => s
    let s := s.updWg g.wg fun w => { w with saved := true }
    let mine := (s.wgAt g.wg).bind fun w => w.inst
    let out := fun (i : Instance) => s.wgs.all fun w => w.inst != some i.key || w.saved
    let s := { s with insts := s.insts.map fun (i : Instance) => if mine == some i.key then { i with saved := out i } else i }
    s.updLaunch g.launch fun l => { l with toResume := modifyAt (fun ks => g.wg :: ks) die l.toResume }
  else s

/-- A group that the save routine has written leaves its slot (R224, R363). (DESIGN CHOICE, log entry 22, safe.) (DEDUCED, log entry 23, unsafe.)
(DEDUCED, log entry 67, unsafe.) -/
def State.saveGroup (s : State) (core slot : Nat) : State :=
  match s.groupAt core slot with
  | none => s
  | some g =>
    (s.updGroup core slot fun g => { g with core := 128, status := .saved, slab := false }).finishSave g (dieOf core)

/-! ### Draining, completion, faults and kills (R208, R365, R366) -/

/-- A completed launch writes its status word to DONE (R208); a DONE that no longer translates gets none. (DESIGN CHOICE, log entry 87, unsafe.) -/
def State.writeDone (s : State) (l : Launch) : State :=
  if l.done = 0 then s
  else match s.translate 0 l.asid l.root .store l.done with
    | .leaf f => (s.caveWrite (f.pa l.done) (toBytes 8 l.status.toNat)).wake (f.pa l.done) 8
    | _ => s

/-- Whether a write of the device with order `rel` at scope `sys` may be performed (R142): nothing that waits in a die's buffer, on the fabric or for
an acknowledgement. -/
def State.quiet (s : State) : Bool := s.stores.isEmpty && s.msgs.isEmpty && s.modAcks.isEmpty && !(s.fabric.any fun r => r.posted)

/-- Whether a launch has ended but for its completion: its last workgroup has (R208). -/
def State.ended (s : State) (l : Launch) : Bool :=
  !l.complete && l.unplaced.all (fun u => u.isEmpty) && !(s.dies.any fun d => d.stolen.any fun x => x.1 == l.handle)
    && !(s.wgs.any fun w => w.launch == l.handle)

/-- The launch completes when its last workgroup has ended, once DONE may be written (R208). -/
def State.tryComplete (s : State) (h : Nat) : State :=
  match s.launchOf h with
  | none => s
  | some l =>
    if s.ended l && s.quiet then
      (s.updLaunch h fun l => { l with complete := true }).writeDone l
    else s

/-- Guard slots of a workgroup that are PENDING turn FALSE (Table 11-5). -/
def State.failGuards (s : State) (w : Workgroup) : State :=
  s.updCore w.core fun k =>
    let k := { k with guards := k.guards.map fun g => if g.wg == w.key && decide (g.state = .pending) then { g with state := .isFalse } else g }
    (List.range 16).foldl (fun k n => if (k.guards.getD n {}).wg == w.key then freeGuard n k else k) k

/-- A workgroup ends (R208, R223): its guards that are PENDING turn FALSE, its allocation is released, and with the last workgroup of an
instance the cluster memory. Collectives it has not issued lose a party (R340); the core's kept marks go with the launch's last workgroup there (R67). -/
def State.endWg (s : State) (key : Nat) : State :=
  match s.wgAt key with
  | none => s
  | some w =>
    let s := s.failGuards w
    let s := s.partyEnds w (w.index % max 1 ((s.launchOf w.launch).map Launch.perInstance |>.getD 1))
    let s := { s with wgs := s.wgs.filter fun x => x.key != key }
    let s := if s.wgs.any (fun x => x.launch == w.launch && x.core == w.core) then s
      else { s with l1 := s.l1.map fun c => if c.core == w.core then { c with keep := false } else c }
    let s := match w.inst with
      | some i => if s.wgs.any (fun x => x.inst == some i) then s else
          let s := s.evictInst i
          { s with insts := s.insts.filter fun x => x.key != i }
      | none => s
    s.tryComplete w.launch

/-- The groups that satisfy a test; some group is always the one that issues next. -/
def State.keepGroups (s : State) (keep : Group → Bool) : State :=
  match s.allGroups.filter keep with
  | [] => s
  | g :: rest => { s with g := g, groups := rest }

/-- Whether a draining group's outstanding work is done (R208). -/
def State.drained (s : State) (g : Group) : Bool :=
  decide (g.status = .draining) && g.inflight.isEmpty && s.performed g
    && !(s.cores.any fun k => k.cards.any fun c => c.wg == g.wg && c.gidx == g.gidx)
    && !(s.clusters.any fun c => c.resv.any fun r => r.wg == g.wg && r.gidx == g.gidx)

/-- With every group of a workgroup draining, nobody can resolve its guards any more: they turn FALSE, so that its cards can end. -/
def State.settleGuards (s : State) (key : Nat) : State :=
  match s.wgAt key with
  | none => s
  | some w => if (s.groupsOfWg key).all fun g => decide (g.status = .draining) then s.failGuards w else s

/-- A posted request that failed is reported at the drain of its group (R192): an ASYNC fault at the group's last `exit`.
(DEDUCED, log entry 55, safe.) -/
def State.drainFault (s : State) (g : Group) (va : W64) : State :=
  let e : TrapEvent :=
    { slot := g.slot, inB := g.inB, code := if g.lateUnsup then codeAtom else codeFabric, info := g.lateInfo, async := true, pc := g.lastExit, addr := va
      stamp := s.tstamp }
  ((s.updGroup g.core g.slot fun g => { g with status := .stopped, lateFault := none, lateUnsup := false, lateInfo := 1 }).queueEvent g.core e).startEvent g.core

/-- A draining group ends (R208), in its slot or saved: a failure found is reported first (R192), its hash is checked (R379), its slot is freed, and with the
last group the workgroup ends. -/
def State.drainGroup (s : State) (core slot : Nat) : State :=
  match (s.allGroups.find? fun g => g.at_ core slot && decide (g.status = .draining)).or (s.groupAt core slot) with
  | none => s
  | some g =>
    let s := if slot ≠ 64 ∧ g.status = .draining then s.settleGuards g.wg else s
    if slot ≠ 64 && s.drained g then
      match (if (s.launchOf g.launch).any fun l => l.killed || l.faulted then none else g.lateFault) with
      | some va => s.drainFault g va
      | none =>
      let s := match s.wgAt g.wg with
        | some w => if s.rrMode ≠ 0 ∧ g.launch = s.rrHandle ∧ g.launch ≠ 0 then
            s.checkpoint core slot g.gidx w 0xFFFFFFFF g.hash (if g.inB then 1 else 0) g.lastExit g.lastMask else s
        | none => s
      let s := s.keepGroups fun x => x.ident != g.ident
      if (s.groupsOfWg g.wg).isEmpty then s.endWg g.wg else s.finishSave g (dieOf core)
    else s

/-- Fault record (Table 19-3) of a group, from the trap registers of its core and the time stamp of the event that its context serves. -/
def State.recordBytes (s : State) (core : Nat) (g : Group) : List Byte :=
  let k := s.core core
  let lane := if k.xmask = 0 then 0 else lowestLane k.xmask
  toBytes 8 ((k.served.map fun e => e.stamp).getD s.tstamp).toNat ++ toBytes 8 k.xcause.toNat ++ toBytes 8 k.xpc.toNat ++ toBytes 8 k.xaddr.toNat ++ toBytes 4 k.xmask.toNat
    ++ toBytes 4 (s.coreSource core) ++ toBytes 8 (g.wid.getD lane 0).toNat ++ toBytes 8 g.launch ++ List.replicate 8 0
    ++ (List.range 24).flatMap fun n => toBytes 8 (g.readS (n + 1)).toNat

/-- A group of an ended launch stops, its transactions abort, its paths vanish and it drains (R365 steps 1 and 3). -/
def Group.endNow (g : Group) : Group :=
  if decide (g.status = .draining) then g
  else
    let g := g.preemptTx.landAll
    { g with a := {}, b := {}, save := [], lanes := 0, commits := [], status := .draining, stopAsked := false, saveAsked := false
             slab := false, txst := g.txst.map fun x => x &&& 0xFFFFFFFA, sortKey := none, fenceWait := [], tlbiWait := [], pressWait := [], matWait := [] }

/-- Tokens, waiting events and stolen units of an ended launch given back; `live` are the slots of its groups. -/
def State.releaseAll (s : State) (h : Nat) (live : List (Nat × Nat)) : State :=
  let freeDie := fun (d : Die) =>
    { d with token := if d.token.any (fun x => live.elem x) then none else d.token, stolen := d.stolen.filter fun x => x.1 != h }
  let freeCore := fun (c : Nat) (k : Core) => { k with events := k.events.filter fun e => !live.elem (c, e.slot) }
  let mine := fun (f : Nat × Nat × Nat) => live.elem (f.1, f.2.1)
  { s with dies := s.dies.map freeDie, cores := s.cores.mapIdx freeCore
           fallback := if s.fallback.any mine then none else s.fallback
           fallbackWait := s.fallbackWait.filter fun f => !mine f }

/-- A launch ends faulted or killed (R365): its groups drain where they stand, saved ones too. -/
def State.endLaunch (s : State) (h : Nat) (killed : Bool) : State :=
  match s.launchOf h with
  | none => s
  | some l =>
    if l.complete then s
    else
      let mine := fun (g : Group) => g.launch == h && g.slot != 64
      let s := s.updLaunch h fun l => { l with killed := l.killed || killed, faulted := l.faulted || !killed
                                               unplaced := List.replicate 4 [], toResume := List.replicate 4 [] }
      let live := (s.allGroups.filter fun g => mine g && decide (g.status ≠ GroupStatus.saved)).map fun g => (g.core, g.slot)
      let s := s.releaseAll h live
      let s := s.mapGroups fun g => if mine g then g.endNow else g
      (s.cancelCards h).tryComplete h

/-- A launch ends faulted with a record built from the trap registers of a core (R359, R366); only its first fault writes one.
(DEDUCED, log entry 67, unsafe.) -/
def State.faultLaunch (s : State) (core : Nat) (g : Group) : State :=
  match s.launchOf g.launch with
  | none => s
  | some l =>
    if l.faulted || l.killed || l.complete then s
    else
      let page := Config.recordPage l.handle
      let s := if page = 0 then s else s.agentWrite core (Config.recordPhys l.handle) (s.recordBytes core g)
      (s.updLaunch l.handle fun l => { l with frec := page }).endLaunch l.handle false

/-- The launches spawned from a set, at any depth (R365); `n` bounds the depth. -/
def State.descendants (s : State) : Nat → List Nat → List Nat
  | 0, hs => hs
  | n + 1, hs => s.descendants n (hs ++ (s.launches.filter fun l => !hs.elem l.handle && hs.elem l.parent).map fun l => l.handle)

end Sys2Proof.Machine
end

