-- ==== Sys2Proof/Machine/Ctl.lean ====
section
/-!
DEFINITION. Module control registers (Tables 09-6, 20-2, 20-3 and chapters 19 to 21): what a read returns and what a write does, whoever
makes it. An offset is that of the local address within the control-register range (Table 03-1).
-/
namespace Sys2Proof.Machine
open Sys2Proof

/-! ### Reading -/

/-- THERM (R387): one byte for each die. -/
def State.thermWord (s : State) : Nat := fromBytes ((List.range 4).map fun d => (s.die d).therm)

/-- Bits [63:0] or [127:64] of a 128-bit table entry. -/
def entryWord (e : BitVec 128) (word : Nat) : Nat := field e (64 * word) 64

/-- The 64-bit control word at an offset that is a multiple of 8; an unassigned one, and one that is only written, reads as zero. -/
def State.ctlWord (s : State) (off : Nat) : Nat :=
  let c := s.ctl
  if off = 0x800 then c.hbmwin.toNat
  else if off = 0x808 then c.fabtmo.toNat
  else if 0x900 ≤ off ∧ off < 0xA00 then (c.tilemask.getD ((off - 0x900) / 8) 0).toNat
  else if 0xA00 ≤ off ∧ off < 0xE00 then
    entryWord ((s.die ((off - 0xA00) / 0x100)).caveWin.getD (off % 0x100 / 16) 0) (off % 16 / 8)
  else if off = 0x2000 then c.eccthr.toNat
  else if off = 0x2008 then c.eccwin.toNat
  else if off = 0x3000 then c.dbgctl.toNat
  else if off = 0x3010 then c.smpctl.toNat
  else if off = 0x3018 then c.smpbuf.toNat
  else if off = 0x3020 then c.smpsz.toNat
  else if off = 0x3030 then c.rrctl.toNat
  else if off = 0x3038 then c.rrstat.toNat
  else if off = 0x4000 then c.bootstat.toNat
  else if off = 0x4010 then c.attctl.toNat
  else if 0x4020 ≤ off ∧ off < 0x4040 then fromBytes ((c.attnonce.drop (off - 0x4020)).take 8)
  else if off = 0x4040 then c.fwctl.toNat
  else if off = 0x4048 then c.fwstat.toNat
  else if off = 0x4100 then c.pwrctl.toNat
  else if off = 0x4108 then c.pwrstat.toNat
  else if off = 0x4110 then c.pcap.toNat
  else if off = 0x4118 then c.clknow.toNat
  else if off = 0x4120 then s.thermWord
  else if 0x5000 ≤ off ∧ off < 0x5520 then fromBytes ((List.range 8).map fun k => Config.identityByte (off - 0x5000 + k))
  else if 0x6000 ≤ off ∧ off < 0x8000 then fromBytes ((List.range 8).map fun k => Config.identityByte (0x1000 + off - 0x6000 + k))
  else if 0x10000 ≤ off ∧ off < 0x14000 then
    (if off % 0x1000 < 0x200 then entryWord ((s.die ((off - 0x10000) / 0x1000)).filters.getD (off % 0x1000 / 16) 0) (off % 16 / 8) else 0)
  else if 0x20000 ≤ off ∧ off < 0x24000 then
    (if off % 0x1000 < 0x400 then
      entryWord (((s.die ((off - 0x20000) / 0x1000)).recLines.getD (off % 0x1000 / 16) {}).entry) (off % 16 / 8) else 0)
  else if 0x20000000 ≤ off ∧ off < 0x28000000 then c.fwstg.readNat (off - 0x20000000) 8
  else 0

/-- Bytes read from the control range (R178). (DEDUCED, log entry 29, safe.) (DEDUCED, log entry 66, safe.) -/
def State.ctlRead (s : State) (pa size : Nat) : List Byte :=
  let off := localOf pa - 0x6C000000000
  ((toBytes 8 (s.ctlWord (off / 8 * 8))).drop (off % 8)).take size

/-! ### Writing: each register's own behaviour -/

/-- The control registers changed. -/
def State.setCtl (s : State) (f : Ctl → Ctl) : State := { s with ctl := f s.ctl }

/-- MSIXTRIG (R177): supervisor code raises a vector. -/
def State.raiseMsix (s : State) (byHost : Bool) (v : Nat) : State := if byHost then s else s.sendMsix (v % 64)

/-- Whether a Cave window entry is valid by itself (Table 09-6). -/
def caveValid (e : BitVec 128) : Bool := field e 96 9 != 0 && decide (field e 64 9 + field e 96 9 ≤ 320)

/-- Whether two Cave window entries clash (R77). -/
def caveClash (e f : BitVec 128) : Bool :=
  field e 0 12 == field f 0 12
    || (decide (field e 64 9 < field f 64 9 + field f 96 9) && decide (field f 64 9 < field e 64 9 + field e 96 9))

/-- The entries of a die decided again in ascending number; one that is not in use has EN cleared (R77). -/
def caveDecide (es : List (BitVec 128)) : List (BitVec 128) :=
  es.foldl (fun acc e =>
    let inUse := e.getLsbD 12 && caveValid e && !(acc.any fun f => f.getLsbD 12 && caveClash e f)
    acc ++ [if inUse then e else setField e 12 1 0]) []

/-- A Cave window entry's word written (R77, Table 09-6); frames in windows that are no longer in use are evicted first (R112). -/
def State.writeCaveWin (s : State) (die entry word : Nat) (x : W64) : State :=
  let d := s.die die
  let old := d.caveWin.getD entry 0
  let new := if word = 0 then setField old 0 13 (field x 0 13) else setField (setField old 64 9 (field x 0 9)) 96 9 (field x 32 9)
  let es := caveDecide (d.caveWin.set entry new)
  let held := fun (off : Nat) => es.any fun e => e.getLsbD 12 && decide (0xC00000 + field e 64 9 * 0x10000 ≤ off)
    && decide (off + 2048 ≤ 0xC00000 + (field e 64 9 + field e 96 9) * 0x10000)
  let s := s.evictFrames fun cave place off => cave && place == die && !held off
  s.updDie die fun d => { d with caveWin := es }

/-- Frozen groups of a core continue, the timers of all its groups having stood still since it froze or since they began, and its trap context serves events again (R372). -/
def State.unfreeze (s : State) (core : Nat) : State :=
  let k := s.core core
  match k.frozen with
  | none => s
  | some _ =>
    let late := s.clock - k.frozenAt
    let s := s.updCore core fun k => { k with frozen := none, frozenPosted := false }
    let woken := dedup ((s.groupsOn core).filterMap fun g => if g.status = GroupStatus.frozen then some g.wg else none)
    let stood := fun (begun : Nat) => min late (s.clock - begun)
    let s := s.mapGroups fun g =>
      if g.core == core then
        { g with status := if g.status = GroupStatus.frozen then .running else g.status
                 save := g.save.map fun e =>
                   if decide (e.state = .parked .mwait) || decide (e.state = .parked .backoff) then { e with deadline := e.deadline + stood e.begun } else e
                 tx := g.tx.map fun t => { t with since := t.since + stood t.since } }
      else g
    (woken.foldl State.trySort s).startEvent core

/-- DUMPREL (R372). -/
def State.dumpRelease (s : State) : State := (List.range 128).foldl (fun s c => s.unfreeze c) s

/-- The enabled recorded lines leave every L1 (R377). -/
def State.dropRecorded (s : State) : State :=
  (s.dies.flatMap fun d => (d.recLines.filter fun r => r.entry.getLsbD 64).map fun r => field r.entry 6 46 * 64).foldl
    (fun s line => s.invalidateLine line) s

/-- While MODE is 1 or 2, a line that an entry names and enables leaves every L1 (R377). -/
def State.dropEnabled (s : State) (die k : Nat) : State :=
  let e := ((s.die die).recLines.getD k {}).entry
  if (s.rrMode == 1 || s.rrMode == 2) && e.getLsbD 64 then s.invalidateLine (field e 6 46 * 64) else s

/-- RRCTL written with MODE 0 (R377). -/
def State.rrOff (s : State) (x : W64) : State := s.setCtl fun c => { c with rrctl := setField x 0 2 0 &&& 0xFFFFFFFF000000FF }

/-- RRCTL written with MODE 1 (R377): the logs of the enabled lines, with their overflow marks, and the hash logs are cleared (R426).
(DESIGN CHOICE, log entry 83, safe.) -/
def State.rrRecord (s : State) (x : W64) : State :=
  let s := (s.setCtl fun c => { c with rrctl := setField x 0 2 1 &&& 0xFFFFFFFF000000FF, wasRecorded := true }).dropRecorded
  let s := s.clearLogs
  { s with dies := s.dies.map fun d =>
      { d with recLines := d.recLines.map fun r => if r.entry.getLsbD 64 then ({ entry := setField r.entry 65 1 0 } : RecLine) else r } }

/-- RRCTL written with MODE 2 (R378): every gate starts closed at the head of the log that stands in the Cave for it. -/
def State.rrReplay (s : State) (x : W64) : State :=
  let s := (s.setCtl fun c => { c with rrctl := setField x 0 2 2 &&& 0xFFFFFFFF000000FF, wasRecorded := true }).dropRecorded
  { s with dies := s.dies.map fun d =>
      { d with recLines := d.recLines.map fun r => { r with pos := 0, used := 0, opened := false, waiting := none, moved := s.tstamp.toNat } } }

/-- RRSTAT written (R370): ones clear. -/
def State.rrClear (s : State) (x : W64) : State := s.setCtl fun c => { c with rrstat := c.rrstat &&& ~~~x }

/-- FWCTL written (R382): a 1 in bit 0 starts the verification of the staged image. -/
def State.fwVerify (s : State) (x : W64) : State :=
  if s.ctl.fwstat.getLsbD 2 then s
  else if x.getLsbD 0 then s.setCtl fun c => { c with fwctl := setField c.fwctl 1 1 (field x 1 1), fwstat := c.fwstat ||| 4 }
  else s.setCtl fun c => { c with fwctl := setField c.fwctl 1 1 (field x 1 1) }

/-- ATTCTL written (R384): an attestation starts over a copy of the nonce. -/
def State.attStart (s : State) : State :=
  if s.ctl.attctl.getLsbD 1 then s else s.setCtl fun c => { c with attctl := 2, nonceCopy := c.attnonce, attFlags := (if c.wasAttached then 1 else 0) + (if c.wasRecorded then 2 else 0) }

/-- PWRCTL written with state 0 or 1 (R385); the state reached leaves REFUSED clear. (DESIGN CHOICE, log entry 90, unsafe.) -/
def State.power (s : State) (code : Nat) : State :=
  s.setCtl fun c => { c with pwrctl := BitVec.ofNat 64 code, pwrstat := BitVec.ofNat 64 code }

/-- PWRCTL written with RETAIN (R385): refused while some launch has a resident or saved group. -/
def State.powerRetain (s : State) : State :=
  if s.allGroups.any fun g => g.slot != 64 && g.launch != 0 then
    s.setCtl fun c => { c with pwrctl := 2, pwrstat := c.pwrstat ||| 0x100 }
  else s.power 2

/-- DBGSTOP (R371). -/
def State.dbgStop (s : State) (h : Nat) : State := s.stopLaunch h

/-- LKILL (R365). -/
def State.killLaunch (s : State) (h : Nat) : State := s.endLaunch h true
/-- LKILL with TREE (R365). -/
def State.killTree (s : State) (h : Nat) : State :=
  if (s.launchOf h).isNone then s else (s.descendants s.launches.length [h]).foldl (fun s x => s.endLaunch x true) s

/-- A value clamped to a range. -/
def clamp (lo hi x : Nat) : Nat := max lo (min hi x)

/-- A sub-page filter's word written (Table 20-3). -/
def filterMerge (e : BitVec 128) (word : Nat) (x : W64) : BitVec 128 :=
  if word = 0 then setField e 0 57 (field x 0 57) else setField (setField e 64 25 (field x 0 25)) 110 18 (field x 46 18)

/-- A recorded-line entry's word written (R376): OVF belongs to the hardware. -/
def recMerge (e : BitVec 128) (word : Nat) (x : W64) : BitVec 128 :=
  if word = 0 then setField e 6 46 (field x 6 46) else setField e 64 1 (field x 0 1)

/-- SMPCTL written (R375): sampling that was off starts at the beginning of every core's part, an interval from now. (DEDUCED, log entry 41, safe.) -/
def State.startSampling (s : State) (x : W64) : State :=
  let on := x.getLsbD 0 && !s.ctl.smpctl.getLsbD 0
  let s := s.setCtl fun c => { c with smpctl := x &&& 0x3F }
  if on then { s with cores := s.cores.map fun k => { k with smpPos := 0, smpLast := 63, smpDue := s.clock + 2 ^ field x 1 5 } } else s

/-- The control registers that hold what is written to them, within their fields. -/
def State.writePlain (s : State) (off : Nat) (x : W64) : State :=
  if off = 0x800 then s.setCtl fun c => { c with hbmwin := x &&& 0x7F000000000 }
  else if off = 0x808 then s.setCtl fun c => { c with fabtmo := BitVec.ofNat 64 (clamp 16 1000000 (field x 0 32)) }
  else if 0x900 ≤ off ∧ off < 0xA00 then
    s.setCtl fun c => { c with tilemask := c.tilemask.set ((off - 0x900) / 8) (BitVec.ofNat 32 x.toNat) }
  else if off = 0x2000 then s.setCtl fun c => { c with eccthr := if field x 0 4 = 0 then c.eccthr else BitVec.ofNat 64 (field x 0 4) }
  else if off = 0x2008 then s.setCtl fun c => { c with eccwin := x }
  else if off = 0x3000 then s.setCtl fun c => { c with dbgctl := x &&& 1, wasAttached := c.wasAttached || x.getLsbD 0 }
  else if off = 0x3010 then s.startSampling x
  else if off = 0x3018 then s.setCtl fun c => { c with smpbuf := BitVec.ofNat 64 (x.toNat / 4096 * 4096) }
  else if off = 0x3020 then s.setCtl fun c => { c with smpsz := BitVec.ofNat 64 (field x 0 32) }
  else if 0x4020 ≤ off ∧ off < 0x4040 then
    (if s.ctl.attctl.getLsbD 1 then s
     else s.setCtl fun c => { c with attnonce := c.attnonce.take (off - 0x4020) ++ toBytes 8 x.toNat ++ c.attnonce.drop (off - 0x4020 + 8) })
  else if off = 0x4110 then s.setCtl fun c => { c with pcap := BitVec.ofNat 64 (clamp 1500 5600 (field x 0 16)) }
  else if 0x10000 ≤ off ∧ off < 0x14000 then
    (if off % 0x1000 < 0x200 then
      s.updDie ((off - 0x10000) / 0x1000) fun d => { d with filters := modifyAt (fun e => filterMerge e (off % 16 / 8) x) (off % 0x1000 / 16) d.filters }
     else s)
  else if 0x20000 ≤ off ∧ off < 0x24000 then
    (if off % 0x1000 < 0x400 then
      (s.updDie ((off - 0x20000) / 0x1000) fun d =>
        { d with recLines := modifyAt (fun r => { r with entry := recMerge r.entry (off % 16 / 8) x }) (off % 0x1000 / 16) d.recLines }).dropEnabled
          ((off - 0x20000) / 0x1000) (off % 0x1000 / 16)
     else s)
  else if 0x20000000 ≤ off ∧ off < 0x28000000 then
    (if s.ctl.fwstat.getLsbD 2 then s else s.setCtl fun c => { c with fwstg := c.fwstg.writeNat (off - 0x20000000) 8 x.toNat })
  else s

/-- RRCTL written: MODE decides (Table 20-2); the reserved MODE 3 is discarded. -/
def State.writeRrctl (s : State) (x : W64) : State :=
  match field x 0 2 with
  | 0 => s.rrOff x
  | 1 => s.rrRecord x
  | 2 => s.rrReplay x
  | _ => s

/-- PWRCTL written (Table 21-3): code 3 is discarded. -/
def State.writePwrctl (s : State) (x : W64) : State :=
  match field x 0 2 with
  | 0 => s.power 0
  | 1 => s.power 1
  | 2 => s.powerRetain
  | _ => s

/-- A write of 4 or 8 bytes in the control range (R178): the value is merged into its 64-bit word, and the word's register acts.
(DEDUCED, log entry 29, safe.) (DEDUCED, log entry 66, safe.) -/
def State.ctlWrite (s : State) (byHost : Bool) (pa size : Nat) (value : W64) : State :=
  let at_ := localOf pa - 0x6C000000000
  let off := at_ / 8 * 8
  let bits := 8 * (at_ % 8)
  let low : Bool := bits == 0
  let x := setField (BitVec.ofNat 64 (s.ctlWord off)) bits (8 * size) value.toNat
  let fresh := setField (0 : W64) bits (8 * size) value.toNat
  if off = 0x810 then (if low then s.raiseMsix byHost (field fresh 0 6) else s)
  else if 0xA00 ≤ off ∧ off < 0xE00 then s.writeCaveWin ((off - 0xA00) / 0x100) (off % 0x100 / 16) (off % 16 / 8) x
  else if off = 0x1000 then (if low then (if fresh.getLsbD 32 then s.killTree (field fresh 0 32) else s.killLaunch (field fresh 0 32)) else s)
  else if off = 0x3008 then (if low then s.dbgStop (field fresh 0 32) else s)
  else if off = 0x3028 then s.dumpRelease
  else if off = 0x3030 then s.writeRrctl x
  else if off = 0x3038 then s.rrClear fresh
  else if off = 0x4010 then (if low && fresh.getLsbD 0 then s.attStart else s)
  else if off = 0x4040 then (if low then s.fwVerify fresh else s)
  else if off = 0x4100 then (if low then s.writePwrctl x else s)
  else s.writePlain off x

end Sys2Proof.Machine
end

