-- ==== Sys2Proof/Machine/TxLog.lean ====
section
/-!
DEFINITION. Logged accesses of transactions (R157 to R159, R125), and lanes that leave their path because a log is full (R164).
-/
namespace Sys2Proof.Machine
open Sys2Proof

/-- Whether a lane's accesses are logged: transactional and not irrevocable. -/
def Group.logs (g : Group) (l : Nat) : Bool := g.inTx l && !g.irrev l

/-- Whether an access is illegal inside a transaction for the place it reaches (R159, R125). -/
def State.txForbidden (s : State) (p : Placed) : Bool :=
  moduleOf p.pa != s.module || (match placeOf (localOf p.pa) with
    | .hbm => match s.wheelAt (wheelOf p.pa) with
      | some w => (match w.state, w.after with
        | .residentF _ _ _, _ => true
        | .pressing, some (.residentF _ _ _) => true
        | _, _ => false)
      | none => false
    | _ => true)

/-- TX_ILLEGAL where a transactional lane's access reaches such a place. -/
def State.checkTxPlaces (s : State) (tx : Placed → Bool) (ps : List Placed) : Res Unit :=
  trapIf (ps.any fun p => tx p && s.txForbidden p) codeTx

/-- Whether an entry covers a run of bytes. -/
def LogEntry.covers (e : LogEntry) (pa n : Nat) : Bool := decide (e.pa ≤ pa) && decide (pa + n ≤ e.pa + e.size)

/-- The bytes of a lane's own write entries laid over bytes from memory (R158). -/
def overlay (ws : List LogEntry) (pa : Nat) (bs : List Byte) : List Byte :=
  bs.mapIdx fun k b => ws.foldl (fun b e =>
    if e.pa ≤ pa + k ∧ pa + k < e.pa + e.size then BitVec.ofNat 8 (field e.data (8 * (pa + k - e.pa)) 8) else b) b

/-- A wheel of a transactional access brought to its slice from IDLE or VATTED (R125). -/
def State.txWheel (s : State) (p : Placed) : State :=
  match s.route p.leaf.pte p.pa with
  | .vat => s.forceResident (wheelOf p.pa)
  | _ => s

/-- Whether a core's copy of a line answers a transactional load by itself (R158): whole, at full precision, with the version of a reply, and not
held in M. -/
def State.txHit (s : State) (core line : Nat) : Option L1Line :=
  match s.dirOf line with
  | some { state := .modified _, .. } => none
  | _ => (s.l1Of core line).filter fun c => c.tag == .full && c.valid == BitVec.allOnes 64 && c.version.isSome

/-- A transactional load within a line (R158): a hit logs the version that the L1 keeps with its copy; any other load is a full-precision
request to the directory, before which the issuing core writes back what it holds in M, and logs the version of the reply. A recorded line is held in
no L1 (R377). -/
def State.txRead (s : State) (pa n : Nat) : List Byte × W32 × State :=
  let line := lineOf pa
  let s := s.drainLine (dieOf s.g.core) line
  if s.recorded line then
    let s := s.fill line
    (s.mem.readBytes pa n, (s.versionOf line).getD 0, s)
  else match s.txHit s.g.core line with
    | some c =>
      let (bs, s) := s.loadLine s.g.core pa n .full false 0
      (bs, c.version.getD 0, s)
    | none =>
      let s := (s.recall line true).dirLoad s.g.core line .full false 0
      let (bs, s) := s.loadLine s.g.core pa n .full false 0
      (bs, (s.versionOf line).getD 0, s)

/-- The parts of at most 8 bytes that an access makes entries for. -/
def logParts (pa n : Nat) : List (Nat × Nat) := (List.range ((n + 7) / 8)).map fun k => (pa + 8 * k, min 8 n)

/-- A lane's transactional load (R158): the bytes it returns, and the state; none where the log is full. -/
def State.txLoad (s : State) (l : Nat) (p : Placed) (n : Nat) : Option (List Byte) × State :=
  let (bs, v, s) := (s.txWheel p).txRead p.pa n
  let t := s.g.laneTx l
  let ts := (s.g.txWord l).getLsbD 1
  let covered := (t.reads ++ t.writes).any fun e => e.covers p.pa n
  let new := if covered then [] else (logParts p.pa n).map fun x =>
    { kind := if ts then 1 else 0, size := x.2, pa := x.1, vat := pteBit p.leaf.pte 7,
      data := if ts then BitVec.ofNat 64 v.toNat else BitVec.ofNat 64 (fromBytes ((bs.drop (x.1 - p.pa)).take x.2)) : LogEntry }
  if 16 < t.reads.length + new.length then (none, s)
  else (some (overlay t.writes p.pa bs), { s with g := s.g.updTx l fun t => { t with reads := t.reads ++ new } })

/-- One write entry put into a log (R158). -/
def putWrite (ws : List LogEntry) (e : LogEntry) : List LogEntry :=
  if ws.any (fun x => x.pa == e.pa && x.size == e.size) then ws.map fun x => if x.pa == e.pa && x.size == e.size then e else x else ws ++ [e]

/-- A lane's transactional store (R158); none where the log is full. -/
def State.txStore (s : State) (l : Nat) (p : Placed) (bs : List Byte) : Option State :=
  let s := s.txWheel p
  let ws := (logParts p.pa bs.length).foldl (fun ws x => putWrite ws
    { kind := 2, size := x.2, pa := x.1, vat := pteBit p.leaf.pte 7, data := BitVec.ofNat 64 (fromBytes ((bs.drop (x.1 - p.pa)).take x.2)) }) (s.g.laneTx l).writes
  if 8 < ws.length then none else some { s with g := s.g.updTx l fun t => { t with writes := ws } }

/-- Lanes whose logs are full leave the path (R164). With no save-area entry free the aborts are recorded in the state before the
instruction, and DIVSTACK_OVF is raised there. -/
def State.shed (before after : State) (m : W32) : Res State :=
  if m = 0 then .ok after
  else
    let drop := fun (s : State) => { s with g := (lanesOf m).foldl (fun g l => g.abortLane causeLogfull 0 l) s.g }
    match (drop after).backOff m with
    | some s => .ok s
    | none =>
      let b := drop before
      .error (.trapAfter { b with g := (lanesOf m).foldl (fun g l => g.updTx l fun t => { t with restarts := true }) b.g } { code := codeDivstack })

end Sys2Proof.Machine
end

