-- ==== Sys2Proof/Machine/MemInstr.lean ====
section
/-!
DEFINITION. Vector and scalar loads and stores: majors 0x31 to 0x3B (R295 to R301).
-/
namespace Sys2Proof.Machine
open Sys2Proof

/-! ### Elements and addresses (R296, R297) -/

/-- Registers that an element of a size code occupies (R296). -/
def elemRegs (size : Nat) : Nat := if size = 4 then 4 else if size = 3 then 2 else 1

/-- The data registers of an MV form. -/
def dataRegs (vdata size : Nat) : List RegName := (List.range (elemRegs size)).map fun k => rv (vdata + k)

/-- A lane's element as a store reads it. -/
def Group.laneData (g : Group) (vdata size l : Nat) : List Byte :=
  ((List.range (elemRegs size)).flatMap fun k => toBytes 4 (g.srcLane (vdata + k) l).toNat).take (2 ^ size)

/-- The bytes found for a lane. -/
def laneBytes (rs : List (Nat × List Byte)) (l : Nat) : List Byte := ((rs.find? fun r => r.1 == l).map fun r => r.2).getD []

/-- A load's result written (R296, R298): a byte or half replaces only its bits. -/
def State.writeElems (s : State) (vdata size : Nat) (mask : W32) (zero : Bool) (rs : List (Nat × List Byte)) : State :=
  (List.range (elemRegs size)).foldl (fun s k =>
    let old := s.g.readV (vdata + k)
    s.putV true true (vdata + k) mask zero fun l =>
      let bs := ((laneBytes rs l).drop (4 * k)).take 4
      BitVec.ofNat 32 (fromBytes (bs ++ (toBytes 4 (old.getD l 0).toNat).drop bs.length))) s

/-- What an MV form reads and writes, and the hints it takes (R298, Table 07-4). A byte or half load keeps bits of vdata without being a consumer of
it for R242. (DESIGN CHOICE, log entry 84, unsafe.) -/
def mvForm (load : Bool) (vdata vaddr sbase size mode : Nat) : Form :=
  { srcs := rs sbase :: (if mode = 0 ∨ mode = 4 then [rv vaddr] else if mode = 2 then [rb vaddr] else [])
      ++ (if load then [] else dataRegs vdata size)
    keeps := if load && decide (size < 2) then dataRegs vdata size else []
    dsts := (if load then dataRegs vdata size else []) ++ (if mode = 2 then [rs sbase] else [])
    ords := if load then [0, 1, 4] else [0, 2, 4], z := load }

/-- The address of a lane in modes 0, 1, 3 and 4 (R297). -/
def Group.mvAddr (g : Group) (vaddr sbase size mode l : Nat) : W64 :=
  let base := g.srcS sbase
  if mode = 1 then base + BitVec.ofNat 64 (l * 2 ^ size)
  else if mode = 3 then base
  else base + sext64 (g.srcLane vaddr l).toNat 32

/-- The active lanes with their addresses. -/
def State.mvLanes (s : State) (vaddr sbase size mode : Nat) : List (Nat × W64) :=
  (lanesOf s.exm).map fun l => (l, s.g.mvAddr vaddr sbase size mode l)

/-! ### Global loads and stores -/

/-- A plain load of one lane or path: the control range answers with its registers (R178), any other place by `globalLoad`. -/
def State.plainLoad (s : State) (p : Placed) (n : Nat) (tag : Tag) (upd : Bool) (cache : Nat) : List Byte × State :=
  match s.route p.leaf.pte p.pa with
  | .control => (s.ctlRead p.pa n, s)
  | _ => s.globalLoad s.g.core p.leaf.pte p.pa n tag upd cache

/-- The whole line of a load as the core sees it in one access of the L1 (R100); none where the place is not cached. `bm` holds the bytes that the load
reads. -/
def State.lineLoad (s : State) (p : Placed) (bm : W64) (tag : Tag) (upd : Bool) (cache : Nat) : Option (List Byte × State) :=
  let line := lineOf p.pa
  let core := s.g.core
  match s.route p.leaf.pte p.pa with
  | .plain => some ((s.drainLine (dieOf core) line).loadBytes core line bm (if pteBit p.leaf.pte 8 then .full else tag) upd cache)
  | .hostCached => some (s.hostLoad core line bm cache)
  | .remote =>
    if s.fetchesWheel p then
      let t := s.remoteTag p.leaf.pte p.pa tag
      some ((if s.holdsRemote t line then s else s.installRemote (wheelOf p.pa) t).loadBytes core line bm t upd cache)
    else none
  | .vat =>
    match s.wheelAt (wheelOf p.pa) with
    | some w => if w.state = .residentS then some ((s.drainLine (dieOf core) line).loadBytes core line bm .full false cache) else none
    | none => some ((s.drainLine (dieOf core) line).loadBytes core line bm .full false cache)
  | _ => none

/-- The lanes of one load that fall in one line of one page, in one access of the L1 (R100): the bytes of the whole line as the core sees it serve
them all. Lanes whose bytes wait in the die's buffer take them there, where every one of them can (R142). -/
def State.loadGroup (s : State) (n : Nat) (tag : Tag) (upd : Bool) (cache : Nat) (ps : List Placed) : List (Nat × List Byte) × State :=
  match ps with
  | [] => ([], s)
  | p :: _ =>
    let line := lineOf p.pa
    let full := tag == .full || pteBit p.leaf.pte 8
    let waiting := ps.map fun q => (s.forwarded s.g.core q.pa n).map fun bs => (q.lane, bs)
    if decide (s.route p.leaf.pte p.pa = .plain) && full && waiting.all fun x => x.isSome then (waiting.filterMap id, s)
    else
      match s.lineLoad p (ps.foldl (fun m q => m ||| byteMask (q.pa - line) n) 0) tag upd cache with
      | some (bs, s) => (ps.map fun q => (q.lane, (bs.drop (q.pa - line)).take n), s)
      | none => ps.foldl (fun acc q =>
          let (bs, s) := acc.2.plainLoad q n tag upd cache
          (acc.1 ++ [(q.lane, bs)], s)) ([], s)

/-- The lanes' loads (R136, R298): logged ones in ascending order, the others line by line; bytes for each lane, the state, and the lanes whose logs
are full (R158). A lane of an irrevocable attempt loads at full precision (R94, R299). -/
def State.loadLanes (s : State) (n : Nat) (tag : Tag) (upd : Bool) (cache : Nat) (ps : List Placed) :
    List (Nat × List Byte) × State × W32 :=
  let logged := ps.filter fun p => s.g.logs p.lane
  let r := logged.foldl (fun acc p => match acc.2.1.txLoad p.lane p n with
      | (some bs, s) => (acc.1 ++ [(p.lane, bs)], s, acc.2.2)
      | (none, s) => (acc.1, s, acc.2.2 ||| BitVec.ofNat 32 (2 ^ p.lane))) (([] : List (Nat × List Byte)), s, (0 : W32))
  let plain := ps.filter fun p => !s.g.logs p.lane
  let keys := dedup (plain.map fun p => (lineOf p.pa, p.leaf.pte, s.g.inTx p.lane))
  let r2 := keys.foldl (fun acc k =>
    let mine := plain.filter fun p => lineOf p.pa == k.1 && p.leaf.pte == k.2.1 && s.g.inTx p.lane == k.2.2
    let (bs, s) := acc.2.loadGroup n (if k.2.2 then .full else tag) (upd && !k.2.2) cache mine
    (acc.1 ++ bs, s)) (r.1, r.2.1)
  (r2.1, r2.2, r.2.2)

/-- The tag of a subscription code (Table 05-2): none where FMT_BAD is raised. -/
def State.subTag (s : State) (sub : Nat) : Option Tag :=
  let narrow := fun (d : W32) =>
    if descValid d && !d.getLsbD 14 && field d 1 3 != 0 then some (Tag.narrow d) else none
  match sub with
  | 0 => some .full
  | 1 => some .bf16
  | 2 => some .fp16
  | 3 => some (.narrow 0x13B9)
  | 4 => some (.narrow 0x27AB)
  | 5 => narrow (s.g.fmt.getD 2 0)
  | _ => narrow (s.g.fmt.getD 3 0)

/-- A vector load from global memory (R298, R299). A subscription format that fails R91 raises FMT_BAD in every case, whatever the mask holds,
and before the checks of Table 03-7. (DESIGN CHOICE, log entry 85, unsafe.) -/
def vectorLoad (subs : Bool) (vdata vaddr sbase size mode : Nat) (s : State) : Out :=
  Form.run { mvForm true vdata vaddr sbase size mode with sub := subs } s fun h t =>
    match t.subTag h.mods.sub with
    | none => trapNow codeFmt
    | some tag =>
      if t.exm = 0 then .ok t
      else do
        t.ordered h
        let n := 2 ^ size
        let ps ← t.checkLanes t.who .load false n (t.mvLanes vaddr sbase size mode)
        t.checkTxPlaces (fun p => t.g.inTx p.lane) ps
        waitWhile (t.globalBusy .load h.strong ps n)
        let u ← t.admitAccess .load n ps (t.loadLeaves n tag)
        let (rs, u, full) := (u.fillAll u.who .load ps).loadLanes n tag h.mods.upd h.mods.cache ps
        let u ← t.shed u full
        .ok (u.writeElems vdata size u.exm h.mods.zero rs)

/-- The failure of a posted request that cannot reach its module is kept for the group's next fence, release or drain (R192, R193), with its INFO
(R357). -/
def State.postFailed (s : State) (info : Nat) (va : W64) : State :=
  if s.g.lateFault.isSome then s else { s with g := { s.g with lateFault := some va, lateInfo := info } }

/-- The bytes of a posted write merged into the copies that this module holds of a line of another (R188): the issuing core keeps no reduced copy, and
where the slice holds the line takes, or allocates, a copy at full precision with the stored bytes valid (R97); the other copies are compared (R98). -/
def State.mergeRemote (s : State) (core cache : Nat) (pa : Nat) (bs : List Byte) (post : State → State) : State :=
  let line := lineOf pa
  let s := s.deliverAll line
  let s := { s with l1 := s.l1.filter fun c => !(c.core == core && c.line == line && decide (c.tag ≠ Tag.full)) }
  let old := s.lineBytes line
  let s := post s
  if (s.versionOf line).isNone then s
  else
    let s := (s.compareWrite (some core) line old (overWrites [(pa, bs)] line old)).bumpAs line (if cache = 2 then 2 else 0)
    let own := s.l1Of core line
    let s := if own.isNone && cache == 2 then s
      else
        let c := own.getD { core := core, line := line, tag := .full, valid := 0, dirty := 0 }
        let s := (s.dirRoom line).putL1 { c with valid := c.valid ||| byteMask (pa - line) bs.length, version := none } cache
        let d := (s.dirOf line).getD { line := line, state := .shared }
        { s with dir := setDir (addSharer d (clusterOf core) .full) s.dir }
    s.deliverDie core line

/-- A posted write outside the module (R188, R182): performed at once, or sent when steps are deferred. The module's copies take a strong one only when
it is performed (R142). -/
def State.postedWrite (s : State) (p : Placed) (bs : List Byte) (cache : Nat) (strong : Bool) : State :=
  if s.moduleFailed p.pa then s.postFailed 1 p.va
  else
    let send := fun (s : State) =>
      if s.defer then s.sendRequest { s.requestFor p (BitVec.ofNat 32 (2 ^ p.lane)) true [(p.pa, bs)] with strong := strong }
      else s.globalStore s.g.core p.leaf.pte p.pa bs cache
    if moduleOf p.pa == s.module || (strong && s.defer) then send s else s.mergeRemote s.g.core cache p.pa bs send

/-- Whether a core holds a line in M. -/
def State.owns (s : State) (core line : Nat) : Bool :=
  match s.dirOf line with
  | some { state := .modified o, .. } => o == core
  | _ => false

/-- Whether a store takes its line or reaches its slice later, from its die's buffer (R142): where steps are deferred, unless it is an `sc` store of
scope `dev` or wider, or its core holds the line in M. -/
def State.buffers (s : State) (strong : Bool) (pa : Nat) : Bool := s.defer && !strong && !s.owns s.g.core (lineOf pa)

/-- A plain store of one lane or path, to a place other than a vat-managed wheel. Where its core holds the line in M, stores of the die that wait for the
line are performed first (R103), which may take the line away. An `sc` store of scope `dev` or wider is performed at its scope before any core can
load it (R142). -/
def State.plainStore (s : State) (p : Placed) (bs : List Byte) (cache : Nat) (strong : Bool) : State :=
  match s.route p.leaf.pte p.pa with
  | .control => s.ctlWrite false p.pa bs.length (BitVec.ofNat 64 (fromBytes bs))
  | .remote => s.postedWrite p bs cache strong
  | .hostDirect => s.postedWrite p bs cache strong
  | .plain =>
    let s := if s.owns s.g.core (lineOf p.pa) then s.drainLine (dieOf s.g.core) (lineOf p.pa) else s
    if s.buffers strong p.pa then
      { s with nextId := s.nextId + 1
               stores := s.stores ++ [{ id := s.nextId, ident := s.g.ident, core := s.g.core, pte := p.leaf.pte, pa := p.pa, bytes := bs, cache := cache }] }
    else
      let s := (s.drainLine (dieOf s.g.core) (lineOf p.pa)).globalStore s.g.core p.leaf.pte p.pa bs cache
      if strong then s.deliverAll (lineOf p.pa) else s
  | _ => (s.drainLine (dieOf s.g.core) (lineOf p.pa)).globalStore s.g.core p.leaf.pte p.pa bs cache

/-- Whether a place is served by a vat's service group (R110). -/
def State.viaVat (s : State) (p : Placed) : Bool := decide (s.route p.leaf.pte p.pa = .vat)

/-- Requests to vat-managed wheels sent, one unit for each wheel (R110, R115), behind the stores of the die that wait for their lines. -/
def State.sendUnits (s : State) (rs : List AtomReq) : State :=
  (dedup (rs.map fun r => wheelOf r.addr)).foldl (fun s w => (s.drainRun (dieOf s.g.core) w 2048).sendUnit s.g.ident s.g.core w (rs.filter fun r => wheelOf r.addr == w)) s

/-- The lanes' stores in ascending order (R136, R158, R298): logged, or performed; stores to vat-managed wheels go as units. -/
def State.storeLanes (s : State) (cache : Nat) (strong : Bool) (ps : List (Placed × List Byte)) : State × W32 :=
  let units := (ps.filter fun x => !s.g.logs x.1.lane && s.viaVat x.1).map fun x =>
    { lane := x.1.lane, addr := x.1.pa, size := x.2.length, op := opStore, operand := BitVec.ofNat 128 (fromBytes x.2) : AtomReq }
  let r := (ps.filter fun x => s.g.logs x.1.lane || !s.viaVat x.1).foldl (fun acc x =>
    let s := acc.1
    if s.g.logs x.1.lane then
      match s.txStore x.1.lane x.1 x.2 with
      | some s => (s, acc.2)
      | none => (s, acc.2 ||| BitVec.ofNat 32 (2 ^ x.1.lane))
    else (s.plainStore x.1 x.2 cache strong, acc.2)) (s, (0 : W32))
  (r.1.sendUnits units, r.2)

/-- A vector store to global memory (R298). -/
def vectorStore (vdata vaddr sbase size mode : Nat) (s : State) : Out :=
  Form.run (mvForm false vdata vaddr sbase size mode) s fun h t =>
    if t.exm = 0 then .ok t
    else do
      t.ordered h
      let n := 2 ^ size
      let ps ← t.checkLanes t.who .store false n (t.mvLanes vaddr sbase size mode)
      t.checkTxPlaces (fun p => t.g.inTx p.lane) ps
      waitWhile (t.globalBusy .store h.strong ps n)
      let u ← t.gate ((ps.filter fun p => !t.g.logs p.lane).flatMap fun p => linesOf p.pa n)
      let data := ps.map fun p => (p, t.g.laneData vdata size p.lane)
      let (u, full) := (u.fillAll u.who .store ps).storeLanes h.mods.cache h.strong data
      let u ← t.shed u full
      .ok (u.feedHash ((data.filter fun x => laneOn u.exm x.1.lane).map fun x => { space := 0, addr := x.1.va.toNat, data := x.2 }))

/-- `vld` (R298). -/
def execVld (vdata vaddr sbase size mode : Nat) (s : State) : Out := vectorLoad false vdata vaddr sbase size mode s

/-- `vldsub` (R299). -/
def execVldsub (vdata vaddr sbase size mode : Nat) (s : State) : Out := vectorLoad true vdata vaddr sbase size mode s

/-- `vst` (R298). -/
def execVst (vdata vaddr sbase size mode : Nat) (s : State) : Out := vectorStore vdata vaddr sbase size mode s

/-! ### On-chip loads and stores -/

/-- The on-chip space that a lane's access reaches: lane-private slices belong to positions (R50, R51). -/
def State.laneSpace (s : State) (sp : Space) (l : Nat) : Space :=
  match sp with
  | .slice _ => .slice (s.position l)
  | sp => sp

/-- The offsets of an on-chip access, checked (R50, R73, R297). -/
def State.chipOffsets (s : State) (sp : Space) (k : Kind) (vaddr sbase size mode : Nat) : Res (List (Nat × W64)) := do
  if mode = 2 then
    let at_ ← modAccess (s.extent sp) (s.g.srcS sbase) (s.g.bm.getD vaddr 0) (2 ^ size) k.info
    .ok ((lanesOf s.exm).map fun l => (l, at_ l))
  else
    let ls := s.mvLanes vaddr sbase size mode
    checkOffsets (s.extent sp) (2 ^ size) k.info ls
    .ok ls

/-- The pointer of a mode-2 access written (R73). -/
def State.bumpPointer (s : State) (vaddr sbase mode : Nat) : State :=
  if mode = 2 then s.putS true true sbase (modNext (s.g.srcS sbase) (s.g.bm.getD vaddr 0)) else s

/-! ### The crossbar of a cluster (R74, R151) -/

/-- A register's value with the word `k` of the values of lanes put in (R108); a byte or half replaces only its bits (R239). -/
def putOlds (size k : Nat) (olds : List (Nat × Nat)) : RegVal → RegVal
  | .lanes v => .lanes (v.mapIdx fun l w => match olds.find? fun o => o.1 == l with
    | some o =>
      if size = 1 then w.extractLsb' 8 24 ++ BitVec.ofNat 8 o.2
      else if size = 2 then w.extractLsb' 16 16 ++ BitVec.ofNat 16 o.2
      else BitVec.ofNat 32 (o.2 / 2 ^ (32 * k))
    | none => w)
  | .word _ => .word (BitVec.ofNat 64 (((olds.head?.map fun o => o.2).getD 0) / 2 ^ (64 * k)))

/-- Values of lanes put into the results in flight that wait for an entry; they wait no more when it was the last of its instruction. -/
def Group.fillWaiting (g : Group) (id size : Nat) (last : Bool) (olds : List (Nat × Nat)) : Group :=
  { g with inflight := g.inflight.map fun x => match x.await with
      | some (e, k) => if e = id then { x with await := if last then none else x.await, val := putOlds size k olds x.val } else x
      | none => x }

/-- The latest result in flight for a register waits for word `k` of an entry's old values. -/
def awaitFor (id k : Nat) (reg : RegName) (xs : List Inflight) : List Inflight :=
  (modifyFirst (fun x => decide (x.reg = reg)) (fun x => { x with await := some (id, k) }) xs.reverse).reverse

/-- The results that an instruction has put in flight in some registers wait for the entry of a number. -/
def State.awaitEntry (s : State) (id : Nat) (regs : List RegName) : State :=
  { s with g := { s.g with inflight := (regs.foldl (fun (acc : List Inflight × Nat) r => (awaitFor id acc.2 r acc.1, acc.2 + 1)) (s.g.inflight, 0)).1 } }

/-- The parts of an instruction put on the crossbar of its cluster, one entry for each share that its lanes address (R74).
(DESIGN CHOICE, log entry 68, unsafe.) -/
def State.toXbar (s : State) (h : Hints) (load : Bool) (parts : List (Nat × Nat × List Byte)) : State :=
  match s.myWg.bind s.instOf with
  | none => s
  | some i =>
    let share := fun (p : Nat × Nat × List Byte) => p.2.1 / (i.size / 4)
    let new := (dedup (parts.map share)).map fun k =>
      ({ id := s.nextId, ident := s.g.ident, core := s.g.core, wg := s.g.wg, inst := i.key, share := k, load := load, acq := load && h.acquires,
         parts := parts.filter fun p => share p == k } : XbarReq)
    { s.updCluster (clusterOf s.g.core) fun c => { c with xbar := c.xbar ++ new } with nextId := s.nextId + 1 }

/-- An access on the crossbar performed at its share (R74, R151). (DESIGN CHOICE, log entry 68, unsafe.) -/
def State.xbarPerform (s : State) (cluster : Nat) (x : XbarReq) : State :=
  let s := s.updCluster cluster fun c => { c with xbar := removeFirst (fun y => decide (y = x)) c.xbar }
  if x.load then
    let cells : Cells := ((s.insts.find? fun i => i.key == x.inst).map fun i => i.cells).getD []
    let last := !((s.cluster cluster).xbar.any fun y => y.id == x.id)
    s.updIdent x.ident fun g => g.fillWaiting x.id ((x.parts.head?.map fun p => p.2.2.length).getD 4) last
      (x.parts.map fun p => (p.1, cells.readNat p.2.1 p.2.2.length))
  else x.parts.foldl (fun s p => s.instWrite x.inst p.2.1 p.2.2) s

/-- The oldest access of a core to a share performed; the crossbar delivers them in the order of their issue (R74).
(DESIGN CHOICE, log entry 68, unsafe.) -/
def State.xbarStep (s : State) (core share : Nat) : State :=
  match (s.cluster (clusterOf core)).xbar.find? fun x => x.core == core && x.share == share with
  | some x => (s.xbarPerform (clusterOf core) x).trySort x.wg
  | none => s

/-- A vector load from an on-chip space (R298): of cluster memory it goes over the crossbar when steps are deferred (R74). -/
def chipLoad (sp : Space) (vdata vaddr sbase size mode : Nat) (s : State) : Out :=
  let sp := if mode = 4 then .slice 0 else sp
  Form.run { mvForm true vdata vaddr sbase size mode with noTx := mode != 4 } s fun h t =>
    if t.exm = 0 then .ok t
    else do
      t.ordered h
      let ls ← t.chipOffsets sp .load vaddr sbase size mode
      waitWhile (t.chipBusy .load sp (2 ^ size) (ls.map fun x => x.2.toNat))
      t.checkChip Kind.load.info (2 ^ size) (ls.map fun x => (x.1, t.laneSpace sp x.1, x.2.toNat))
      let rs := ls.map fun x => (x.1, t.chipRead (t.laneSpace sp x.1) x.2.toNat (2 ^ size))
      let u := t.writeElems vdata size t.exm h.mods.zero rs
      let u := if t.defer && sp == .cluster then
          (u.awaitEntry t.nextId (dataRegs vdata size)).toXbar h true (ls.map fun x => (x.1, x.2.toNat, List.replicate (2 ^ size) 0))
        else u
      .ok (u.bumpPointer vaddr sbase mode)

/-- A vector store to an on-chip space (R298): to cluster memory it goes over the crossbar when steps are deferred (R74). -/
def chipStore (sp : Space) (vdata vaddr sbase size mode : Nat) (s : State) : Out :=
  let sp := if mode = 4 then .slice 0 else sp
  Form.run { mvForm false vdata vaddr sbase size mode with noTx := mode != 4 } s fun h t =>
    if t.exm = 0 then .ok t
    else do
      t.ordered h
      let ls ← t.chipOffsets sp .store vaddr sbase size mode
      waitWhile (t.chipBusy .store sp (2 ^ size) (ls.map fun x => x.2.toNat))
      let data := ls.map fun x => (x.1, x.2, t.g.laneData vdata size x.1)
      let u := if t.defer && sp == .cluster then t.toXbar h false (data.map fun x => (x.1, x.2.1.toNat, x.2.2))
        else data.foldl (fun u x => u.chipWrite (t.laneSpace sp x.1) x.2.1.toNat x.2.2) t
      let u := u.feedHash (data.map fun x => { space := sp.hashCode, addr := x.2.1.toNat, data := x.2.2 })
      .ok (u.bumpPointer vaddr sbase mode)

/-- `vlds` (R298): the core scratchpad, or the lanes' slices in mode 4. -/
def execVlds (vdata vaddr sbase size mode : Nat) (s : State) : Out := chipLoad .scratch vdata vaddr sbase size mode s
/-- `vsts` (R298). -/
def execVsts (vdata vaddr sbase size mode : Nat) (s : State) : Out := chipStore .scratch vdata vaddr sbase size mode s
/-- `vldc` (R298). -/
def execVldc (vdata vaddr sbase size mode : Nat) (s : State) : Out := chipLoad .cluster vdata vaddr sbase size mode s
/-- `vstc` (R298). -/
def execVstc (vdata vaddr sbase size mode : Nat) (s : State) : Out := chipStore .cluster vdata vaddr sbase size mode s
/-- `vldk` (R298). -/
def execVldk (vdata vaddr sbase size mode : Nat) (s : State) : Out := chipLoad .cave vdata vaddr sbase size mode s
/-- `vstk` (R298). -/
def execVstk (vdata vaddr sbase size mode : Nat) (s : State) : Out := chipStore .cave vdata vaddr sbase size mode s

/-! ### Scalar loads and stores (R300, R301) -/

/-- What an SO form reads and writes, and the hints it takes; a `hint.imm` before mode 2 raises IIN. -/
def soForm (load : Bool) (sd sbase size mode off : Nat) (h : Hints) : Form :=
  let data := rs sd :: (if size = 4 then [rs (sd + 1)] else [])
  { srcs := rs sbase :: (if mode = 2 then [rb off] else []) ++ (if load then [] else data)
    dsts := (if load then data else []) ++ (if mode = 0 then [] else [rs sbase])
    ords := if load then [0, 1, 4] else [0, 2, 4], imm := mode != 2, iin := mode == 2 && h.imm.isSome }

/-- The address of an SO form in modes 0 and 1 (Table 16-2). -/
def soAddr (h : Hints) (base : W64) (mode off : Nat) : W64 := if mode = 0 then base + BitVec.ofInt 64 (h.simm 8 off) else base

/-- The pointer of mode 1 written. -/
def State.soPointer (s : State) (h : Hints) (base : W64) (sbase mode off : Nat) : State :=
  if mode = 1 then s.putS true true sbase (base + BitVec.ofInt 64 (h.simm 8 off)) else s

/-- A scalar load's element zero-extended into its registers (R300). -/
def State.writeScalar (s : State) (sd size : Nat) (bs : List Byte) : State :=
  let s := s.putS true true sd (BitVec.ofNat 64 (fromBytes (bs.take 8)))
  if size = 4 then s.putS true true (sd + 1) (BitVec.ofNat 64 (fromBytes (bs.drop 8))) else s

/-- The element that a scalar store writes. -/
def Group.scalarData (g : Group) (sd size : Nat) : List Byte :=
  (toBytes 8 (g.srcS sd).toNat ++ (if size = 4 then toBytes 8 (g.srcS (sd + 1)).toNat else [])).take (2 ^ size)

/-- The lanes of the issuing path in whose logs a scalar access stands (R158). -/
def State.logLanes (s : State) : List Nat := (lanesOf s.exm).filter fun l => s.g.logs l

/-- A scalar load logged in each transactional lane of the path: the value of the lowest that remains, the state, and the lanes whose logs
are full (R158). -/
def State.txScalarLoad (s : State) (p : Placed) (n : Nat) : List Byte × State × W32 :=
  let r := s.logLanes.foldl (fun acc l => match (acc.2.1).txLoad l p n with
    | (some bs, s) => (if acc.1.isEmpty then bs else acc.1, s, acc.2.2)
    | (none, s) => (acc.1, s, acc.2.2 ||| BitVec.ofNat 32 (2 ^ l))) (([] : List Byte), s, (0 : W32))
  if r.1.isEmpty then (((r.2.1).txRead p.pa n).1, r.2.1, r.2.2) else r

/-- `sld` (R300). -/
def execSld (sd sbase size mode off : Nat) (s : State) : Out :=
  Form.run (soForm true sd sbase size mode off s.cur.hints) s fun h t => do
    t.ordered h
    let n := 2 ^ size
    let base := t.g.srcS sbase
    let p ← t.checkPath .load true n (soAddr h base mode off)
    t.checkTxPlaces (fun _ => t.g.txIn t.exm != 0) [p]
    waitWhile (t.globalBusy .load h.strong [p] n)
    let u ← wholePath (t.admitAccess .load n [p] (t.loadLeaves n .full))
    let u := u.fillAll u.who .load [p]
    if t.logLanes.isEmpty then
      let (bs, u) := u.plainLoad p n .full false h.mods.cache
      .ok ((u.writeScalar sd size bs).soPointer h base sbase mode off)
    else do
      let (bs, u, full) := u.txScalarLoad p n
      let u ← t.shed u full
      .ok ((u.writeScalar sd size bs).soPointer h base sbase mode off)

/-- `sst` (R300). -/
def execSst (sd sbase size mode off : Nat) (s : State) : Out :=
  Form.run (soForm false sd sbase size mode off s.cur.hints) s fun h t => do
    t.ordered h
    let n := 2 ^ size
    let base := t.g.srcS sbase
    let bs := t.g.scalarData sd size
    let p ← t.checkPath .store true n (soAddr h base mode off)
    t.checkTxPlaces (fun _ => t.g.txIn t.exm != 0) [p]
    waitWhile (t.globalBusy .store h.strong [p] n)
    let fed : List HashFeed := [{ space := 0, addr := p.va.toNat, data := bs }]
    if t.logLanes.isEmpty then do
      let u ← t.gate (linesOf p.pa n)
      let u := u.fillAll u.who .store [p]
      let u := if u.viaVat p then
          u.sendUnits [{ lane := 0, addr := p.pa, size := n, op := opStore, operand := BitVec.ofNat 128 (fromBytes bs) }]
        else u.plainStore p bs h.mods.cache h.strong
      .ok ((u.feedHash fed).soPointer h base sbase mode off)
    else do
      let u := t.fillAll t.who .store [p]
      let (u, full) := t.logLanes.foldl (fun acc l => match acc.1.txStore l p bs with
        | some u => (u, acc.2)
        | none => (acc.1, acc.2 ||| BitVec.ofNat 32 (2 ^ l))) (u, (0 : W32))
      let u ← t.shed u full
      .ok ((u.feedHash fed).soPointer h base sbase mode off)

/-- The offset of a scalar access to the core scratchpad, checked, and the pointer after it. -/
def State.soOffset (s : State) (h : Hints) (k : Kind) (sbase size mode off : Nat) : Res (W64 × W64) := do
  let base := s.g.srcS sbase
  if mode = 2 then
    let at_ ← modAccess (s.extent .scratch) base (s.g.bm.getD off 0) (2 ^ size) k.info
    .ok (at_ 0, modNext base (s.g.bm.getD off 0))
  else
    let a := soAddr h base mode off
    wholePath (checkOffsets (s.extent .scratch) (2 ^ size) k.info [(0, a)])
    .ok (a, base + BitVec.ofInt 64 (h.simm 8 off))

/-- `slds` (R300): whatever the mask holds, mode 2 included. (DEDUCED, log entry 76, safe.) -/
def execSlds (sd sbase size mode off : Nat) (s : State) : Out :=
  Form.run { soForm true sd sbase size mode off s.cur.hints with noTx := true } s fun h t => do
    t.ordered h
    let (a, next) ← t.soOffset h .load sbase size mode off
    waitWhile (t.chipBusy .load .scratch (2 ^ size) [a.toNat])
    t.checkOwn Kind.load.info a.toNat (2 ^ size)
    let u := t.writeScalar sd size (t.chipRead .scratch a.toNat (2 ^ size))
    .ok (if mode = 0 then u else u.putS true true sbase next)

/-- `ssts` (R300): whatever the mask holds, mode 2 included. (DEDUCED, log entry 76, safe.) -/
def execSsts (sd sbase size mode off : Nat) (s : State) : Out :=
  Form.run { soForm false sd sbase size mode off s.cur.hints with noTx := true } s fun h t => do
    t.ordered h
    let (a, next) ← t.soOffset h .store sbase size mode off
    waitWhile (t.chipBusy .store .scratch (2 ^ size) [a.toNat])
    let bs := t.g.scalarData sd size
    let u := (t.chipWrite .scratch a.toNat bs).feedHash [{ space := 1, addr := a.toNat, data := bs }]
    .ok (if mode = 0 then u else u.putS true true sbase next)

end Sys2Proof.Machine
end

