-- ==== Sys2Proof/Machine/Atomics.lean ====
section
/-!
DEFINITION. Atomics, compare-and-swaps and reductions: majors 0x0E, 0x0F, 0x3C, 0x3D (R302 to R307), and the service groups' queues
(R106 to R108).
-/
namespace Sys2Proof.Machine
open Sys2Proof

/-- Target size in bytes of an operation code (Table 16-3). -/
def atomSize (op : Nat) : Nat := if op = 12 ∨ op = 13 then 8 else if op = 14 then 1 else 4

/-- The operation code of a `vred` (Table 16-4). -/
def redOp (op : Nat) : Nat := if op ≤ 10 then op - 3 else if op ≤ 13 then op - 2 else if op = 14 then 12 else 14

/-- Whether an operation takes PK (R302). -/
def takesPk (op : Nat) : Bool := op == 9 || op == 10 || op == 11

/-- One lane's request with the place it reached. -/
structure PlacedReq where
  place : Placed
  req : AtomReq
  deriving DecidableEq, Repr

/-- Whether the run's `hint.ord` names scope `sys` (R184). -/
def Hints.sysScope (h : Hints) : Bool :=
  match h.ord with
  | some o => o.scope == 5
  | none => false

/-- Whether Table 09-2 lists an operation of a size for the host's home agent; a scalar compare-and-swap of 128 bits has no row. -/
def hostAgentOp (op size : Nat) (scalar : Bool) : Bool := op == 0 || op == 12 || op == 8 || op == 13 || (op == opCas && !(scalar && size == 16))

/-- ATOM_UNSUP by Table 16-5. -/
def State.atomUnsup (s : State) (sys scalar : Bool) (op size : Nat) (p : Placed) : Bool :=
  (op == opCas && size == 16 && pteBit p.leaf.pte 11)
    || (match s.route p.leaf.pte p.pa with
      | .window => size == 1
      | .control => true
      | .remote => op % 32 == 14 || op / 32 != 0
      | .hostDirect => true
      | .hostCached => sys && !hostAgentOp op size scalar
      | _ => false)

/-- Whether an atomic leaves the module and is answered (R188, R184). -/
def State.atomLeaves (s : State) (sys : Bool) (size : Nat) (p : Placed) : Bool :=
  match s.route p.leaf.pte p.pa with
  | .remote => true
  | .hostCached => sys || !s.hostHolds s.g.core (lineOf p.pa) (byteMask (p.pa % 64) size)
  | _ => false

/-- Read-modify-writes of global memory in ascending lane order (R306): the old values by lane. (DESIGN CHOICE, log entry 53, safe.) -/
def State.rmwAll (s : State) (sys : Bool) (xs : List PlacedReq) : List (Nat × Nat) × State :=
  xs.foldl (fun acc x =>
    let (o, s) := acc.2.globalRmw (dieOf s.g.core) x.place.leaf.pte sys x.req
    (acc.1 ++ [(x.req.lane, o)], s.settleOwn s.g.core x.place.pa x.req.size)) ([], s)

/-- The device's copy of a host line written back for the issuing group and dropped, before a request for it is sent to the host (R184). -/
def State.hostLeave (s : State) (p : Placed) : State :=
  if moduleOf p.pa = s.module then s.hostDropFor s.g.ident s.g.launch s.g.core p.va (lineOf p.pa) else s

/-- Atomics without return at one target outside the module (R192, R306): performed at once, or sent as one request, to be performed with its
acknowledgement. -/
def State.postAtomics (s : State) (sys : Bool) (xs : List PlacedReq) : State :=
  match xs with
  | [] => s
  | x :: _ =>
    if s.moduleFailed x.place.pa then s.postFailed Kind.reduction.info x.place.va
    else if !s.defer then xs.foldl (fun s x => (s.globalRmw (dieOf s.g.core) x.place.leaf.pte sys x.req).2) s
    else
      let s := s.hostLeave x.place
      s.sendRequest { s.requestFor x.place (maskOf (xs.map fun x => x.req.lane)) true [] with
        atoms := xs.map fun x => { req := x.req, pte := x.place.leaf.pte, sys := sys } }

/-- Reductions and other atomics without return performed or sent (R110, R306). -/
def State.reduceAll (s : State) (sys : Bool) (xs : List PlacedReq) : State :=
  let vat := xs.filter fun x => s.viaVat x.place
  let direct := xs.filter fun x => !s.viaVat x.place
  let away := direct.filter fun x => s.atomLeaves sys x.req.size x.place
  let s := (direct.filter fun x => !s.atomLeaves sys x.req.size x.place).foldl (fun s x =>
    (s.globalRmw (dieOf s.g.core) x.place.leaf.pte sys x.req).2.settleOwn s.g.core x.place.pa x.req.size) s
  let s := (dedup (away.map fun x => x.place.pa)).foldl (fun s pa => s.postAtomics sys (away.filter fun x => x.place.pa == pa)) s
  s.sendUnits (vat.map fun x => x.req)

/-- What an atomic feeds to the hash (R379): its operand as issued, or the new value of a swap. -/
def feedOf (space : Nat) (addr : W64) (r : AtomReq) : HashFeed :=
  { space := space, addr := addr.toNat, data := toBytes r.size r.operand.toNat }

/-- Global atomics of a set of lanes: checks, then the effect; old values by lane, none for a form without return. A failed request of one with return
may have been performed at its target or not (R192). (DESIGN CHOICE, log entry 53, safe.) -/
def State.globalAtoms (s : State) (h : Hints) (k : Kind) (size op : Nat) (path : Bool) (ls : List (Nat × W64)) (req : Nat → Nat → AtomReq) :
    Res (List (Nat × Nat) × State) := do
  let sys := h.sysScope
  let ps ← (if path then wholePath else id) (s.checkLanes s.who k false size ls)
  (if path then wholePath else id) (trapLanes ps (s.atomUnsup sys path op size) codeAtom k.info)
  waitWhile (s.globalBusy k h.strong ps size)
  let xs := ps.map fun p => { place := p, req := req p.lane p.pa : PlacedReq }
  let fed := xs.map fun x => feedOf 0 x.place.va x.req
  if k = .reduction then do
    (if path then wholePath else id) (s.checkPoison k size (ps.filter fun p => !s.viaVat p && !s.atomLeaves sys size p))
    let u ← s.gate (ps.flatMap fun p => linesOf p.pa size)
    .ok ([], ((u.fillAll u.who k ps).reduceAll sys xs).feedHash fed)
  else
    let rs := s.fabRequests
    if rs.all (fun r => decide (r.status ≠ .pending) && decide (r.status ≠ .unsupported)) && rs.any fun r => decide (r.status = .failed) then
      let done := xs.filter fun x => match rs.find? fun r => r.pa == x.place.pa with
        | some r => decide (r.status = .replied) || (Config.freeWord (s.free + x.req.lane)).getLsbD 0
        | none => false
      .error ((if path then pathTrap else id) (.trapAfter ({ (s.rmwAll sys done).2 with free := s.free + 32 }).dropRequest
        (requestTrap codeFabric k.info false (rs.filter fun r => decide (r.status = .failed)))))
    else do
      let leaving := ps.filter (s.atomLeaves sys size)
      let s := if sys && rs.isEmpty then leaving.foldl (fun s p => s.hostLeave p) s else s
      let u ← (if path then wholePath else id) (s.admitAccess k size ps fun p => leaving.elem p)
      let (olds, u) := (u.fillAll u.who k ps).rmwAll sys xs
      .ok (olds, u.feedHash fed)

/-! ### Service groups (R106 to R108) -/

/-- An entry's requests applied to the scratchpad of a workgroup or the memory of a cluster instance: old values by lane. -/
def State.applyEntry (s : State) (e : SgEntry) : List (Nat × Nat) × State :=
  e.reqs.foldl (fun acc r =>
    let s := acc.2
    if e.space = 1 then
      match s.wgAt e.wg with
      | some w =>
        let o := w.cells.readNat r.addr r.size
        (acc.1 ++ [(r.lane, o)], s.wgWrite e.wg r.addr (toBytes r.size (r.new o)))
      | none => acc
    else
      match s.insts.find? (fun i => some i.key == e.inst) with
      | some i =>
        let o := i.cells.readNat r.addr r.size
        (acc.1 ++ [(r.lane, o)], s.instWrite i.key r.addr (toBytes r.size (r.new o)))
      | none => acc) ([], s)

/-- The return slots of a group filled from an applied entry (R108). -/
def Group.setSlots (g : Group) (olds : List (Nat × Nat)) : Group :=
  { g with retSlots := olds.foldl (fun r o => r.set o.1 (BitVec.ofNat 128 o.2)) g.retSlots }

/-- The same, with the results that wait for them. -/
def Group.fillSlots (g : Group) (id size : Nat) (olds : List (Nat × Nat)) : Group := (g.setSlots olds).fillWaiting id size true olds

/-- The oldest entry of a cluster's queue applied, and its return slots filled (R106, R108). -/
def State.sgStep (s : State) (cluster : Nat) : State :=
  match (s.cluster cluster).sg with
  | [] => s
  | e :: rest =>
    let s := s.updCluster cluster fun c => { c with sg := rest }
    let (olds, s) := s.applyEntry e
    if e.ret then (s.updIdent e.ident (fun g => g.fillSlots e.id ((e.reqs.head?.map fun r => r.size).getD 4) olds)).trySort e.wg else s

/-- On-chip atomics of a set of lanes: applied at once, or queued when steps are deferred. The old values of a form with return are then still to
come, as results in flight that wait for the entry (R108): no value here, and the entry's number. It enters the queue behind the group's accesses on
the crossbar to the same bytes and its loads there (R138, Table 07-5). -/
def State.chipAtoms (s : State) (h : Hints) (space : Nat) (k : Kind) (size : Nat) (ls : List (Nat × W64)) (req : Nat → Nat → AtomReq) :
    Res (List (Nat × Nat) × State) :=
  let e : SgEntry :=
    { ident := s.g.ident, core := s.g.core, space := space, wg := s.g.wg, inst := s.myWg.bind fun w => w.inst
      reqs := ls.map fun x => req x.1 x.2.toNat, id := s.nextId, ret := k != .reduction, acq := h.acquires }
  let fed := ls.map fun x => feedOf (if space = 1 then 1 else 3) x.2 (req x.1 x.2.toNat)
  let cl := clusterOf s.g.core
  let sp : Space := if space = 1 then .scratch else .cluster
  let sound := s.checkChip k.info size (ls.map fun x => (x.1, sp, x.2.toNat))
  if !s.defer then sound.map fun _ =>
    let (olds, s) := s.applyEntry e
    (olds, ({ s with g := if e.ret then s.g.setSlots olds else s.g }).feedHash fed)
  else if 256 ≤ (s.cluster cl).sg.length || s.acqPending || s.loadOpen || s.xbarMeets sp size (ls.map fun x => x.2.toNat) then .error (.wait .memDep)
  else sound.map fun _ => ([], ({ s.updCluster cl fun c => { c with sg := c.sg ++ [e] } with nextId := s.nextId + 1 }).feedHash fed)

/-- The results that an instruction has put in flight in some registers wait for the return slots of the entry that it queued (R108). -/
def State.awaitSlots (s before : State) (space : Nat) (regs : List RegName) : State :=
  if space = 0 ∨ !s.defer then s else s.awaitEntry before.nextId regs

/-- Atomics in the space that a space code names (R64). -/
def State.atoms (s : State) (h : Hints) (space : Nat) (k : Kind) (size op : Nat) (path : Bool) (ls : List (Nat × W64)) (req : Nat → Nat → AtomReq) :
    Res (List (Nat × Nat) × State) := do
  s.ordered h
  if space = 0 then s.globalAtoms h k size op path ls req
  else
    (if path then wholePath else id) (checkOffsets (s.extent (if space = 1 then .scratch else .cluster)) size k.info ls)
    (if path then wholePath else id) (s.chipAtoms h space k size ls req)

/-! ### The vector forms (R303, R304) -/

/-- A lane's operand of `regs` registers from a register on. -/
def Group.operandOf (g : Group) (v regs l : Nat) : BitVec 128 :=
  BitVec.ofNat 128 (fromBytes ((List.range regs).flatMap fun k => toBytes 4 (g.srcLane (v + k) l).toNat))

/-- Registers of an operand of `n` bytes. -/
def regsOf (n : Nat) : Nat := (n + 3) / 4

/-- Old values of `n` bytes written to the registers from one on (R303, R304); a byte replaces only its bits (R239). (DEDUCED, log entry 52, safe.) -/
def State.writeOlds (s : State) (v n : Nat) (olds : List (Nat × Nat)) : State :=
  (List.range (regsOf n)).foldl (fun s k =>
    let was := s.g.readV (v + k)
    s.putV true true (v + k) s.exm false fun l =>
      let x : W32 := BitVec.ofNat 32 (((olds.find? fun o => o.1 == l).map fun o => o.2).getD 0 / 2 ^ (32 * k))
      if n = 1 then (was.getD l 0).extractLsb' 8 24 ++ x.extractLsb' 0 8 else x) s

/-- `vatom` with an operation code, and `vred` (R303, R304): `ret` names the return register. -/
def vectorAtom (vdata vaddr sbase space op : Nat) (red : Bool) (s : State) : Out :=
  let size := atomSize op
  let regs := regsOf size
  let ret := if red then none else s.cur.hints.ext
  let retRegs := match ret with
    | some e => (List.range regs).map fun k => rv (e.reg + k)
    | none => []
  Form.run
    { srcs := rs sbase :: rv vaddr :: (List.range regs).map (fun k => rv (vdata + k)), dsts := retRegs
      keeps := if size = 1 then retRegs else []
      ords := if ret.isSome then [0, 1, 2, 3, 4] else [0, 2, 4], h2 := takesPk op, b2 := takesPk op, ext := if red then [] else [0], extDst := true, noTx := true
      iin := ret.any fun e => e.sel != 0 || (regs == 2 && e.reg % 2 != 0) } s fun h t =>
    if t.exm = 0 then .ok t
    else do
      let ls := t.mvLanes vaddr sbase 0 0
      let code := op + 32 * h.mods.pk
      let req := fun l a => { lane := l, addr := a, size := size, op := code, operand := t.g.operandOf vdata regs l : AtomReq }
      let (olds, u) ← t.atoms h space (if ret.isSome then .atomic else .reduction) size code false ls req
      match ret with
      | some e => .ok ((u.writeOlds e.reg size olds).awaitSlots t space retRegs)
      | none => .ok u

/-- `vatom` (R303). -/
def execVatom (vdata vaddr sbase space op : Nat) (s : State) : Out := vectorAtom vdata vaddr sbase space op false s

/-- `vred` (R304). -/
def execVred (vdata vaddr sbase space op : Nat) (s : State) : Out := vectorAtom vdata vaddr sbase space (redOp op) true s

/-- A vector compare-and-swap of `n` bytes (R304, R306). -/
def vectorCas (vdata vaddr sbase space n : Nat) (s : State) : Out :=
  let regs := regsOf n
  Form.run
    { srcs := rs sbase :: rv vaddr :: (List.range (2 * regs)).map (fun k => rv (vdata + k))
      dsts := (List.range regs).map (fun k => rv (vdata + k)), ords := [0, 1, 2, 3, 4], noTx := true } s fun h t =>
    if t.exm = 0 then .ok t
    else do
      let ls := t.mvLanes vaddr sbase 0 0
      let req := fun l a => { lane := l, addr := a, size := n, op := opCas, operand := t.g.operandOf (vdata + regs) regs l,
                              compare := t.g.operandOf vdata regs l : AtomReq }
      let (olds, u) ← t.atoms h space .atomic n opCas false ls req
      .ok ((u.writeOlds vdata n olds).awaitSlots t space ((List.range regs).map fun k => rv (vdata + k)))

/-- `vcas.w` (R304). -/
def execVcasW (vdata vaddr sbase space : Nat) (s : State) : Out := vectorCas vdata vaddr sbase space 4 s
/-- `vcas.d` (R304). -/
def execVcasD (vdata vaddr sbase space : Nat) (s : State) : Out := vectorCas vdata vaddr sbase space 8 s
/-- `vcas2` (R304). -/
def execVcas2 (vdata vaddr sbase space : Nat) (s : State) : Out := vectorCas vdata vaddr sbase space 16 s

/-! ### The scalar forms (R305) -/

/-- The old value of the one lane of a scalar form. -/
def oldOf (olds : List (Nat × Nat)) : Nat := ((olds.head?).map fun o => o.2).getD 0

/-- `satom` (R305). -/
def execSatom (sd sa sb space op : Nat) (s : State) : Out :=
  let size := atomSize op
  Form.run { srcs := [rs sa, rs sb], dsts := [rs sd], ords := [0, 1, 2, 3, 4], h2 := takesPk op, b2 := takesPk op, noTx := true } s fun h t => do
    let code := op + 32 * h.mods.pk
    let req := fun l a => { lane := l, addr := a, size := size, op := code, operand := BitVec.ofNat 128 (t.g.srcS sb).toNat : AtomReq }
    let (olds, u) ← t.atoms h space .atomic size code true [(0, t.g.srcS sa)] req
    .ok ((u.putS true true sd (BitVec.ofNat 64 (oldOf olds))).awaitSlots t space [rs sd])

/-- A scalar operand of 4, 8 or 16 bytes: a pair for 16. -/
def Group.scalarOperand (g : Group) (n size : Nat) : BitVec 128 :=
  BitVec.ofNat 128 ((g.srcS n).toNat + (if size = 16 then (g.srcS (n + 1)).toNat * 2 ^ 64 else 0))

/-- `scas` (R305). -/
def execScas (sd sa sb space size : Nat) (s : State) : Out :=
  let n := 4 * 2 ^ size
  let pair := fun r => rs r :: (if size = 2 then [rs (r + 1)] else [])
  Form.run { srcs := rs sa :: (pair sb ++ pair sd), dsts := pair sd, ords := [0, 1, 2, 3, 4], noTx := true } s fun h t => do
    let req := fun l a => { lane := l, addr := a, size := n, op := opCas, operand := t.g.scalarOperand sb n, compare := t.g.scalarOperand sd n : AtomReq }
    let (olds, u) ← t.atoms h space .atomic n opCas true [(0, t.g.srcS sa)] req
    let u := u.putS true true sd (BitVec.ofNat 64 (oldOf olds))
    .ok ((if size = 2 then u.putS true true (sd + 1) (BitVec.ofNat 64 (oldOf olds / 2 ^ 64)) else u).awaitSlots t space (pair sd))

end Sys2Proof.Machine
end

