-- ==== Sys2Proof/Machine/Cache.lean ====
section
/-!
DEFINITION. Prefetch, flush, invalidate, fences and the wheel instructions: major 0x3E (R122, R123, R143, R308, R309).
-/
namespace Sys2Proof.Machine
open Sys2Proof

/-- An accessor whose WATCH filters are not consulted (R374). -/
def Who.unwatched (w : Who) : Who := { w with watched := false }

/-- What a prefetch brings in (R308): into the L1 (level 0) or the slice; nothing where a check fails or the place is not cached. A recorded line enters no
L1 (R377). -/
def State.prefetch (s : State) (w : Who) (lvl : Nat) (va : W64) : State :=
  let bring := fun (t : State) (pa : Nat) => if lvl = 0 then (t.loadLine w.core pa 1 .full false 0).2 else t.fill (lineOf pa)
  match s.check w.unwatched .load false 1 va with
  | .fails _ => s
  | .passes f =>
    let pa := f.pa va
    let t := s.fillTlb w.core w.asid w.root .load va f
    match s.route f.pte pa with
    | .plain => bring t pa
    | .hostCached => bring (t.hostFetch (lineOf pa)) pa
    | .uncached => t.fill (lineOf pa)
    | _ => s

/-- Whether steps are deferred and neither TLB answers for an address (R55). -/
def State.walkNeeded (s : State) (w : Who) (va : W64) : Bool :=
  let a := va.toNat % 2 ^ 57
  s.defer && canonical va && (s.tlbHit (firstTlb w.core .load) w.asid a).isNone && (s.tlbHit (.second (dieOf w.core)) w.asid a).isNone

/-- `prf` (R308): the line is brought in, or the request is dropped without effect. Where its page must be walked for, the fetch follows the walk, which
takes an entry of the core's miss queue (R55). -/
def execPrf (sa lvl : Nat) (s : State) : Out :=
  Form.run { srcs := [rs sa] } s fun _ t =>
    let va := t.g.srcS sa
    if t.g.txIn t.exm != 0 then .ok t
    else if t.walkNeeded t.who va then
      match t.queueMisses t.g.core t.g.slot t.g.inB t.g.asid t.g.root .load [va] [va] with
      | none => .error (.wait .memDep)
      | some _ => .ok { t with misses := t.misses ++ [{ core := t.g.core, slot := t.g.slot, inB := t.g.inB, asid := t.g.asid, root := t.g.root, va := va,
                                                        fetch := false, prefetch := some (lvl, t.g.sup) }] }
    else .ok (t.prefetch t.who lvl va)

/-! ### Flush and invalidate -/

/-- The parts of a range that lie in one 64 KiB page each: address and length. -/
def pageParts (va : W64) (len : Nat) : List (W64 × Nat) :=
  let first := 65536 - va.toNat % 65536
  if len = 0 then []
  else if len ≤ first then [(va, len)]
  else (va, first) :: (List.range ((len - first + 65535) / 65536)).map fun k =>
    (va + BitVec.ofNat 64 (first + 65536 * k), min 65536 (len - first - 65536 * k))

/-- A part of a range translated (R309): PAGE_PERM where it fails, none where no entry is valid; else the leaf, the physical and the virtual address and
the length. -/
def State.rangePart (s : State) (x : W64 × Nat) : Res (Option (Leaf × Nat × W64 × Nat)) :=
  let bad : Res (Option (Leaf × Nat × W64 × Nat)) := .error (.trap { code := codePagePerm, addr := x.1 })
  if !canonical x.1 then bad
  else match s.translate s.g.core s.g.asid s.g.root .load x.1 with
    | .absent => .ok none
    | .bad => bad
    | .leaf f => if s.g.sup || pteBit f.pte 5 then .ok (some (f, f.pa x.1, x.1, x.2)) else bad

/-- The walks of a range awaited one page at a time (R55, R309). -/
def State.awaitRange (s : State) (vas : List W64) : Res Unit :=
  if !s.defer then .ok ()
  else match s.missing s.g.core s.g.slot s.g.inB s.g.asid .load vas with
    | [] => .ok ()
    | p :: _ => match s.queueMisses s.g.core s.g.slot s.g.inB s.g.asid s.g.root .load vas [p] with
      | none => .error (.wait .memDep)
      | some t => .error (.pend t .memDep)

/-- The lines of which some copy or record stands in a run of physical bytes. -/
def State.knownLines (s : State) (pa n : Nat) : List Nat :=
  let hit := fun (line : Nat) => decide (line < pa + n) && decide (pa < line + 64)
  dedup ((s.l1.map fun c => c.line).filter hit ++ (s.dir.map fun d => d.line).filter hit ++ (s.hostCopies.map fun h => h.line).filter hit
    ++ (s.l2.filter fun l => !l.remote.isEmpty && hit l.line).map fun l => l.line)

/-- Every L1 copy of a line discarded. -/
def State.discardCopies (s : State) (line : Nat) : State :=
  { s with l1 := s.l1.filter (fun c => c.line != line), dir := s.dir.filter (fun d => d.line != line), msgs := s.msgs.filter fun m => m.line != line }

/-- Dirty bytes of the slice's copy of a host line sent to the host for the issuing group; the copy is kept clean (R183). -/
def State.hostClean (s : State) (va : W64) (line : Nat) : State :=
  match s.hostCopies.find? (fun h => h.line == line) with
  | none => s
  | some h =>
    let s := s.hostBack s.g.ident s.g.launch s.g.core va h
    { s with hostCopies := s.hostCopies.map fun x => if x.line == line then { x with dirty := 0 } else x }

/-- The effect of `fls` or `inv` on one line (Table 16-6); scopes 4 and 5 are `dom` and `sys`. (DESIGN CHOICE, log entry 57, unsafe.) -/
def State.flushLine (s : State) (inv : Bool) (scope : Nat) (pte : W64) (va : W64) (line : Nat) : State :=
  match s.route pte line with
  | .plain | .uncached | .remote =>
    let s := s.recall line true
    if !inv then s
    else
      let s := s.discardCopies line
      if 4 ≤ scope ∧ moduleOf line ≠ s.module then { s with l2 := s.l2.filter fun l => l.line != line } else s
  | .hostCached =>
    let s := s.recall line true
    let s := if scope = 5 then s.hostClean va line else s
    if !inv then s
    else
      let s := s.discardCopies line
      if scope = 5 then { s with hostCopies := s.hostCopies.filter fun h => h.line != line, l2 := s.l2.filter fun l => l.line != line } else s
  | _ => s

/-- `fls` and `inv` over a range (R309). -/
def flushForm (inv : Bool) (sa sb scope : Nat) (s : State) : Out :=
  Form.run { srcs := [rs sa, rs sb], noTx := true } s fun _ t => do
    t.awaitRange (((pageParts (t.g.srcS sa) (field (t.g.srcS sb) 0 32)).map fun x => x.1).filter canonical)
    let parts ← (pageParts (t.g.srcS sa) (field (t.g.srcS sb) 0 32)).mapM t.rangePart
    if t.stores.any fun x => dieOf x.core == dieOf t.g.core then .error (.pend (t.drainDie (dieOf t.g.core)) .memDep)
    waitWhile (!t.performed t.g)
    .ok ((parts.filterMap id).foldl (fun t x => (t.knownLines x.2.1 x.2.2.2).foldl
      (fun t line => t.flushLine inv scope x.1.pte (x.2.2.1 + BitVec.ofNat 64 line - BitVec.ofNat 64 x.2.1) line) t) t)

/-- `fls` (R309). -/
def execFls (sa sb scope : Nat) (s : State) : Out := flushForm false sa sb scope s
/-- `inv` (R309). -/
def execInv (sa sb scope : Nat) (s : State) : Out := flushForm true sa sb scope s

/-! ### Fences (R143) -/

/-- A fence of a path complete: a posted request that failed is reported there (R192), otherwise the path goes on. -/
def State.fenceDone (s : State) (scope : Nat) : Res State := (s.releasesAt scope).map fun _ => s

/-- `fence` (R143): completes when the group's earlier accesses are performed at its scope; on a path whose mask is zero it has no effect. -/
def execFence (scope _order : Nat) (s : State) : Out :=
  Form.run { noTx := true } s fun _ t =>
    if t.exm = 0 then .ok t
    else if !t.defer then t.fenceDone scope
    else if t.g.fenceWait.any (fun f => f.1 == t.g.inB) then .error (.wait .memDep)
    else .error (.pend { t with g := { t.g with fenceWait := t.g.fenceWait ++ [(t.g.inB, scope)] } } .memDep)

/-- A waiting fence completes, if what it waits for has been performed. -/
def State.completeFence (s : State) (core slot : Nat) (inB : Bool) : Out :=
  let s0 := s
  let s := s.focus core slot
  match if s.g.at_ core slot then s.g.fenceWait.find? fun f => f.1 == inB else none with
  | none => .next s0
  | some f =>
    let s := { s with g := { s.g with inB := inB, fenceWait := s.g.fenceWait.filter fun f => f.1 != inB } }
    match s.fenceDone f.2 with
    | .ok t => .next (t.setCur (({} : Form).cover t.g t.clock)).advance
    | .error (.wait _) => .next s0
    | .error (.pend _ _) => .next (s0.drainDie (dieOf core))
    | .error e => s.raise e

/-! ### Wheel instructions (R122, R123) -/

/-- A wheel instruction: the wheel's address checked as a store of one byte, then `check`, what else the form checks of its wheel; on a page
with VAT = 0 it has no further effect. -/
def wheelForm (srcs : List RegName) (sa : Nat) (check : Nat → State → Res Unit) (s : State) (k : Nat → State → Res State) : Out :=
  Form.run { srcs := rs sa :: srcs, noTx := true } s fun _ t => do
    let p ← t.checkPath .store false 1 (BitVec.ofNat 64 ((t.g.srcS sa).toNat / 2048 * 2048))
    check (wheelOf p.pa) t
    if t.stores.any fun x => dieOf x.core == dieOf t.g.core then .error (.pend (t.drainDie (dieOf t.g.core)) .memDep)
    waitWhile (!t.performed t.g)
    let u := t.fillAll t.who .store [p]
    if pteBit p.leaf.pte 7 && moduleOf p.pa == t.module then do
      let u ← u.gate (wheelLines (wheelOf p.pa))
      k (wheelOf p.pa) u
    else .ok u

/-- A wheel whose press has been asked for: done, or the path goes on when it ends (R122). -/
def State.awaitPress (s : State) (wh : Nat) : State :=
  match s.wheelAt wh with
  | some { state := .pressing, .. } => { s with g := { s.g with pressWait := s.g.pressWait ++ [(s.g.inB, wh)] } }
  | _ => s

/-- A wheel brought into a frame from IDLE or RESIDENT-S (R112). -/
def State.toFrame (s : State) (wh : Nat) (cave : Bool) (place off : Nat) : State :=
  let s := (s.frameWrite cave place off (s.mem.readBytes wh 2048)).dropWheelLines wh
  { s with wheels := setWheel { wheel := wh, state := .residentF cave place off, stamp := s.nextId } s.wheels, nextId := s.nextId + 1 }

/-- Whether a frame holds another wheel. -/
def State.frameTaken (s : State) (wh : Nat) (cave : Bool) (place off : Nat) : Bool :=
  s.wheels.any fun w => w.wheel != wh && (decide (w.state = .residentF cave place off) || decide (w.after = some (.residentF cave place off)))

/-- The frame that `wfetch.c` (kind 1) or `wfetch.k` names: whether it is in the Cave, its place and its offset there; SPAD_BOUNDS by R123, also for a
wheel of another module, which no cluster or die of this one owns. -/
def State.frameOf (s : State) (kind wh : Nat) (off : W64) : Res (Bool × Nat × Nat) :=
  let bad : Res (Bool × Nat × Nat) := .error (.trap { code := codeSpad, addr := off, info := Kind.store.info })
  let o := off.toNat
  if o % 2048 ≠ 0 ∨ moduleOf wh ≠ s.module then bad
  else if kind = 1 then
    match s.myWg.bind s.instOf with
    | none => bad
    | some i => if i.size < o + 2048 ∨ i.cluster ≠ owningCluster wh ∨ s.frameTaken wh false i.key o then bad else .ok (false, i.key, o)
  else
    let d := dieOf s.g.core
    match s.caveEntry d s.g.asid with
    | none => bad
    | some e => if e.2 < o + 2048 ∨ d ≠ homeDie wh ∨ s.frameTaken wh true d (e.1 + o) then bad else .ok (true, d, e.1 + o)

/-- `wfetch`, `wfetch.c`, `wfetch.k` (R122, Table 06-2). (DEDUCED, log entry 54, safe.) -/
def execWfetch (sa sb kind : Nat) (s : State) : Out :=
  wheelForm (if kind = 0 then [] else [rs sb]) sa (fun wh t => if kind = 0 then .ok () else do
      let _ ← t.frameOf kind wh (t.g.srcS sb)
      .ok ()) s fun wh t =>
    match t.wheelAt wh with
    | some { state := .pressing, .. } => .error (.wait .memDep)
    | w =>
      if kind = 0 then
        match w with
        | some x => if decide (x.state = .vatted) then (.ok ((t.press x (some .residentS)).awaitPress wh)) else .ok t
        | none => .ok (t.forceResident wh)
      else do
        let (cave, place, off) ← t.frameOf kind wh (t.g.srcS sb)
        match w with
        | some x => match x.state with
          | .vatted => .ok ((t.press x (some (.residentF cave place off))).awaitPress wh)
          | .residentF _ _ _ => .ok t
          | _ => .ok (t.toFrame wh cave place off)
        | none => .ok (t.toFrame wh cave place off)

/-- `wevict` (R122, Table 06-2). (DEDUCED, log entry 54, safe.) -/
def execWevict (sa : Nat) (s : State) : Out :=
  wheelForm [] sa (fun _ _ => .ok ()) s fun wh t =>
    match t.wheelAt wh with
    | none => .ok t
    | some x => match x.state with
      | .pressing => .error (.wait .memDep)
      | .vatted => .ok ((t.press x none).awaitPress wh)
      | .residentS => .ok { t with wheels := t.wheels.filter fun w => w.wheel != wh }
      | .residentF _ _ _ => .ok (t.evictFrame x)

/-- `wpress` (R122, Table 06-2). (DEDUCED, log entry 54, safe.) -/
def execWpress (sa : Nat) (s : State) : Out :=
  wheelForm [] sa (fun _ _ => .ok ()) s fun wh t =>
    match t.wheelAt wh with
    | none => .ok t
    | some x => match x.state with
      | .pressing => .error (.wait .memDep)
      | .vatted => .ok ((t.press x none).awaitPress wh)
      | _ => .ok t

end Sys2Proof.Machine
end

