-- ==== Sys2Proof/Machine/TxInstr.lean ====
section
/-!
DEFINITION. Transactions and ordered speculation (R153 to R173, R314, R315): opening, GroupCommit, ordered batches, `tabt`, irrevocable
attempts, and what happens to waiting lanes between instructions.
-/
namespace Sys2Proof.Machine
open Sys2Proof

/-! ### Regions -/

/-- Transactional lanes of a region instance, and those among them that wait at `tend` or, in an ordered region, at `tabt`. -/
def Group.regionOpen (g : Group) (r : Nat) : W32 := maskBy fun l => g.inTx l && (g.laneTx l).region == r
def Group.regionWaits (g : Group) (r : Nat) : W32 :=
  maskBy fun l => g.inTx l && !g.irrev l && (g.laneTx l).region == r && ((g.laneTx l).atTend || (g.laneTx l).atTabt)

/-- A region is ordered (ORD of any of its lanes). -/
def Group.isOrd (g : Group) (l : Nat) : Bool := (g.txWord l).getLsbD 16

/-- A lane commits (R170): ACT and IRREV cleared, DONE set. It stays at its `tend` until the instance continues. -/
def Group.commitLane (g : Group) (l : Nat) : Group :=
  let x := setField (setField (setField (g.txWord l) 0 1 0) 2 1 0) 17 1 1
  (g.setTxWord l x).updTx l fun t => { t with reads := [], writes := [], retry := false, atTend := true, atTabt := false }

/-- A lane leaves by `tabt` (R165, R170): cause EXPLICIT with its code; ACT, IRREV and DONE cleared. -/
def Group.leaveLane (g : Group) (l code : Nat) : Group :=
  let x := setField (setField (setField (g.txWord l) 0 1 0) 2 1 0) 17 1 0
  (g.setTxWord l (setField (setField x 8 4 causeExplicit) 24 8 code)).updTx l fun t =>
    { t with reads := [], writes := [], retry := false, atTend := false, atTabt := false }

/-- Lanes no longer at a `tend`. -/
def Group.clearEnd (g : Group) (m : W32) : Group := (lanesOf m).foldl (fun g l => g.updTx l fun t => { t with atTend := false }) g

/-- Transactional lanes of a path that have not arrived at the `tend` where it stands. -/
def Group.arriving (g : Group) (m : W32) : W32 := m &&& maskBy fun l => g.inTx l && !(g.laneTx l).retry && !(g.laneTx l).atTend

/-- The region instances that some lanes at a `tend`, or about to be, belong to. -/
def Group.regionsOf (g : Group) (m : W32) : List Nat :=
  dedup ((lanesOf (m &&& maskBy fun l => (g.inTx l && !(g.laneTx l).retry) || (g.laneTx l).atTend)).map fun l => (g.laneTx l).region)

/-- Whether an entry waits at a `tend` for an instance. -/
def SaveEntry.waitsTend (e : SaveEntry) (r : Nat) : Bool := decide (e.state = .waitTend r)

/-- Waiting entries whose instance has no open lane become ready after their `tend` (R161), and free slots are filled. -/
def Group.releaseTends (clock : Nat) (g : Group) : Group :=
  let done := fun (e : SaveEntry) => match e.state with
    | .waitTend r => g.regionOpen r == 0
    | _ => false
  let m := (g.save.filter done).foldl (fun m e => m ||| e.mask) (0 : W32)
  (({ g with save := g.save.map fun e => if done e then { e with state := .ready, pc := e.pc + 4 } else e }).clearEnd m).dropSlab.settle clock

/-- The lanes of a path that wait at its `tend` for an instance put into the waiting entry of that place, which is made where there is none. -/
def Group.waitAtTend (c : Slot) (r : Nat) (m : W32) (g : Group) : Group :=
  let here := fun (e : SaveEntry) => e.waitsTend r && e.pc == c.pc && e.depth == c.depth && e.frame == c.tag
  if g.save.any here then { g with save := g.save.map fun e => if here e then { e with mask := e.mask ||| m } else e }
  else g.push { state := .waitTend r, pc := c.pc, mask := m, depth := c.depth, frame := c.tag, seq := 0 }

/-- The path of a slot that stands at its `tend` with lanes of the instances `rs` goes on after it, stays, or leaves its slot as a waiting
entry (R161); none where no entry is free. Of a path with lanes of several instances, those of each instance that has open lanes elsewhere wait
in an entry of their own, and the others go on. -/
def Group.placeTend (clock : Nat) (inB : Bool) (rs : List Nat) (g : Group) : Option Group :=
  let c := if inB then g.b else g.a
  let put := fun (c : Slot) (g : Group) => if inB then { g with b := c } else { g with a := c }
  let opens := rs.filter fun r => g.regionOpen r != 0
  let here := fun (r : Nat) (e : SaveEntry) => e.waitsTend r && e.pc == c.pc && e.depth == c.depth && e.frame == c.tag
  let goOn := fun (m : W32) (g : Group) =>
    let joins := fun (e : SaveEntry) => rs.any fun r => !opens.elem r && here r e
    let m := (g.save.filter joins).foldl (fun m e => m ||| e.mask) m
    (put { c.goto (c.pc + 4) with exm := m, hints := {}, wait := none } { g with save := g.save.filter fun e => !joins e }).clearEnd m
  let part := fun (r : Nat) => c.exm &&& maskBy fun l => (g.laneTx l).atTend && (g.laneTx l).region == r
  let rest := c.exm &&& ~~~(opens.foldl (fun m r => m ||| part r) (0 : W32))
  if g.arriving c.exm != 0 then some g
  else match opens with
    | [] => some (goOn c.exm g)
    | r :: more =>
      if opens.all (fun r => g.regionOpen r &&& ~~~c.exm == 0) then some (put { c with wait := some .txCommitWait, lastIssue := clock } g)
      else if g.freeEntries < (opens.filter fun r => !g.save.any (here r)).length then none
      else if opens.length < rs.length then
        some ((goOn rest (opens.foldl (fun g r => g.waitAtTend c r (part r)) g)).settle clock)
      else some ((put {} (more.foldl (fun g r => g.waitAtTend c r (part r)) (g.waitAtTend c r (part r ||| rest)))).settle clock)

/-! ### GroupCommit (R161) -/

/-- Whether reads of one lane share a byte with writes of another. -/
def readsOf (j i : LaneTx) : Bool := j.reads.any fun r => i.writes.any fun w => decide (r.pa < w.pa + w.size) && decide (w.pa < r.pa + r.size)

/-- The conflict unit: winners and losers of a batch, in batch order. An ordered batch is cut at its first loser (R168). -/
def Group.conflicts (g : Group) (ordered : Bool) : List Nat → List Nat → List Nat → List Nat × List Nat
  | [], win, bad => (win, bad)
  | j :: rest, win, bad =>
    if win.any fun i => readsOf (g.laneTx j) (g.laneTx i) then
      (if ordered then (win, [j]) else g.conflicts ordered rest win (bad ++ [j]))
    else g.conflicts ordered rest (win ++ [j]) bad

/-- The addresses that a commit of some lanes names: its entries, and in an ordered region the order token. -/
def Group.commitPas (g : Group) (ordered : Bool) (win : List Nat) : List Nat :=
  (win.flatMap fun l => ((g.laneTx l).reads ++ (g.laneTx l).writes).map fun e => e.pa)
    ++ (if ordered then (win.head?.map fun l => (g.laneTx l).token.toNat).toList else [])

/-- The order token's word, as a line that a commit reaches (R124, R168). -/
def LaneTx.tokenEntry (t : LaneTx) : LogEntry := { kind := 2, size := 8, pa := t.token.toNat, data := 0, vat := t.tokenVat }

/-- Home dies of addresses, ascending. -/
def diesOf (pas : List Nat) : List Nat := (List.range 4).filter fun d => pas.any fun pa => homeDie pa == d

/-- Lines that a commit writes. -/
def Group.commitLines (g : Group) (ordered : Bool) (win : List Nat) : List Nat :=
  dedup ((win.flatMap fun l => (g.laneTx l).writes.flatMap fun e => linesOf e.pa e.size)
    ++ (if ordered then (win.head?.map fun l => lineOf (g.laneTx l).token.toNat).toList else []))

/-- A write of a commit at its home slice, or in the frame of its wheel. Its line stays locked until every disturbed sharer has acknowledged
(R103, R161, R174): no core still reads the old value when the commit ends. (DEDUCED, log entry 14, safe.) -/
def State.commitWrite (s : State) (pa : Nat) (bs : List Byte) : State :=
  match s.wheelAt (wheelOf pa) with
  | some { state := .residentF cave place off, .. } => s.frameWrite cave place (off + pa % 2048) bs
  | _ => (linesOf pa bs.length).foldl (fun s line => s.deliverAll line) (s.sliceWrite pa bs)

/-- Lanes of a batch that are valid in order: all that are, or in an ordered batch those before the first that is not. -/
def State.validate (s : State) (ordered : Bool) : List Nat → List Nat × List Nat
  | [] => ([], [])
  | j :: rest =>
    if s.laneValid (s.g.laneTx j) then
      let (ok, bad) := s.validate ordered rest
      (j :: ok, bad)
    else if ordered then ([], [j])
    else
      let (ok, bad) := s.validate ordered rest
      (ok, j :: bad)

/-- A lane of a batch ends: a lane at `tabt` leaves, any other commits. -/
def Group.endLane (g : Group) (l : Nat) : Group :=
  if (g.laneTx l).atTabt then g.leaveLane l (field (g.txWord l) 24 8) else g.commitLane l

/-- The locked part of GroupCommit: validation, the writes in lane and log order, the token of an ordered region advanced past the last
committed iteration (R168), and every lane of the batch committed or aborted. Answers the lanes that aborted. -/
def State.commitBatch (s : State) (ordered : Bool) (batch : List Nat) : W32 × State :=
  let (win, lost) := s.g.conflicts ordered batch [] []
  let s := win.foldl (fun s l => s.prepareLane (s.g.laneTx l)) s
  let s := if ordered then (win.head?.map fun l => s.prepareLine (s.g.laneTx l).tokenEntry).getD s else s
  let (ok, bad) := s.validate ordered win
  let s := ok.foldl (fun s l => (s.g.laneTx l).writes.foldl (fun s e => s.commitWrite e.pa (toBytes e.size e.data.toNat)) s) s
  let s := match ordered, ok.reverse with
    | true, l :: _ => s.commitWrite (s.g.laneTx l).token.toNat (toBytes 8 ((s.g.laneTx l).iter + 1).toNat)
    | _, _ => s
  let lost := if ordered && !bad.isEmpty then [] else lost
  let g := ok.foldl Group.endLane s.g
  let g := bad.foldl (fun g l => g.abortLane causeValidate 0 l) g
  let g := lost.foldl (fun g l => g.abortLane causeConflict 0 l) g
  (maskOf (bad ++ lost), { s with g := g })

/-- The slots of a group whose paths stand at the `tend` of some of the given instances, with the instances of each. -/
def Group.tendSlots (g : Group) (rs : List Nat) : List (Bool × List Nat) :=
  [(false, g.a), (true, g.b)].filterMap fun x =>
    let mine := dedup ((lanesOf (x.2.exm &&& maskBy fun l => (g.laneTx l).atTend)).map fun l => (g.laneTx l).region)
    if x.2.live && mine.any rs.elem then some (x.1, mine) else none

/-- Lanes whose aborts could not form a path restart when their group resumes (R164). -/
def Group.restartLater (g : Group) (m : W32) : Group := (lanesOf m).foldl (fun g l => g.updTx l fun t => { t with restarts := true }) g

/-- Paths in slots at their `tend` placed (R161); DIVSTACK_OVF where one must wait and no entry is free (R164). -/
def State.placeSlots (s : State) (slots : List (Bool × List Nat)) : Res State :=
  match slots.foldl (fun (o : Option Group) x => o.bind fun g => g.placeTend s.clock x.1 x.2) (some s.g) with
  | none => .error (.trapAfter s { code := codeDivstack })
  | some g => .ok { s with g := g.releaseTends s.clock }

/-- A GroupCommit of a batch, and what follows: aborted lanes back off, and paths at the `tend` of its instances go on or wait, but for that of a
slot whose own `tend` is issuing (`but`), which sees to itself. The path of slot `inB` stands for the group where DIVSTACK_OVF must be raised
(R164). -/
def State.groupCommit (s : State) (ordered : Bool) (batch : List Nat) (but : Option Bool) : Res State :=
  let slots := (s.g.tendSlots (dedup (batch.map fun l => (s.g.laneTx l).region))).filter fun x => some x.1 != but
  let (bad, s) := s.commitBatch ordered batch
  match s.backOff bad with
  | none => .error (.trapAfter { s with g := s.g.restartLater bad } { code := codeDivstack })
  | some s => s.placeSlots slots

/-- Whether a commit that holds no token may begin now (R166 step 2): the tokens of its dies and the fallback token are free. -/
def State.tokensFree (s : State) (dies : List Nat) : Bool := s.fallback.isNone && dies.all fun d => (s.die d).token.isNone

/-- Lines that a commit of the issuing group writes brought to the recorded lines (R173, R377, R378). -/
def State.gateCommit (s : State) (ordered : Bool) (batch : List Nat) : Res State :=
  s.gate (s.g.commitLines ordered ((s.g.conflicts ordered batch [] []).1))

/-! ### Ordered batches (R168) -/

/-- The value of an order token (R167), pending entries of its wheel applied. -/
def State.tokenAt (s : State) (pa : W64) : W64 := BitVec.ofNat 64 (fromBytes (s.mergedRead pa.toNat 8))

/-- The longest run of waiting lanes whose iterations follow from the token: `n` bounds it. -/
def Group.runFrom (g : Group) (waits : List Nat) : Nat → W64 → List Nat
  | 0, _ => []
  | n + 1, it => match waits.find? fun l => (g.laneTx l).iter == it with
    | none => []
    | some l => l :: g.runFrom waits n (it + 1)

/-- The group's lanes that wait at `tend` or `tabt` for their turn on an order token (R168). -/
def Group.tokenWaits (g : Group) (tok : W64) : W32 :=
  maskBy fun l => g.inTx l && !g.irrev l && g.isOrd l && (g.laneTx l).token == tok && ((g.laneTx l).atTend || (g.laneTx l).atTabt)

/-- The batch that can commit now on an order token (R168 step 1). -/
def State.orderedBatch (s : State) (tok : W64) : List Nat := s.g.runFrom (lanesOf (s.g.tokenWaits tok)) 32 (s.tokenAt tok)

/-- An ordered batch committed, if there is one and its tokens are free; the state as it was otherwise. -/
def State.orderedCommit (s : State) (tok : W64) (but : Option Bool) : Res State :=
  match s.orderedBatch tok with
  | [] => .ok s
  | batch =>
    if !s.tokensFree (diesOf (s.g.commitPas true batch)) then .ok s
    else do
      let s ← s.gateCommit true batch
      s.groupCommit true batch but

/-- The order tokens of some lanes. -/
def Group.tokensOf (g : Group) (m : W32) : List W64 := dedup ((lanesOf (m &&& maskBy g.isOrd)).map fun l => (g.laneTx l).token)

/-- Ordered batches on several tokens. -/
def State.orderedCommits (s : State) (toks : List W64) (but : Option Bool) : Res State := toks.foldlM (fun s tok => s.orderedCommit tok but) s

/-! ### Opening (R153 to R156, R166, R170, R315) -/

/-- Groups of the core that hold a log slab (R156). -/
def State.slabsOn (s : State) (core : Nat) : Nat := (s.allGroups.filter fun g => g.core == core && g.slab).length

/-- Whether a retried lane's attempt is irrevocable (R166). -/
def Group.escalates (g : Group) (l : Nat) : Bool :=
  decide ((g.laneTx l).thresh ≤ txAborts (g.txWord l)) || txCause (g.txWord l) == causeLogfull

/-- What a `tbeg` or `tord` opens: validation by version, threshold, abort address, and for `tord` the base and the token's place. -/
structure Opening where
  ts : Bool
  n : Nat
  abortTo : Option W64
  order : Option (W64 × W64)
  vat : Bool := false
  deriving DecidableEq, Repr

/-- Lanes that open a new region instance (R170). -/
def State.openFresh (s : State) (o : Opening) (m : W32) : State :=
  let c := s.cur
  let r := s.g.regionNext
  let g := (lanesOf m).foldl (fun g l =>
    let rank := popNat s.exm.toNat l
    let x : W32 := BitVec.ofNat 32 (1 + (if o.ts then 2 else 0) + (match o.order with
      | some _ => 2 ^ 16 + rank % 32 * 8
      | none => 0))
    (g.setTxWord l x).updTx l fun _ =>
      { region := r, restart := c.runPc, abortTo := o.abortTo, iter := ((o.order.map fun x => x.1).getD 0) + BitVec.ofNat 64 rank
        token := (o.order.map fun x => x.2).getD 0, tokenVat := o.vat, thresh := o.n, depth := c.depth, tag := c.tag, since := s.clock }) s.g
  { s with g := { g with regionNext := r + 1, slab := true } }

/-- Lanes that begin another attempt (R154, R170): they find their operands anew and keep their iteration and their record.
(DEDUCED, log entry 44, unsafe.) -/
def State.reopen (s : State) (o : Opening) (irr : Bool) (m : W32) : State :=
  let token := o.order.map fun x => x.2
  { s with g := (lanesOf m).foldl (fun g l =>
      (g.setTxWord l (setField (g.txWord l) 2 1 (if irr then 1 else 0))).updTx l fun t =>
        { t with abortTo := o.abortTo, token := token.getD t.token, tokenVat := if token.isSome then o.vat else t.tokenVat, reads := [], writes := [], retry := false, since := s.clock }) s.g }

/-- Some lanes of the path go on after the instruction, and the rest stay at its run as a path of their own (R203). -/
def State.forkHere (s : State) (go rest : W32) : Res State :=
  let c := s.cur
  if rest = 0 then .ok s.advance
  else s.split [{ pc := c.pc + 4, mask := go, depth := c.depth, tag := c.tag },
                { pc := c.runPc, mask := rest, depth := c.depth, tag := c.tag }]

/-- Whether some commit of the module holds a die's token. -/
def State.commitsHold (s : State) : Bool := s.allGroups.any fun g => g.commits.any fun k => !k.held.isEmpty

/-- Whose turn the fallback token is (R166 step 1): of the group that has waited longest, the lowest lane that waits.
(DESIGN CHOICE, log entry 89, unsafe.) -/
def State.nextFallback (s : State) : Option (Nat × Nat × Nat) :=
  s.fallbackWait.head?.map fun f =>
    (s.fallbackWait.filter fun x => x.1 == f.1 && x.2.1 == f.2.1).foldl (fun b x => if x.2.2 < b.2.2 then x else b) f

/-- The lowest lane of those that must run irrevocably begins, or waits for its turn, for the fallback token and for the commits that hold
tokens (R166 steps 1 to 3). The token is granted at once when nothing is deferred. -/
def State.beginIrrevocable (s : State) (o : Opening) (m : W32) : Res State :=
  let l := lowestLane m
  let me := (s.g.core, s.g.slot, l)
  let t := s.g.laneTx l
  if s.fallback = some me then
    if s.commitsHold then .error (.wait .txCommitWait)
    else match s.releases with
      | .error e => .error e
      | .ok _ => (s.reopen o true (BitVec.ofNat 32 (2 ^ l))).forkHere (BitVec.ofNat 32 (2 ^ l)) (s.exm &&& ~~~(BitVec.ofNat 32 (2 ^ l)))
  else if s.g.isOrd l && s.tokenAt t.token != t.iter then .error (.wait .txCommitWait)
  else
    let s := if s.fallbackWait.elem me then s else { s with fallbackWait := s.fallbackWait ++ [me] }
    if !s.defer && s.fallback.isNone && s.nextFallback == some me && !s.commitsHold then
      match s.releases with
      | .error e => .error e
      | .ok _ =>
        ({ s with fallback := some me, fallbackWait := s.fallbackWait.filter (· != me) }.reopen o true (BitVec.ofNat 32 (2 ^ l))).forkHere
          (BitVec.ofNat 32 (2 ^ l)) (s.exm &&& ~~~(BitVec.ofNat 32 (2 ^ l)))
    else .error (.pend s .txCommitWait)

/-- `tbeg` and `tord` once their operands are known: TX_ILLEGAL for a lane that is transactional already (R153). -/
def State.openTx (s : State) (o : Opening) : Res State :=
  let g := s.g
  let act := g.txIn s.exm
  let retry := act &&& maskBy fun l => (g.laneTx l).retry
  let fresh := s.exm &&& ~~~act
  let irr := retry &&& maskBy g.escalates
  let go := s.exm &&& ~~~irr
  if go != 0 && !g.slab && decide (16 ≤ s.slabsOn g.core) then .error (.wait .txCommitWait)
  else if go = 0 then s.beginIrrevocable o irr
  else
    let s := if fresh = 0 then s else s.openFresh o fresh
    let s := { s.reopen o false (retry &&& ~~~irr) with g := { (s.reopen o false (retry &&& ~~~irr)).g with slab := true } }
    s.forkHere go irr

/-- Lanes of the path that are transactional and do not begin again. -/
def State.insideTx (s : State) : Bool := s.g.txIn s.exm &&& ~~~(maskBy fun l => (s.g.laneTx l).retry) != 0

/-- An unordered opening (R155, R315): a nonzero abort address shall be a multiple of 4. -/
def openUnordered (ts : Bool) (sa n : Nat) (s : State) : Out :=
  Form.control { srcs := [rs sa] } s fun _ t =>
    if t.exm = 0 then .ok t.advance
    else if t.insideTx then trapNow codeTx
    else
      let a := t.g.srcS sa
      if sa ≠ 0 ∧ a.toNat % 4 ≠ 0 then .error (.trap { code := codeMisalign, addr := a })
      else t.openTx { ts := ts, n := n, abortTo := if sa = 0 then none else some a, order := none }

/-- `tbeg.val` (R155). (DEDUCED, log entry 44, unsafe.) -/
def execTbegVal (sa n : Nat) (s : State) : Out := openUnordered false sa n s

/-- `tbeg.ts` (R155). -/
def execTbegTs (sa n : Nat) (s : State) : Out := openUnordered true sa n s

/-- `tord` (R155, R167, R315): the token's address is checked as an atomic with return, and shall lie in local HBM. (DEDUCED, log entry 44, unsafe.) -/
def execTord (sa sb n : Nat) (s : State) : Out :=
  Form.control { srcs := [rs sa, rs sb] } s fun _ t =>
    if t.exm = 0 then .ok t.advance
    else if t.insideTx then trapNow codeTx
    else do
      let p ← t.checkPath .atomic false 8 (t.g.srcS sb)
      trapIf (t.txForbidden p) codeTx
      (t.fillAll t.who .atomic [p]).openTx
        { ts := true, n := n, abortTo := none, order := some (t.g.srcS sa, BitVec.ofNat 64 p.pa), vat := pteBit p.leaf.pte 7 }

/-! ### tend (R161, R166, R168) -/

/-- An irrevocable attempt ends (R166 steps 4 and 5): as `fence.sc.dev`, then the order token advances, then the fallback token is free. -/
def State.endIrrevocable (s : State) (l : Nat) : Res State :=
  match s.releases with
  | .error e => .error e
  | .ok _ =>
    let t := s.g.laneTx l
    let s := if s.g.isOrd l then (s.prepareLine t.tokenEntry).commitWrite t.token.toNat (toBytes 8 (t.iter + 1).toNat) else s
    .ok (if s.fallback = some (s.g.core, s.g.slot, l) then { s with fallback := none } else s)

/-- Lanes of an instance that arrive at `tend` commit: at once, or by a GroupCommit that its events carry on when steps are deferred. A commit that
waits at a gate or for a token leaves them as they were. -/
def State.arriveTend (s : State) (r : Nat) (m : W32) : Res State :=
  let batch := lanesOf m
  let mark := fun (s : State) => { s with g := (lanesOf m).foldl (fun g l => g.updTx l fun t => { t with atTend := true }) s.g }
  if s.g.isOrd (lowestLane m) then
    if s.defer then .ok (mark s) else (mark s).orderedCommits (s.g.tokensOf m) (some s.g.inB)
  else
    let dies := diesOf (s.g.commitPas false ((s.g.conflicts false batch [] []).1))
    if s.defer then
      let k : Commit := { lanes := m, region := r, ordered := false, need := dies, held := [] }
      .ok (mark { s with g := { s.g with commits := s.g.commits ++ [k] } })
    else if !s.tokensFree dies then .error (.wait .txCommitWait)
    else do
      let s ← s.gateCommit false batch
      (mark s).groupCommit false batch (some s.g.inB)

/-- The region instances of a path at `tend` taken one after another, lowest lane first: an irrevocable attempt ends, other lanes commit. At last
the path goes on or waits (R161); `n` bounds how many there are. -/
def State.tendAll (rs : List Nat) : Nat → State → Res State
  | 0, s => s.placeSlots [(s.g.inB, rs)]
  | n + 1, s =>
    let todo := s.g.arriving s.exm
    let irr := todo &&& maskBy s.g.irrev
    if todo = 0 then s.placeSlots [(s.g.inB, rs)]
    else if irr != 0 then do
      let s ← s.endIrrevocable (lowestLane irr)
      ({ s with g := s.g.commitLane (lowestLane irr) }).tendAll rs n
    else if !s.performed s.g then .error (.wait .txCommitWait)
    else do
      let r := (s.g.laneTx (lowestLane todo)).region
      let s ← s.arriveTend r (todo &&& maskBy fun l => (s.g.laneTx l).region == r)
      s.tendAll rs n

/-- `tend` (R155, R161, R166): earlier accesses of the group are performed first (R174). Lanes that arrived before look for their turn again. -/
def execTend (s : State) : Out :=
  Form.control {} s fun _ t =>
    let rs := t.g.regionsOf t.exm
    if rs.isEmpty then .ok t.advance
    else do
      let old := t.exm &&& maskBy fun l => t.g.inTx l && (t.g.laneTx l).atTend
      let t ← if t.defer then .ok t else t.orderedCommits (t.g.tokensOf old) (some t.g.inB)
      t.tendAll rs 33

/-! ### tabt and tstat (R165, R155) -/

/-- Lanes leave their regions, each for its abort address or the next word, and lanes of the path that are not transactional go on; the lanes
of `stay` remain at the `tabt`. -/
def State.leaveTx (s : State) (m stay : W32) (code : Nat) : Res State :=
  let c := s.cur
  let dest := fun l => if laneOn stay l then c.runPc else if laneOn m l then ((s.g.laneTx l).abortTo).getD (c.pc + 4) else c.pc + 4
  let left := { s with g := (lanesOf m).foldl (fun g l => g.leaveLane l code) s.g }
  let done := fun (s : State) => { s with g := s.g.releaseTends s.clock }
  match dedup ((lanesOf c.exm).map dest) with
  | [one] => .ok (done (left.jump one))
  | targets => (left.split (targets.map fun a =>
      { pc := a, mask := maskOf ((lanesOf c.exm).filter fun l => dest l == a), depth := c.depth, tag := c.tag })).map done

/-- `tabt` (R165, R166 step 5). In an ordered region the lanes wait for their turn, and leave as their batch goes by; lanes of the path that leave
at once, an irrevocable one among them, do not wait for those. -/
def execTabt (code : Nat) (s : State) : Out :=
  Form.control {} s fun _ t =>
    let g := t.g
    let m := t.exm &&& maskBy fun l => g.inTx l && !(g.laneTx l).retry
    let irr := m &&& maskBy g.irrev
    let mine : W32 := if irr = 0 then 0 else BitVec.ofNat 32 (2 ^ lowestLane irr)
    let out := mine ||| (m &&& ~~~irr &&& ~~~(maskBy g.isOrd))
    if m = 0 then .ok t.advance
    else if out != 0 then do
      let t ← if irr = 0 then .ok t else t.endIrrevocable (lowestLane irr)
      t.leaveTx out (m &&& ~~~out) code
    else
      let t := { t with g := (lanesOf m).foldl (fun g l => (g.setTxWord l (setField (setField (g.txWord l) 8 4 causeExplicit) 24 8 code)).updTx l
                    fun x => { x with reads := [], writes := [], atTabt := true }) g }
      if t.defer then .error (.pend t .txCommitWait)
      else do
        let t ← t.orderedCommits (t.g.tokensOf m) none
        if t.g.txIn m = 0 then .ok t.advance else .error (.pend t .txCommitWait)

/-- `tstat` (R155): lanes with ACT, with DONE, that left by `tabt`, or with IRREV. -/
def execTstat (sa sel : Nat) (s : State) : Out :=
  Form.pure_ { dsts := [rs sa] } s fun _ t =>
    t.putS true true sa (BitVec.ofNat 64 (maskBy fun l =>
      let x := t.g.txWord l
      match sel with
      | 0 => x.getLsbD 0
      | 1 => x.getLsbD 17
      | 2 => !x.getLsbD 0 && txCause x == causeExplicit
      | _ => x.getLsbD 2).toNat)

/-! ### Between instructions -/

/-- A group changed by a step that may end in a trap of the path in one of its slots. -/
def State.onGroup (s : State) (core slot : Nat) (inB : Bool) (k : State → Res State) : Out :=
  if (s.groupAt core slot).isNone then .next s
  else
    let t := s.focus core slot
    let t := { t with g := { t.g with inB := inB } }
    match k t with
    | .ok u => .next u
    | .error (.pend u _) => .next u
    | .error (.wait _) => .next s
    | .error e => t.raise e

/-- The slot whose path a lane is in, A where it is in neither. -/
def Group.slotOf (g : Group) (l : Nat) : Bool := g.b.live && laneOn g.b.exm l

/-- The log store grants a slab to a group that waits for one (R156). -/
def State.grantSlab (s : State) (core slot : Nat) : State :=
  if s.slabsOn core < 16 then
    s.updGroup core slot fun g =>
      if g.slab || !(g.a.wait == some .txCommitWait || g.b.wait == some .txCommitWait) then g else { g with slab := true }
  else s

/-- A die's commit token granted to the GroupCommit of a group that asks for it next (R161, R166 step 2). (DEDUCED, log entry 44, unsafe.) -/
def State.grantToken (s : State) (die core slot : Nat) : State :=
  match s.groupAt core slot with
  | none => s
  | some g =>
    let next := fun (k : Commit) => k.need.head? == some die && (s.fallback.isNone || !k.held.isEmpty)
    if (s.die die).token.isSome || !(g.commits.any next) then s
    else
      let s := s.updDie die fun d => { d with token := some (core, slot) }
      s.updGroup core slot fun g =>
        { g with commits := modifyFirst next (fun k => { k with need := k.need.tail, held := k.held ++ [die] }) g.commits }

/-- A GroupCommit that holds its tokens done (R161). -/
def State.completeCommit (s : State) (core slot region : Nat) : Out :=
  match s.groupAt core slot with
  | none => .next s
  | some g => match g.commits.find? fun k => k.region == region && k.need.isEmpty with
    | none => .next s
    | some k =>
      s.onGroup core slot (g.slotOf (lowestLane k.lanes)) fun t => do
        let t ← t.gateCommit k.ordered (lanesOf k.lanes)
        let t := k.held.foldl (fun t d => t.updDie d fun x => { x with token := none }) t
        ({ t with g := { t.g with commits := removeFirst (fun x => decide (x = k)) t.g.commits } }).groupCommit k.ordered (lanesOf k.lanes) none

/-- An ordered batch whose turn has come (R168), named by an instance of which a lane waits. -/
def State.turnCome (s : State) (core slot region : Nat) : Out :=
  match s.groupAt core slot with
  | none => .next s
  | some g =>
    let m := g.regionWaits region
    s.onGroup core slot (g.slotOf (lowestLane m)) fun t => t.orderedCommits (g.tokensOf m) none

/-- A parked entry whose count has reached 0 becomes ready (R206, R164). -/
def State.entryTimeout (s : State) (core slot seq : Nat) (of : SaveEntry → Bool) : State :=
  s.updGroup core slot fun g =>
    let hit := fun (e : SaveEntry) => e.seq == seq && of e && decide (e.deadline ≤ s.clock)
    if g.save.any hit then Group.refill s.clock { g with save := g.save.map fun e => if hit e then e.readied else e } else g

/-- Whether an entry is in back-off, and whether it is parked in `mwait`. -/
def SaveEntry.backing (e : SaveEntry) : Bool := decide (e.state = .parked .backoff)
def SaveEntry.monitoring (e : SaveEntry) : Bool := decide (e.state = .parked .mwait)

/-- The lanes of the path that holds a lane, in a slot or as an entry. -/
def Group.pathOf (g : Group) (l : Nat) : W32 :=
  if g.a.live && laneOn g.a.exm l then g.a.exm
  else if g.b.live && laneOn g.b.exm l then g.b.exm
  else match g.save.find? fun e => laneOn e.mask l with
    | some e => e.mask
    | none => BitVec.ofNat 32 (2 ^ l)

/-- The periodic validation at a boundary of a lane's path, of every lane of that path whose validation is due (R172, R164): those that fail leave
it together with VALIDATE. -/
def State.validateLane (s : State) (core slot lane : Nat) : Out :=
  match s.groupAt core slot with
  | none => .next s
  | some g =>
    let due := g.pathOf lane &&& g.openLanes &&& maskBy fun l => decide ((g.laneTx l).since + 65536 ≤ s.clock)
    if !laneOn due lane then .next s
    else s.onGroup core slot (g.slotOf lane) fun t =>
      let t := (lanesOf due).foldl (fun t l => t.prepareLane (t.g.laneTx l)) t
      let bad := maskBy fun l => laneOn due l && !t.laneValid (t.g.laneTx l)
      let slots := t.g.tendSlots (dedup ((lanesOf bad).map fun l => (t.g.laneTx l).region))
      let g1 := (lanesOf (due &&& ~~~bad)).foldl (fun g l => g.updTx l fun x => { x with since := t.clock }) t.g
      let g2 := (lanesOf bad).foldl (fun g l => g.abortLane causeValidate 0 l) g1
      let t := { t with g := { g2 with commits := g2.commits.map fun (k : Commit) => { k with lanes := k.lanes &&& ~~~bad } } }
      match t.backOff bad with
      | none => .error (.trapAfter { t with g := t.g.restartLater bad } { code := codeDivstack })
      | some t => t.placeSlots slots

/-- The module's fallback token granted to the lane whose turn it is (R166). -/
def State.grantFallback (s : State) (core slot lane : Nat) : State :=
  if s.fallback.isNone && s.nextFallback == some (core, slot, lane) then
    { s with fallback := some (core, slot, lane), fallbackWait := s.fallbackWait.filter (· != (core, slot, lane)) }
  else s

end Sys2Proof.Machine
end

