-- ==== Sys2Proof/Machine/Engine.lean ====
section
/-!
DEFINITION. Job cards and their engine, guards, collectives, `rebal` and `resort` (R331 to R344, R354, R60, R221 to R223, R364).
-/
namespace Sys2Proof.Machine
open Sys2Proof

/-! ### Footprints and acceptance (R221, R222, R331 to R335) -/

/-- The extent of the space of a footprint code for the issuing group; global memory has none here. -/
def State.spaceExtent (s : State) (code : Nat) : Nat :=
  if code = 1 then s.extent .scratch else if code = 2 then s.extent .cluster else s.extent .cave

/-- SPAD_BOUNDS for the whole path at an offset. -/
def spadAt {α : Type} (off : W64) : Res α := .error (.trap { code := codeSpad, addr := off })

/-- A block of the core scratchpad that a description names: MISALIGN, then SPAD_BOUNDS. -/
def State.checkBlock (s : State) (align size : Nat) (off : W64) : Res Unit :=
  if off.toNat % align ≠ 0 then .error (.trap { code := codeMisalign, addr := off })
  else if s.extent .scratch < off.toNat + size then spadAt off
  else .ok ()

/-- An on-chip footprint checked at acceptance (R221); a global one is not. -/
def State.checkFoot (s : State) (f : Footprint) : Res Unit :=
  if f.space = 0 ∨ f.extent = 0 ∨ f.base + f.extent ≤ s.spaceExtent f.space then .ok () else spadAt (BitVec.ofNat 64 f.base)

/-- The footprints that a job's words give (R332). -/
def derivedFoot (c : Card) : List Footprint :=
  let n := c.len
  let f := fun (space : Nat) (base : W64) (extent : Nat) (write : Bool) =>
    ({ space := space, base := base.toNat, extent := extent, write := write } : Footprint)
  let index := f 1 (BitVec.ofNat 64 c.idxOff) (4 * c.rows) false
  match c.op with
  | 1 => [index, f c.ssp c.src (c.trows * n) false, f c.dsp c.dst (c.rows * n) true]
  | 2 => [index, f c.ssp c.src (c.rows * n) false, f c.dsp c.dst (c.trows * n) true]
  | _ => [f c.ssp c.src n false, f c.dsp c.dst n true]

/-- Whether the words of a job break R331. -/
def Card.badWords (c : Card) : Bool :=
  if c.byRows then c.len % 4 != 0 || decide (c.len < 4) || decide (65532 < c.len) else c.idx != 0

/-- Whether two footprints share a byte as it lies on the chip (R222): `c` and `d` are their cards, on one core. -/
def State.overlap (s : State) (c d : Card) (f g : Footprint) : Bool :=
  let inst := fun (x : Card) => (s.wgAt x.wg).bind fun w => w.inst
  f.space == g.space && f.extent != 0 && g.extent != 0 && decide (f.base < g.base + g.extent) && decide (g.base < f.base + f.extent)
    && (match f.space with
      | 1 => c.wg == d.wg
      | 2 => inst c == inst d
      | _ => c.asid == d.asid)

/-- Whether a new card has an edge from a held one (Table 11-4). -/
def State.edge (s : State) (new old : Card) : Bool :=
  new.foot.any fun f => old.foot.any fun g => (f.write || g.write) && s.overlap new old f g

/-- The lowest card slot that no held card takes (R334). -/
def freeCardSlot (cards : List Card) : Nat := ((List.range 64).find? fun k => !(cards.any fun c => c.cslot == k)).getD 0

/-- A blank card of the issuing group. -/
def State.blankCard (s : State) (kind : CardKind) (stat : Nat) : Card :=
  { seq := 0, cslot := 0, kind := kind, wg := s.g.wg, gidx := s.g.gidx, launch := s.g.launch, asid := s.g.asid, root := s.g.root,
    sup := s.g.sup, stat := stat, slot := s.g.slot, inB := s.g.inB, pc := s.cur.runPc, mask := s.exm }

/-- A guard binding checked (Table 11-5): GUARD_STATE where the slot is FREE or another workgroup's. -/
def State.checkBinding (s : State) (guard : Option Nat) : Res Unit :=
  match guard with
  | none => .ok ()
  | some k =>
    let e := (s.core s.g.core).guards.getD k {}
    if e.state = .free ∨ e.wg ≠ s.g.wg then .error (.trap { code := codeGuard, addr := BitVec.ofNat 64 k }) else .ok ()

/-- A card whose own checks have passed: the guard, then room, then acceptance with its edges, and its handle (R335 steps 5 and 6, R222, R334).
It is a release at scope `wg` towards the job (R144). -/
def State.acceptCard (s : State) (c : Card) (guard : Option Nat) (sa : Nat) : Res State := do
  s.checkBinding guard
  s.releasesAt 1
  let k := s.core s.g.core
  if 64 ≤ k.cards.length then .error (.wait .engineWait)
  else
    let c := { c with seq := k.cardNext, cslot := freeCardSlot k.cards, guard := guard
                      edges := (k.cards.filter fun d => s.edge c d).map fun d => d.seq }
    let s := s.updCore s.g.core fun k =>
      enqueueReady { k with cards := k.cards ++ [c], cardNext := if k.cardNext + 1 = 2 ^ 32 then 1 else k.cardNext + 1 }
    .ok (s.putS true true sa c.handle)

/-! ### A job's elements (R332, R336) -/

/-- Elements of a job: 64-byte blocks of its destination, or rows. -/
def Card.elements (c : Card) : Nat :=
  if c.op = 3 then 0
  else if c.byRows then c.rows
  else if c.len = 0 then 0
  else (c.dst.toNat + c.len - 1) / 64 - c.dst.toNat / 64 + 1

/-- A run of bytes in a space. -/
structure Piece where
  space : Nat
  addr : W64
  len : Nat
  deriving DecidableEq, Repr

/-- The source and destination of an element, with its index for a row (R332). -/
def Card.pieces (c : Card) (e index : Nat) : Piece × Piece :=
  let at_ := fun (base : W64) (k : Nat) => base + BitVec.ofNat 64 (k * c.len)
  match c.op with
  | 1 => ({ space := c.ssp, addr := at_ c.src index, len := c.len }, { space := c.dsp, addr := at_ c.dst e, len := c.len })
  | 2 => ({ space := c.ssp, addr := at_ c.src e, len := c.len }, { space := c.dsp, addr := at_ c.dst index, len := c.len })
  | _ =>
    let block := (c.dst.toNat / 64 + e) * 64
    let lo := max c.dst.toNat block
    let n := min (c.dst.toNat + c.len) (block + 64) - lo
    ({ space := c.ssp, addr := c.src + BitVec.ofNat 64 (lo - c.dst.toNat), len := n }, { space := c.dsp, addr := BitVec.ofNat 64 lo, len := n })

/-- Whether a piece lies in a declared footprint of its kind (R333). -/
def Card.covers (c : Card) (write : Bool) (p : Piece) : Bool :=
  !c.declared || c.foot.any fun f => f.write == write && f.space == p.space && f.extent != 0 && decide (f.base ≤ p.addr.toNat)
    && decide (p.addr.toNat + p.len ≤ f.base + f.extent)

/-- The accessor that a job's translations act for; filters are not consulted (R374). -/
def Card.who (c : Card) (core : Nat) : Who := { core := core, asid := c.asid, root := c.root, sup := c.sup, watched := false }

/-- Global parts of a piece: leaf, virtual and physical address, length. -/
structure Part where
  leaf : Leaf
  va : W64
  pa : Nat
  len : Nat
  deriving DecidableEq, Repr

/-- An address of each page of global memory that a piece meets. -/
def Piece.pages (p : Piece) : List W64 := if p.space ≠ 0 then [] else (pageParts p.addr p.len).map fun x => x.1

/-- A piece of global memory checked by Table 03-7, page by page; the row that failed and where. -/
def State.parts (s : State) (w : Who) (k : Kind) (p : Piece) : Except (Nat × W64) (List Part) :=
  if p.space ≠ 0 then .ok []
  else (pageParts p.addr p.len).mapM fun x => match s.check w k false 1 x.1 with
    | .fails row => .error (row, x.1)
    | .passes f => .ok { leaf := f, va := x.1, pa := f.pa x.1, len := x.2 }

/-- The byte store and the base of an on-chip piece of a card. -/
def State.chipOf (s : State) (core : Nat) (c : Card) (p : Piece) : List Byte :=
  match p.space with
  | 1 => ((s.wgAt c.wg).map fun w => w.cells.readBytes p.addr.toNat p.len).getD []
  | 2 => (((s.wgAt c.wg).bind s.instOf).map fun i => i.cells.readBytes p.addr.toNat p.len).getD []
  | _ => match s.caveEntry (dieOf core) c.asid with
    | some e => s.mem.readBytes (s.cavePa (dieOf core) (e.1 + p.addr.toNat)) p.len
    | none => []

/-- Bytes written to an on-chip piece of a card. -/
def State.chipPut (s : State) (core : Nat) (c : Card) (p : Piece) (bs : List Byte) : State :=
  match p.space with
  | 1 => s.wgWrite c.wg p.addr.toNat bs
  | 2 => match (s.wgAt c.wg).bind s.instOf with
    | some i => s.instWrite i.key p.addr.toNat bs
    | none => s
  | _ => match s.caveEntry (dieOf core) c.asid with
    | some e => s.caveWrite (s.cavePa (dieOf core) (e.1 + p.addr.toNat)) bs
    | none => s

/-- Whether an uncorrectable error stands in an on-chip piece of a card (R86). -/
def State.pieceBad (s : State) (core : Nat) (c : Card) (p : Piece) : Bool :=
  match p.space with
  | 0 => false
  | 1 => s.spoiled (.wg c.wg) p.addr.toNat p.len
  | 2 => ((s.wgAt c.wg).bind s.instOf).any fun i => s.spoiled (.inst i.key) p.addr.toNat p.len
  | _ => (s.caveEntry (dieOf core) c.asid).any fun e => s.spoiled .cave (s.cavePa (dieOf core) (e.1 + p.addr.toNat)) p.len

/-- Group-slot number under which an engine's translation misses and page faults stand. -/
def engineSlot : Nat := 65

/-- Who sends an engine's writes: the name that its units and requests carry, their address field, the launch, and the group that is told of a write
that cannot reach its module (R192); none for a job, whose element fails instead. -/
structure Sender where
  ident : Nat
  pc : W64
  launch : Nat
  late : Option Nat
  deriving DecidableEq, Repr

/-- The sender of a card's writes: `pc` holds the card's sequence number. -/
def Card.sender (c : Card) (core : Nat) : Sender := { ident := engineIdent core, pc := BitVec.ofNat 64 c.seq, launch := c.launch, late := none }

/-- An engine's read within one line (R336, R188, R182): vat-managed wheels by a merged read, host memory by its page's HOSTNC. Stores of its die that
wait for the line come first (R144). (DESIGN CHOICE, log entry 74, unsafe.) -/
def State.engineReadLine (s : State) (core : Nat) (pte : W64) (pa n : Nat) : List Byte × State :=
  let line := lineOf pa
  let s := s.drainLine (dieOf core) line
  match s.route pte pa with
  | .plain =>
    let s := (s.recall line true).fill line
    (s.bytesAt pa n, s)
  | .uncached => (s.bytesAt pa n, s.fill line)
  | .vat => (s.mergedRead pa n, s.findBadAt (wheelOf pa))
  | .hostCached =>
    let s := (s.hostFetch line).recall line true
    (s.bytesAt pa n, s)
  | .hostDirect => (overWrites ((s.fabric.filter fun r => r.posted).flatMap fun r => r.writes) pa (s.mem.readBytes pa n), s)
  | .remote =>
    if pteBit pte 7 || placeOf (localOf pa) != .hbm || s.recorded line || s.holdsRemote .full line then (s.bytesAt pa n, s)
    else
      let s := s.installRemote (wheelOf pa) .full
      (s.bytesAt pa n, s)
  | .closed => ((List.range n).map fun k => Config.freeByte (s.free + k), { s with free := s.free + n })
  | _ => (s.mem.readBytes pa n, s)

/-- A run of bytes as parts within one line each: address and length. -/
def lineParts (pa n : Nat) : List (Nat × Nat) := (splitLines pa (List.replicate n 0)).map fun x => (x.1, x.2.length)

/-- An engine's read of a global part. -/
def State.engineRead (s : State) (core : Nat) (p : Part) : List Byte × State :=
  (lineParts p.pa p.len).foldl (fun acc x =>
    let (bs, s) := acc.2.engineReadLine core p.leaf.pte x.1 x.2
    (acc.1 ++ bs, s)) ([], s)

/-- A request outside the module by a sender of a core (R192). -/
def State.engineRequest (s : State) (core : Nat) (x : Sender) (va : W64) (pa : Nat) (posted : Bool) (writes : List (Nat × List Byte)) : State :=
  s.sendRequest { id := s.nextId, ident := x.ident, core := core, inB := false, pc := x.pc, host := moduleOf pa == s.module, posted := posted
                  pa := pa, writes := writes, vaddr := va, mask := 0, deadline := s.fabricDeadline, status := .pending, launch := x.launch }

/-- A group told that a posted write for it has failed (R192, R193). -/
def State.tellLate (s : State) (ident info : Nat) (va : W64) : State :=
  s.updIdent ident fun g => if g.lateFault.isSome then g else { g with lateFault := some va, lateInfo := info }

/-- An engine's write of a run of bytes of one page (R336, R144): its unit to a vat-managed wheel, and, where steps are deferred, its posted write
outside the module, are on their way when it ends. A write to a failed module fails at once (R193). -/
def State.engineWrite (s : State) (core : Nat) (x : Sender) (p : Part) (bs : List Byte) : State :=
  (splitLines p.pa bs).foldl (fun s w =>
    let s := s.drainLine (dieOf core) (lineOf w.1)
    let away := fun (s : State) => if s.defer then s.engineRequest core x p.va w.1 true [(w.1, w.2)] else s.outsideWrite w.1 w.2
    match s.route p.leaf.pte w.1 with
    | .plain => (s.sliceWrite w.1 w.2).settleOwn core w.1 w.2.length
    | .uncached => (s.sliceWrite w.1 w.2).settleOwn core w.1 w.2.length
    | .vat => s.sendUnit x.ident core (wheelOf w.1) (storeReqs w.2.length w.1 w.2)
    | .hostCached => (s.hostFetch (lineOf w.1)).sliceWrite w.1 w.2
    | .hostDirect => away s
    | .remote => if s.moduleFailed w.1 then (x.late.map fun g => s.tellLate g 1 p.va).getD s else s.mergeRemote 128 0 w.1 w.2 away
    | .window => (s.caveWrite w.1 w.2).wake w.1 w.2.length
    | _ => s) s

/-- What became of an element. -/
inductive ElemEnd where
  | done (s : State)
  | faulted (code : Nat)
  | absent (va : W64) (info : Nat)
  | held (begun : Option State)
  deriving DecidableEq, Repr

/-- The places of a run of global parts, line by line. -/
def Part.places (p : Part) : List (Placed × Nat) := (lineParts p.pa p.len).map fun x => ({ lane := 0, va := p.va, pa := x.1, leaf := p.leaf }, x.2)

/-- The requests that an engine's reads need outside the module sent, and their answers awaited (R187, R192, R336); with nothing deferred they are
answered at once. A failed one is FABRIC_TIMEOUT. -/
def State.engineAsk (s : State) (core : Nat) (x : Sender) (ps : List Part) : Except ElemEnd State :=
  let away := ((ps.flatMap Part.places).filter fun q => s.loadLeaves q.2 .full q.1).map fun q => q.1
  let own := fun (r : FabReq) => r.ident == x.ident && r.pc == x.pc && !r.posted
  let mine := s.fabric.filter own
  if away.isEmpty || !s.defer then .ok s
  else
    match (requestLanes .load true (away.filter s.fetchesWheel) ++ requestLanes .load false (away.filter fun p => !s.fetchesWheel p)).filter
        fun q => !mine.any fun r => r.pa == q.1.pa with
    | q :: qs => .error (.held (some ((q :: qs).foldl (fun s q => s.engineRequest core x q.1.va q.1.pa false []) s)))
    | [] =>
      if mine.any fun r => decide (r.status = .pending) then .error (.held none)
      else if mine.any fun r => decide (r.status ≠ .replied) then .error (.faulted codeFabric)
      else .ok { s with fabric := s.fabric.filter fun r => !own r }

/-- Whether writes of a name still wait outside their intake queue, or for a place among the die's requests: until they have gone, what sends them
holds (R119, R187). -/
def State.held (s : State) (ident : Nat) : Bool :=
  s.defer && ((s.clusters.any fun c => c.outside.any fun u => u.ident == ident) || s.fabric.any fun r => r.ident == ident && !r.sent)

/-- The walks of an engine's lookups awaited (R55). -/
def State.engineWalks (s : State) (core asid root : Nat) (vas : List W64) : Except ElemEnd Unit :=
  match s.awaitWalksOf core engineSlot false asid root .load vas .memDep with
  | .ok _ => .ok ()
  | .error (.pend t _) => .error (.held (some t))
  | .error _ => .error (.held none)

/-- Whether a global part meets a failed module or poison (R193, R86): the code. -/
def State.partFails (s : State) (read : Bool) (ps : List Part) : Option Nat :=
  if ps.any fun p => s.moduleFailed p.pa then some codeFabric
  else if read && ps.any (fun p => (s.poisonedLine p.pa p.len).isSome) then some codeEcc
  else none

/-- The bytes of a piece, and the state after reading it. -/
def State.readPiece (s : State) (core : Nat) (c : Card) (p : Piece) (ps : List Part) : List Byte × State :=
  if p.space ≠ 0 then (s.chipOf core c p, s)
  else ps.foldl (fun acc q =>
    let (bs, s) := acc.2.engineRead core q
    (acc.1 ++ bs, s)) ([], s)

/-- A piece written. -/
def State.writePiece (s : State) (core : Nat) (c : Card) (p : Piece) (ps : List Part) (bs : List Byte) : State :=
  if p.space ≠ 0 then s.chipPut core c p bs
  else (ps.foldl (fun acc q => (acc.1.engineWrite core (c.sender core) q (acc.2.take q.len), acc.2.drop q.len)) (s, bs)).1

/-- One element of a job (R336, R333): its index, its footprints, its translations, the answers of its requests outside the module, the gates of
recorded lines, then its accesses; its arrival is counted by `State.arrive`. (DEDUCED, log entry 45, safe.) -/
def State.element (s : State) (core : Nat) (c : Card) : ElemEnd :=
  let at_ : Piece := { space := 1, addr := BitVec.ofNat 64 (c.idxOff + 4 * c.next), len := 4 }
  let index := if c.byRows then fromBytes (s.chipOf core c at_) else 0
  let (src, dst) := c.pieces c.next index
  let failed := fun (row : Nat) (va : W64) (k : Kind) => if row = 3 then ElemEnd.absent va k.info else .faulted (rowCode row)
  if c.byRows && c.covers false at_ && s.pieceBad core c at_ then .faulted codeEcc
  else if c.byRows && (!c.covers false at_ || decide (c.trows ≤ index)) then .faulted codeSpad
  else if !(c.covers false src && c.covers true dst) then .faulted codeSpad
  else match s.engineWalks core c.asid c.root (src.pages ++ dst.pages) with
  | .error e => e
  | .ok _ =>
  match s.parts (c.who core) .load src, s.parts (c.who core) .store dst with
    | .error (row, va), _ => failed row va .load
    | _, .error (row, va) => failed row va .store
    | .ok ps, .ok qs =>
      match s.partFails true ps, s.partFails false qs with
      | some code, _ => .faulted code
      | _, some code => .faulted code
      | none, none =>
        if s.pieceBad core c src then .faulted codeEcc
        else if s.held (engineIdent core) then .held none
        else match s.engineAsk core (c.sender core) ps with
        | .error e => e
        | .ok s =>
        let lines := (ps ++ qs).flatMap fun p => linesOf p.pa p.len
        let who := ((s.wgAt c.wg).map fun w => w.source c.gidx).getD 0
        match s.gateLines c.launch who { core := core, slot := c.slot, path := if c.inB then 1 else 0, pc := c.pc, mask := c.mask } lines with
        | .error (.pend s' _) => .held (if s'.dies = s.dies && s'.mem = s.mem then none else some s')
        | .error _ => .held none
        | .ok s =>
          let s := (ps.foldl (fun s p => s.fillTlb core c.asid c.root .load p.va p.leaf) s)
          let s := (qs.foldl (fun s p => s.fillTlb core c.asid c.root .store p.va p.leaf) s)
          let s := { s with misses := s.misses.filter fun m => !m.of core engineSlot false }
          let (bs, s) := s.readPiece core c src ps
          let s := s.writePiece core c dst qs bs
          .done (s.updCards core fun cs => cs.map fun x => if x.seq == c.seq then { x with next := x.next + 1 } else x)

/-- The arrival of an element counted, once its bytes can be read by every thread of the workgroup (R84, R145). That of the last element is counted
as the job ends, after its status word is written (R334). -/
def State.arrive (s : State) (core : Nat) (c : Card) : State :=
  let n := if c.byRows then 1 else (c.pieces c.arrived 0).2.len
  let s := s.updCards core fun cs => cs.map fun x => if x.seq == c.seq then { x with arrived := x.arrived + 1, delivered := x.delivered + n } else x
  match c.bar with
  | some b => s.barStep c.wg b fun o => o.decrement n
  | none => s

/-! ### The page-request ring (R60, R361) -/

/-- The physical address of an entry of the ring. -/
def State.ringPa (s : State) (n : Nat) : Nat := s.cavePa 0 (0x1000 + 64 * n)
/-- STATE of an entry. -/
def State.ringState (s : State) (n : Nat) : Nat := s.mem.readNat (s.ringPa n + 16) 8
/-- STATE of an entry written. -/
def State.setRing (s : State) (n v : Nat) : State :=
  (s.caveWrite (s.ringPa n + 16) (toBytes 8 v)).wake (s.ringPa n + 16) 8

/-- The 64 KiB page of an address. -/
def pageOf (va : W64) : Nat := va.toNat / 65536 * 65536

/-- The lowest free entries of the ring, as many as are asked for; none where there are too few. -/
def State.ringFree (s : State) (n : Nat) : Option (List Nat) :=
  let free := ((List.range 64).filter fun k => s.ringState k == 0).take n
  if free.length < n then none else some free

/-- A page request posted whole (R361), when as many entries are free: each entry with STATE written last, and MSI-X vector 1. -/
def State.postPages (s : State) (core : Nat) (q : PageRequest) : Option (PageRequest × State) :=
  (s.ringFree q.pages.length).map fun es =>
    ({ q with entries := es }, ((es.zip q.pages).foldl (fun s x =>
      let bs := toBytes 8 x.2 ++ toBytes 2 q.event.asid ++ toBytes 1 q.event.info ++ [0] ++ toBytes 4 (s.coreSource core)
      (((s.caveWrite (s.ringPa x.1) (bs ++ List.replicate 8 0 ++ List.replicate 40 0)).setRing x.1 1)).wake (s.ringPa x.1) 64) s).sendMsix 1)

/-- A job suspended at an element whose page is absent (R60): an event of the core's trap context. -/
def State.suspendJob (s : State) (core : Nat) (c : Card) (va : W64) (info : Nat) : State :=
  let s := { s with misses := s.misses.filter fun m => !m.of core engineSlot false }
  let s := s.updCards core fun cs => cs.map fun x => if x.seq == c.seq then { x with state := .suspended } else x
  (s.queueEvent core { slot := engineSlot, inB := c.inB, code := codePageNp, info := info, pc := c.pc, addr := va, stamp := s.tstamp, vas := [va]
                       card := some c.seq, asid := c.asid }).startEvent core

/-- A suspended job told that its entry is answered (R60): it goes on, or ends faulted at its element. -/
def State.tellEngine (s : State) (core seq : Nat) (present : Bool) : State :=
  match s.cardOf core seq with
  | none => s
  | some c =>
    if c.state ≠ .suspended then s
    else if present then s.updCards core fun cs => cs.map fun x => if x.seq == seq then { x with state := .running } else x
    else s.endCard core c 1 c.next codePageNp

/-! ### Collectives (R340 to R342) -/

/-- Operands of an `rrot` and of an `ecoll` (Tables 18-7, 18-8). -/
def rotLen (x : W64) : Nat := field x 32 11 * 512
def collLen (x : W64) : Nat := field x 32 16 * 16
def tileSrc (x : W64) : Nat := field x 0 16 * 16
def tileDst (x : W64) : Nat := field x 16 16 * 16
def collOp (y : W64) : Nat := field y 0 3
def collRoot (y : W64) : Nat := field y 3 2

/-- The card at the head of a core's queue. -/
def State.headCard (s : State) (core : Nat) : Option Card := (s.core core).queue.head?.bind fun q => s.cardOf core q

/-- The state of the guard that a card is bound to; TRUE without one. -/
def State.guardOf (s : State) (core : Nat) (c : Card) : GuardState :=
  match c.guard with
  | none => .isTrue
  | some k => ((s.core core).guards.getD k {}).state

/-- Whether a card is suspended because its workgroup is saved (R364): one that touches the chip. A started card of an ended launch runs to its end
(R365). -/
def State.cardSaved (s : State) (c : Card) : Bool :=
  (s.wgAt c.wg).any (fun w => w.saved) && (decide (c.kind ≠ .job) || c.byRows || c.ssp != 0 || c.dsp != 0)
    && !((s.launchOf c.launch).any fun l => l.killed || l.faulted)

/-- The four parties' cards of a rotation or collective whose turn has come on a cluster (R340, R364). -/
def State.partyCards (s : State) (cluster : Nat) : Option (List (Nat × Card)) :=
  let heads := (coresIn cluster).filterMap fun k => (s.headCard k).map fun c => (k, c)
  match heads with
  | [a, b, c, d] =>
    let inst := fun (x : Nat × Card) => (s.wgAt x.2.wg).bind fun w => w.inst
    let ok := fun (x : Nat × Card) => decide (x.2.kind = a.2.kind) && inst x == inst a && s.guardOf x.1 x.2 == .isTrue && (s.wgAt x.2.wg).isSome
      && !s.cardSaved x.2
    if a.2.kind ≠ .job ∧ heads.all ok then some [a, b, c, d] else none
  | _ => none

/-- Bytes that a party's workgroup holds at an offset. -/
def State.partyRead (s : State) (c : Card) (off n : Nat) : List Byte := ((s.wgAt c.wg).map fun w => w.cells.readBytes off n).getD []

/-- A step of a rotation (R341, R75): 512 bytes of all four sources are read and then written to the next core. -/
def State.rotate (s : State) (cs : List Card) (k : Nat) : State :=
  let data := cs.map fun c => s.partyRead c (tileSrc c.src + 512 * k) 512
  (List.range 4).foldl (fun s j => match cs[(j + 1) % 4]? with
    | some c => s.wgWrite c.wg (tileDst c.src + 512 * k) (data.getD j [])
    | none => s) s

/-- The words of a byte string. -/
def wordsOf (bs : List Byte) : List Nat := (List.range (bs.length / 4)).map fun k => fromBytes ((bs.drop (4 * k)).take 4)

/-- A collective (R342). -/
def State.collect (s : State) (cs : List Card) (len op root : Nat) : State :=
  let data := cs.map fun c => s.partyRead c (tileSrc c.src) len
  let sum := fun (f : Nat → Nat → Nat) =>
    let x := fun j => wordsOf (data.getD j [])
    (List.range (len / 4)).flatMap fun k => toBytes 4 (f (f (f ((x 0).getD k 0) ((x 1).getD k 0)) ((x 2).getD k 0)) ((x 3).getD k 0))
  let out := match op with
    | 0 => data.getD root []
    | 1 => sum (faddPat fp32)
    | 2 => sum fun a b => (a + b) % 2 ^ 32
    | _ => data.flatten
  cs.foldl (fun s c => s.wgWrite c.wg (tileDst c.src) out) s

/-- A rotation or collective moved on, when its four cards have reached the heads of their queues: a collective is done at once, a rotation by one
step, at which a save may suspend it (R364). A mismatch faults all four (R340), and so does an uncorrectable error in what they read (R86).
(DEDUCED, log entry 62, safe.) -/
def State.startCollective (s : State) (cluster : Nat) : Option State :=
  (s.partyCards cluster).map fun ps =>
    let cs := ps.map fun p => p.2
    let finish := fun (s : State) (state code : Nat) => ps.foldl (fun s p => s.endCard p.1 p.2 state 0 code) s
    let first := cs.headD (s.blankCard .job 0)
    let bad := fun (off n : Nat) => cs.any fun c => s.spoiled (.wg c.wg) (tileSrc c.src + off) n
    match first.kind with
    | .rotate _ =>
      if !cs.all fun c => rotLen c.src == rotLen first.src then finish s 1 codeFmt
      else if rotLen first.src ≤ 512 * first.next then finish s 0 0
      else if bad (512 * first.next) 512 then finish s 1 codeEcc
      else ps.foldl (fun s p => s.updCards p.1 fun xs => xs.map fun x => if x.seq == p.2.seq then { x with state := .running, next := x.next + 1 } else x)
        (s.rotate cs first.next)
    | _ =>
      if !cs.all fun c => collLen c.src == collLen first.src && collOp c.dst == collOp first.dst && collRoot c.dst == collRoot first.dst then
        finish s 1 codeFmt
      else if bad 0 (collLen first.src) then finish s 1 codeEcc
      else finish (s.collect cs (collLen first.src) (collOp first.dst) (collRoot first.dst)) 0 0

/-! ### The engine -/

/-- Whether a collective's card lacks a party (R340). -/
def State.cardLacks (s : State) (c : Card) : Bool :=
  match c.kind.ordinal, (s.wgAt c.wg).bind s.instOf with
  | some o, some i => i.lacks o
  | some _, none => true
  | none, _ => false

/-- The card at the head of a core's queue begins, or is discarded by its guard (R223, R336); none where it must stay. -/
def State.startHead (s : State) (core : Nat) (c : Card) : Option State :=
  match s.guardOf core c with
  | .pending => none
  | .isFalse => some (s.endCard core c 3 0 0)
  | _ =>
    if s.cardLacks c then some (s.endCard core c 2 0 0)
    else if c.kind ≠ .job then none
    else if s.cardSaved c then none
    else some (s.updCards core fun cs => cs.map fun x => if x.seq == c.seq then { x with state := .running } else x)

/-- Writes of a core's engine that have not been performed at device scope (R144): its units to vats have been taken, its posted writes
acknowledged, and no message to a sharer is on its way. (DEDUCED, log entry 14, safe.) -/
def State.engineWaits (s : State) (core : Nat) : Bool :=
  (s.defer && !s.msgs.isEmpty) || (s.clusters.any fun k => k.intake.any fun u => u.ident == engineIdent core)
    || s.fabric.any fun r => r.ident == engineIdent core && r.posted

/-- A running job all of whose elements are done ends (R334); one whose last write failed outside the module ends faulted there (R192). -/
def State.endHead (s : State) (core : Nat) (c : Card) : Option State :=
  if s.engineWaits core then none
  else some (if c.lost then s.endCard core c 1 (c.next - 1) codeFabric else s.endCard core c 0 0 0)

/-- The next element of a running job performed, once the one before it has arrived (R336). -/
def State.runHead (s : State) (core : Nat) (c : Card) : Option State :=
  if c.lost then s.endHead core c
  else if c.arrived < c.next then (if s.engineWaits core then none else some (s.arrive core c))
  else if s.cardSaved c then none
  else match s.element core c with
    | .done s => some (match s.cardOf core c.seq with
      | some x => if s.engineWaits core || decide (x.elements ≤ x.next) then s else s.arrive core x
      | none => s)
    | .faulted code =>
      let s := { s with fabric := s.fabric.filter fun r => !(r.ident == engineIdent core && !r.posted) }
      if s.engineWaits core then none else some (s.endCard core c 1 c.next code)
    | .absent va info => some (s.suspendJob core c va info)
    | .held begun => begun

/-- One thing that a core's engine does. -/
def State.engineStep (s : State) (core : Nat) : Option State :=
  match s.headCard core with
  | none => none
  | some c => match c.state with
    | .ready => s.startHead core c
    | .running => if c.kind ≠ .job then none else if c.next < c.elements then s.runHead core c else s.endHead core c
    | .suspended => none
    | .waiting => none

/-- A core's engine run until it can do no more; `n` bounds the work. -/
def State.runEngine (core : Nat) : Nat → State → State
  | 0, s => s
  | n + 1, s => match s.engineStep core with
    | none => s
    | some s' => State.runEngine core n s'

/-- Steps that the cards held on a core can take. -/
def State.engineWork (s : State) (core : Nat) : Nat := (s.core core).cards.foldl (fun n c => n + 2 * c.elements + 4) 0

/-- The engines of a cluster run until they can do no more; `n` bounds the collectives. -/
def State.runCluster (cluster : Nat) : Nat → State → State
  | 0, s => s
  | n + 1, s =>
    let s := (coresIn cluster).foldl (fun s k => s.runEngine k (s.engineWork k)) s
    match s.startCollective cluster with
    | none => s
    | some s' => State.runCluster cluster n s'

/-- Steps that a cluster's rotations and collectives can take. -/
def State.partyWork (s : State) (core : Nat) : Nat := (s.core core).cards.foldl (fun n c => n + 2 + (if c.kind = .job then 0 else rotLen c.src / 512)) 0

/-- After a card or a guard changed: with nothing deferred, the engines of the core's cluster do at once all they can. -/
def State.kickEngines (s : State) (core : Nat) : State :=
  if s.defer then s
  else State.runCluster (clusterOf core) (1 + (coresIn (clusterOf core)).foldl (fun n k => n + s.partyWork k) 0) s

/-! ### Posting forms (R335, R341, R342) -/

/-- The guard operand of a posting form. -/
def guardArg (guard : Bool) (k : Nat) : Option Nat := if guard then some k else none

/-- STAT and BAR of a card checked (R335 step 3). -/
def State.checkStat (s : State) (c : Card) : Res Unit := do
  s.checkBlock 8 8 (BitVec.ofNat 64 c.stat)
  match c.bar with
  | some b => s.checkBlock 16 16 (BitVec.ofNat 64 b)
  | none => .ok ()

/-- Steps 3 and 4 of R335. (DEDUCED, log entry 46, safe.) -/
def State.checkCard (s : State) (c : Card) : Res Unit := do
  s.checkStat c
  c.foot.forM s.checkFoot
  if c.byRows && (c.src.toNat % 4 != 0 || c.dst.toNat % 4 != 0 || c.idxOff % 4 != 0) then
    .error (.trap { code := codeMisalign, addr := if c.src.toNat % 4 ≠ 0 then c.src else if c.dst.toNat % 4 ≠ 0 then c.dst else BitVec.ofNat 64 c.idxOff })
  else .ok ()

/-- A job card from its four words. -/
def State.jobCard (s : State) (dst src ctl idx : W64) : Card :=
  { s.blankCard .job (field ctl 20 17 * 8) with dst := dst, src := src, ctl := ctl, idx := idx }

/-- `ecopy` (R335). (DEDUCED, log entry 46, safe.) -/
def execEcopy (sa sn : Nat) (guard : Bool) (k : Nat) (s : State) : Out :=
  Form.run { srcs := (List.range 4).map (fun j => rs (sn + j)), dsts := [rs sa], noTx := true } s fun _ t => do
    let c := t.jobCard (t.g.srcS sn) (t.g.srcS (sn + 1)) (t.g.srcS (sn + 2)) (t.g.srcS (sn + 3))
    let c := { c with foot := derivedFoot c }
    trapIf c.badWords codeFmt
    t.checkCard c
    let t ← t.acceptCard c (guardArg guard k) sa
    .ok (t.kickEngines t.g.core)

/-- A word of a card in the scratchpad. -/
def State.cardWord (s : State) (off : Nat) : W64 := BitVec.ofNat 64 (fromBytes (s.chipRead .scratch off 8))

/-- The footprints that an `ecmd` card declares, and whether a reserved bit of one is set (Table 18-3). -/
def State.declaredFoot (s : State) (off : Nat) : List Footprint × Bool :=
  let fs := (List.range 6).map fun f =>
    let w1 := s.cardWord (off + 0x28 + 16 * f)
    (({ space := field w1 32 2, base := (s.cardWord (off + 0x20 + 16 * f)).toNat, extent := field w1 0 32, write := decide (4 ≤ f) } : Footprint),
      field w1 34 30 != 0)
  (fs.map fun x => x.1, fs.any fun x => x.2)

/-- `ecmd` (R333, R335). (DEDUCED, log entry 46, safe.) -/
def execEcmd (sa sb : Nat) (guard : Bool) (k : Nat) (s : State) : Out :=
  Form.run { srcs := [rs sb], dsts := [rs sa], noTx := true } s fun _ t => do
    t.checkBlock 16 128 (t.g.srcS sb)
    let off := (t.g.srcS sb).toNat
    waitWhile (t.chipBusy .load .scratch 128 [off])
    t.checkOwn 0 off 128
    let c := t.jobCard (t.cardWord off) (t.cardWord (off + 8)) (t.cardWord (off + 16)) (t.cardWord (off + 24))
    let (foot, bad) := t.declaredFoot off
    let c := { c with foot := foot, declared := true }
    trapIf (c.badWords || bad) codeFmt
    t.checkCard c
    let t ← t.acceptCard c (guardArg guard k) sa
    .ok (t.kickEngines t.g.core)

/-- The conditions of R340 on the issuer of a collective: its workgroup, or SPAD_BOUNDS. -/
def State.party (s : State) : Res Workgroup :=
  match s.myWg with
  | none => trapNow codeSpad
  | some w =>
    let n := ((s.launchOf w.launch).map Launch.perInstance).getD 1
    if w.inst.isNone ∨ n < 4 ∨ 4 ≤ w.index % n then trapNow codeSpad else .ok w

/-- `rrot` (R341). -/
def execRrot (sa sb : Nat) (guard : Bool) (k : Nat) (s : State) : Out :=
  Form.run { srcs := [rs sb], dsts := [rs sa], noTx := true } s fun _ t => do
    let w ← t.party
    let x := t.g.srcS sb
    trapIf (field x 60 4 != 0) codeFmt
    let c := { t.blankCard (.rotate w.rotations) (field x 43 17 * 8) with
      src := x, foot := [{ space := 1, base := tileSrc x, extent := rotLen x, write := false },
                         { space := 1, base := tileDst x, extent := rotLen x, write := true }] }
    t.checkStat c
    c.foot.forM t.checkFoot
    let t ← t.acceptCard c (guardArg guard k) sa
    .ok ((t.updWg w.key fun w => { w with rotations := w.rotations + 1 }).kickEngines t.g.core)

/-- `ecoll` (R342). -/
def execEcoll (sa sn : Nat) (guard : Bool) (k : Nat) (s : State) : Out :=
  Form.run { srcs := [rs sn, rs (sn + 1)], dsts := [rs sa], noTx := true, iin := sn % 2 == 1 } s fun _ t => do
    let w ← t.party
    let x := t.g.srcS sn
    let y := t.g.srcS (sn + 1)
    trapIf (field x 48 16 != 0 || field y 25 39 != 0 || field y 5 3 != 0 || decide (4 ≤ collOp y)) codeFmt
    let c := { t.blankCard (.collective w.collectives) (field y 8 17 * 8) with
      src := x, dst := y, foot := [{ space := 1, base := tileSrc x, extent := collLen x, write := false },
        { space := 1, base := tileDst x, extent := if collOp y = 3 then 4 * collLen x else collLen x, write := true }] }
    t.checkStat c
    c.foot.forM t.checkFoot
    let t ← t.acceptCard c (guardArg guard k) sa
    .ok ((t.updWg w.key fun w => { w with collectives := w.collectives + 1 }).kickEngines t.g.core)

/-! ### Waiting (R337, R338, R348) -/

/-- The held card of the issuing core that a handle names by SLOT and SEQ. -/
def State.handleCard (s : State) (h : W64) : Option Card :=
  (s.core s.g.core).cards.find? fun c => c.cslot == field h 0 6 && c.seq == field h 32 32

/-- Matrix requests of the issuing group that have not retired. -/
def State.myRequests (s : State) : List MatReq :=
  (s.cluster (clusterOf s.g.core)).resv.filter fun r => r.wg == s.g.wg && r.gidx == s.g.gidx

/-- `ewait` on handle 0 (R348): every matrix request accepted before it has retired. (DEDUCED, log entry 48, safe.) -/
def State.waitMatrix (s : State) (sa : Nat) : Res State :=
  let reqs := s.myRequests
  let mine := s.g.matWait.find? fun x => x.1 == s.g.inB
  let bound := (mine.map fun x => x.2).getD s.nextId
  if reqs.any fun r => decide (r.id < bound) then
    (if mine.isSome then .error (.wait .matrixResv)
     else .error (.pend { s with g := { s.g with matWait := s.g.matWait ++ [(s.g.inB, bound)] } } .matrixResv))
  else
    let s := { s with g := { s.g with matWait := s.g.matWait.filter fun x => x.1 != s.g.inB } }
    .ok (s.putS true true sa (if s.g.matFailed.any fun id => decide (id < bound) then 1 else 0))

/-- `ewait` (R337). -/
def execEwait (sa sb : Nat) (s : State) : Out :=
  Form.run { srcs := [rs sb], dsts := [rs sa], noTx := true } s fun _ t =>
    let h := t.g.srcS sb
    if h = 0 then t.waitMatrix sa
    else if (t.handleCard h).isSome then .error (.wait .engineWait)
    else
      let off := field h 12 17 * 8
      if t.extent .scratch < off + 8 then spadAt (BitVec.ofNat 64 off)
      else if t.chipBusy .load .scratch 8 [off] then .error (.wait .memDep)
      else (t.checkOwn 0 off 8).map fun _ => t.putS true true sa (BitVec.ofNat 64 (fromBytes (t.chipRead .scratch off 8)))

/-- `eyield` (R338). (DEDUCED, log entry 47, safe.) -/
def execEyield (sa sb : Nat) (s : State) : Out :=
  Form.control { srcs := [rs sa, rs sb], noTx := true } s fun _ t =>
    let h := t.g.srcS sa
    let dest := t.g.srcS sb
    let held := if h = 0 then (if t.myRequests.isEmpty then none else some (0 : W64)) else (t.handleCard h).map Card.handle
    if dest.toNat % 4 ≠ 0 then .error (.trap { code := codeMisalign, addr := dest })
    else match held with
      | none => .ok (t.jump dest)
      | some handle =>
        if t.g.freeEntries = 0 then trapNow codeDivstack
        else
          let e : SaveEntry := { state := .parked (.eyield handle), pc := dest, mask := t.exm, depth := t.cur.depth, frame := t.cur.tag, seq := 0, deadline := t.nextId,
                                 maddr := BitVec.ofNat 64 (2 ^ 62 + field h 32 32 * 64 + field h 0 6) }
          .ok ({ t with g := t.g.push e }).leave

/-! ### Guards (R339, Table 11-5) -/

/-- A guard form on a slot of the issuing core. -/
def guardForm (srcs : List RegName) (k : Nat) (s : State) (act : Guard → State → Option Guard) : Out :=
  Form.run { srcs := srcs, noTx := true } s fun _ t =>
    match act ((t.core t.g.core).guards.getD k {}) t with
    | none => .error (.trap { code := codeGuard, addr := BitVec.ofNat 64 k })
    | some g => .ok ((t.updCore t.g.core fun c => freeGuard k { c with guards := c.guards.set k g }).kickEngines t.g.core)

/-- `eguard` (R339). -/
def execEguard (k : Nat) (s : State) : Out :=
  guardForm [] k s fun e t => if e.state = .free then some { state := .pending, wg := t.g.wg } else none

/-- `gres` (R339). -/
def execGres (sa k : Nat) (s : State) : Out :=
  guardForm [rs sa] k s fun e t =>
    if e.state = .pending ∧ e.wg = t.g.wg then some { e with state := if t.g.srcS sa ≠ 0 then .isTrue else .isFalse } else none

/-! ### rebal and resort (R343, R344) -/

/-- The exclusive prefix sums of lengths. -/
def prefixSums : Nat → List Nat → List Nat
  | _, [] => []
  | n, x :: xs => n :: prefixSums (n + x) xs

/-- The row that holds an item. -/
def rowOf (ptr len : List Nat) (x : Nat) : Nat :=
  ((List.range 32).find? fun r => decide (ptr.getD r 0 ≤ x) && decide (x < ptr.getD r 0 + len.getD r 0)).getD 0

/-- `rebal` (R343). -/
def execRebal (sa sb : Nat) (ptrs : Bool) (vs : Nat) (s : State) : Out :=
  let vd := (s.cur.hints.ext.map fun e => e.reg).getD 0
  let sel := (s.cur.hints.ext.map fun e => e.sel).getD 0
  Form.run
    { srcs := [rv vs, rs sa], dsts := [rv vd, rv (vd + 1)] ++ (if ptrs then [rv (vd + 2)] else []) ++ [rs sb], z := true, ext := [0]
      extNeeded := true, extDst := true, noTx := true, iin := sel != 0 || vd % (if ptrs then 4 else 2) != 0 } s fun h t =>
    let exm := t.exm
    if exm = 0 then .ok (t.putS true true sb 0)
    else
      let len := allLanes.map fun r => if laneOn exm r then (t.g.srcLane vs r).toNat else 0
      let ptr := prefixSums 0 len
      let total := len.foldl (· + ·) 0
      let item := fun i => (t.g.srcS sa).toNat + i
      let keep := exm &&& maskBy fun i => decide (item i < total)
      let row := fun i => rowOf ptr len (item i)
      let zero := fun (t : State) (v : Nat) => if h.mods.zero then t.putV true true v (~~~exm) false fun _ => 0 else t
      let t := ((zero t vd).putV true true vd keep false fun i => BitVec.ofNat 32 (row i))
      let t := ((zero t (vd + 1)).putV true true (vd + 1) keep false fun i => BitVec.ofNat 32 (item i - ptr.getD (row i) 0))
      let t := if ptrs then (zero t (vd + 2)).putV true true (vd + 2) exm false fun i => BitVec.ofNat 32 (ptr.getD i 0) else t
      .ok ((t.putS true true sb (BitVec.ofNat 64 total)).setCur { t.cur with exm := keep })

/-- Depth and tag of the first path of the workgroup that waits at the `resort`. (DEDUCED, log entry 33, safe.) -/
def State.sortAt (s : State) : Option (Nat × BitVec 16) :=
  (s.sortGroups s.g.wg).findSome? fun g => (g.save.find? SaveEntry.sorting).map fun e => (e.depth, e.frame)

/-- `resort` (R344, R209): the path arrives, and the exchange is taken with the last one. (DEDUCED, log entry 33, safe.) -/
def execResort (sa vk : Nat) (s : State) : Out :=
  Form.control { srcs := [rv vk, rs sa, rs (sa + 1)], noTx := true, iin := sa % 2 == 1 } s fun _ t =>
    let c := t.cur
    let here := fun (e : SaveEntry) => e.sorting && e.pc == c.pc
    if t.sortAt.any fun x => x != (c.depth, c.tag) then trapNow codeDivstack
    else
      let live : BitVec 128 := BitVec.ofNat 128 ((t.g.srcS sa).toNat + (t.g.srcS (sa + 1)).toNat * 2 ^ 64)
      let t := { t with g := { t.g with sortKey := some vk, liveMask := t.g.liveMask ||| live } }
      if t.g.save.any here then
        .ok (({ t with g := { t.g with save := t.g.save.map fun e => if here e then { e with mask := e.mask ||| c.exm } else e } }).leave.trySort t.g.wg)
      else if t.g.freeEntries = 0 then trapNow codeDivstack
      else .ok (({ t with g := t.g.push { state := .waitResort, pc := c.pc, mask := c.exm, depth := c.depth, frame := c.tag, seq := 0 } }).leave.trySort t.g.wg)

end Sys2Proof.Machine
end

