-- ==== Sys2Proof/Machine/Matrix.lean ====
section
/-!
DEFINITION. The matrix engine: tile and accumulator registers, descriptors, operands, accumulation, the reservation table and its
arbiter, pass costs and stamp records (R219, R220, R317 to R330, R345 to R348).
-/
namespace Sys2Proof.Machine
open Sys2Proof

/-! ### Descriptors (R318, R320, R322) -/

/-- An element format as a descriptor's FMT names it: number format, block scaling and micro-exponents. -/
structure ElemFmt where
  num : NumFmt
  bs : Bool := false
  me : Bool := false
  deriving DecidableEq, Repr

/-- The format of an FMT code 1 to 8 or 16 to 23, given the format register that it names (R318); none for any other or an invalid one. -/
def matFmt (code : Nat) (d : W32) : Option ElemFmt :=
  match code with
  | 1 => some { num := bf16 }
  | 2 => some { num := fp16 }
  | 3 => some { num := e4m3 }
  | 4 => some { num := e5m2 }
  | 5 => some { num := intFmt 8 }
  | 6 => some { num := uintFmt 8 }
  | 7 => some { num := intFmt 4 }
  | 8 => some { num := uintFmt 4 }
  | _ => if 16 ≤ code ∧ code ≤ 23 ∧ descValid d then some { num := descFmt d, bs := descBs d, me := descMe d } else none

/-- Bits of an element's container (R34). -/
def ElemFmt.bits (f : ElemFmt) : Nat := if f.num.width ≤ 4 then 4 else if f.num.width ≤ 8 then 8 else if f.num.width ≤ 16 then 16 else 32

/-- Bytes of a scale-plane entry (R39). -/
def ElemFmt.scaleBytes (f : ElemFmt) : Nat := if f.me then 2 else 1

/-- A tile register's fields (Tables 17-2, 17-3). -/
abbrev Desc := BitVec 128
def Desc.kind (d : Desc) : Nat := field d 126 2
def Desc.space (d : Desc) : Nat := field d 124 2
def Desc.fmt (d : Desc) : Nat := field d 119 5
def Desc.bmp (d : Desc) : Nat := field d 117 2
def Desc.vecs (d : Desc) : Nat := field d 108 9 + 1
def Desc.len (d : Desc) : Nat := field d 99 9 + 1
def Desc.base (d : Desc) : Nat := if d.kind = 1 then field d 97 22 else field d 77 22
def Desc.stride (d : Desc) : Nat := field d 57 20
def Desc.inc (d : Desc) : Int := sextInt (field d 37 20) 20
def Desc.aux (d : Desc) : Nat := field d 15 22
def Desc.ainc (d : Desc) : Int := 16 * sextInt (field d 0 15) 15
def Desc.h (d : Desc) : Nat := field d 87 10 + 1
def Desc.w (d : Desc) : Nat := field d 77 10 + 1
def Desc.c (d : Desc) : Nat := field d 65 12 + 1
def Desc.fh (d : Desc) : Nat := field d 62 3 + 1
def Desc.fw (d : Desc) : Nat := field d 59 3 + 1
def Desc.sh (d : Desc) : Nat := field d 57 2 + 1
def Desc.sw (d : Desc) : Nat := field d 55 2 + 1
def Desc.dh (d : Desc) : Nat := field d 53 2 + 1
def Desc.dw (d : Desc) : Nat := field d 51 2 + 1
def Desc.pt (d : Desc) : Nat := field d 48 3
def Desc.pl (d : Desc) : Nat := field d 45 3
def Desc.row0 (d : Desc) : Nat := field d 25 20
def Desc.mm (d : Desc) : Nat := field d 18 7 + 1
def Desc.koff (d : Desc) : Nat := field d 0 18

/-- One output extent of an unfolding, or 0 where it is below 1 (R322). -/
def outSize (size pad dil flt stride : Nat) : Nat :=
  if size + 2 * pad < dil * (flt - 1) + 1 then 0 else (size + 2 * pad - dil * (flt - 1) - 1) / stride + 1
def Desc.oh (d : Desc) : Nat := outSize d.h d.pt d.dh d.fh d.sh
def Desc.ow (d : Desc) : Nat := outSize d.w d.pl d.dw d.fw d.sw

/-- The rows of A that a descriptor gives. -/
def Desc.rows (d : Desc) : Nat := if d.kind = 1 then d.mm else d.vecs

/-- Whether a plain tile keeps the limits of Table 17-2 for so many vectors. -/
def Desc.plainOk (d : Desc) (maxVecs : Nat) : Bool :=
  d.kind == 0 && decide (d.space ≤ 1) && decide (d.bmp ≤ 1) && decide (d.vecs ≤ maxVecs) && d.stride % 16 == 0 && d.inc % 16 == 0

/-- Slots per clock and K per block of the class of the widest operand (Table 17-1). -/
def stepClass (w : Nat) : Nat × Nat := if w ≤ 4 then (32, 512) else if w ≤ 8 then (16, 256) else (8, 256)

/-- Panels of 16 along K (R317). -/
def panels (k : Nat) : Nat := (k + 15) / 16

/-- Bytes of a run of elements. -/
def rowBytes (f : ElemFmt) (n : Nat) : Nat := (n * f.bits + 7) / 8

/-- A length rounded up to 16 bytes. -/
def up16 (n : Nat) : Nat := (n + 15) / 16 * 16

/-- Offset of a plane at a step, and the run of bytes there, in a space. -/
structure Region where
  space : Nat
  off : Int
  len : Nat
  deriving DecidableEq, Repr

/-- BASE and AUX of a plain tile at a step (R347). -/
def Desc.baseAt (d : Desc) (j : Nat) : Int := (d.base : Int) + (j : Int) * d.inc
def Desc.auxAt (d : Desc) (j : Nat) : Int := (d.aux : Int) + (j : Int) * d.ainc

/-- The scale plane of a plain operand at a step (R321). (DEDUCED, log entry 50, unsafe.) -/
def Desc.scaleAt (d : Desc) (j : Nat) : Int := d.auxAt j + (if d.bmp = 1 then ((up16 (2 * d.vecs * panels d.len) : Nat) : Int) else 0)

/-- Elements of a dense vector that memory holds: whole blocks of 16 where it is block-scaled (R39). -/
def Desc.held (d : Desc) (f : ElemFmt) : Nat := if f.bs then 16 * panels d.len else d.len

/-- The bytes that a request can read of an operand at a step (R321, R323). -/
def Desc.regions (d : Desc) (f : ElemFmt) (j : Nat) : List Region :=
  let r := fun (off : Int) (len : Nat) => ({ space := d.space, off := off, len := len } : Region)
  if d.kind = 1 then [r d.base (rowBytes f (d.h * d.w * d.c))]
  else
    (if d.bmp = 1 then [r (d.auxAt j) (2 * d.vecs * panels d.len), r (d.baseAt j) d.stride]
     else [r (d.baseAt j) ((d.vecs - 1) * d.stride + rowBytes f (d.held f))])
      ++ (if f.bs then [r (d.scaleAt j) (d.vecs * panels d.len * f.scaleBytes)] else [])

/-- The runs of bytes that a plain operand at a step consists of, without the gaps of STRIDE: offset and length (R321, R326). -/
def Desc.runs (d : Desc) (f : ElemFmt) (j : Nat) : List (Nat × Nat) :=
  (if d.bmp = 1 then [((d.auxAt j).toNat, 2 * d.vecs * panels d.len), ((d.baseAt j).toNat, d.stride)]
   else (List.range d.vecs).map fun v => ((d.baseAt j).toNat + v * d.stride, rowBytes f (d.held f)))
    ++ (if f.bs then [((d.scaleAt j).toNat, d.vecs * panels d.len * f.scaleBytes)] else [])

/-- Blocks of 16 in a row of a memory tile. -/
def Desc.blocks (d : Desc) : Nat := panels d.len

/-- The bytes of a memory tile (R348). -/
def Desc.memRegions (d : Desc) (f : ElemFmt) : List Region :=
  { space := d.space, off := d.base, len := (d.vecs - 1) * d.stride + rowBytes f (d.held f) }
    :: (if f.bs then [{ space := d.space, off := d.aux, len := d.vecs * d.blocks * f.scaleBytes }] else [])

/-! ### Reading operands (R321, R323) -/

/-- The memory of a request's operand: the workgroup's scratchpad, or its instance's cluster memory. -/
def State.matStore (s : State) (wg space : Nat) : BadStore :=
  if space = 0 then .wg wg else .inst (((s.wgAt wg).bind fun w => w.inst).getD 0)

/-- The bytes of that memory. -/
def State.matCells (s : State) (wg space : Nat) : Cells :=
  if space = 0 then ((s.wgAt wg).map fun w => w.cells).getD []
  else (((s.wgAt wg).bind s.instOf).map fun i => i.cells).getD []

/-- That memory written by a matrix request, which ends no reuse of a latched block (R324). -/
def State.matWrite (s : State) (wg space off : Nat) (bs : List Byte) : State :=
  if space = 0 then s.wgPut wg off bs
  else match (s.wgAt wg).bind s.instOf with
    | some i => s.instPut i.key off bs
    | none => s

/-- The pattern of element `k` of a run of bytes. -/
def elemAt (f : ElemFmt) (bs : List Byte) (k : Nat) : Nat :=
  fromBytes ((bs.drop (k * f.bits / 8)).take ((f.bits + 7) / 8)) / 2 ^ (k * f.bits % 8) % 2 ^ f.num.width

/-- A vector of an operand along K: the value of each element whose bitmap bit is 1. -/
abbrev MVec := List (Option XReal)

/-- An element's value under the scale entry of its panel (R38). -/
def scaled (f : ElemFmt) (entry : List Byte) (k code : Nat) : XReal :=
  if f.bs then blockValue code (entry.getD 0 0).toNat (if f.me && (entry.getD 1 0).getLsbD (k % 16 / 2) then 1 else 0) f.num
  else decodeFmt code f.num

/-- The scale entry of vector `j`, panel `p`. -/
def scaleEntry (m : Cells) (d : Desc) (f : ElemFmt) (step j p : Nat) : List Byte :=
  if f.bs then m.readBytes ((d.scaleAt step).toNat + (j * panels d.len + p) * f.scaleBytes) f.scaleBytes else []

/-- A vector of a dense operand: computed bitmaps (R321). (DEDUCED, log entry 50, unsafe.) -/
def denseVec (m : Cells) (d : Desc) (f : ElemFmt) (step j : Nat) : MVec :=
  let bs := m.readBytes ((d.baseAt step).toNat + j * d.stride) (rowBytes f (d.held f))
  (List.range d.len).map fun k =>
    let code := elemAt f bs k
    if (decodeFmt code f.num).isZero then none else some (scaled f (scaleEntry m d f step j (k / 16)) k code)

/-- One vector of a compressed operand, from the place `pos` in the value plane on: its elements and the next place (R321). -/
def packedVec (m : Cells) (d : Desc) (f : ElemFmt) (step j : Nat) (vals : List Byte) (pos : Nat) : Nat × MVec :=
  let bits := (List.range (panels d.len)).flatMap fun p =>
    let b := m.readNat ((d.auxAt step).toNat + 2 * (j * panels d.len + p)) 2
    (List.range 16).map fun i => b.testBit i
  let all := bits.zipIdx.foldl (fun (acc : Nat × MVec) x =>
    if x.1 then
      let v := if (acc.1 + 1) * f.bits ≤ d.stride * 8 then elemAt f vals acc.1 else 0
      (acc.1 + 1, acc.2 ++ [some (scaled f (scaleEntry m d f step j (x.2 / 16)) x.2 v)])
    else (acc.1, acc.2 ++ [none])) (pos, [])
  (all.1, all.2.take d.len)

/-- The vectors of a plain operand at a step. -/
def plainVecs (m : Cells) (d : Desc) (f : ElemFmt) (step : Nat) : List MVec :=
  if d.bmp = 1 then
    let vals := m.readBytes (d.baseAt step).toNat d.stride
    ((List.range d.vecs).foldl (fun (acc : Nat × List MVec) j =>
      let (pos, v) := packedVec m d f step j vals acc.1
      (pos, acc.2 ++ [v])) (0, [])).2
  else (List.range d.vecs).map fun j => denseVec m d f step j

/-- The index in the data of the element (m, k) of an unfolded A; none for padding (R323). -/
def unfoldPlace (d : Desc) (m kk : Nat) : Option Nat :=
  let q := d.row0 + m
  if d.oh * d.ow ≤ q ∨ d.fh * d.fw * d.c ≤ kk then none
  else
    let oy := q / d.ow
    let ox := q % d.ow
    let c := kk % d.c
    let t := kk / d.c
    let y : Int := (oy * d.sh + t / d.fw * d.dh : Nat) - (d.pt : Int)
    let x : Int := (ox * d.sw + t % d.fw * d.dw : Nat) - (d.pl : Int)
    if y < 0 ∨ (d.h : Int) ≤ y ∨ x < 0 ∨ (d.w : Int) ≤ x then none
    else some ((y.toNat * d.w + x.toNat) * d.c + c)

/-- The element (m, k) of an unfolded A (R323). -/
def unfoldAt (d : Desc) (f : ElemFmt) (data : List Byte) (m kk : Nat) : Option XReal :=
  (unfoldPlace d m kk).bind fun i =>
    let v := decodeFmt (elemAt f data i) f.num
    if v.isZero then none else some v

/-- The rows of A at a step, K long (R322, R323). -/
def aVecs (m : Cells) (d : Desc) (f : ElemFmt) (step k : Nat) : List MVec :=
  if d.kind = 1 then
    let data := m.readBytes d.base (rowBytes f (d.h * d.w * d.c))
    (List.range d.mm).map fun r => (List.range k).map fun i => unfoldAt d f data r (d.koff + step * k + i)
  else plainVecs m d f step

/-- The runs of bytes that a step reads of A. -/
def aRuns (d : Desc) (f : ElemFmt) (step k : Nat) : List (Nat × Nat) :=
  if d.kind = 1 then (List.range d.mm).flatMap fun r => (List.range k).filterMap fun i =>
    (unfoldPlace d r (d.koff + step * k + i)).map fun e => (d.base + e * f.bits / 8, (f.bits + 7) / 8)
  else d.runs f step

/-! ### Accumulation (R325) -/

/-- A vector cut into its panels. -/
def panelsOf (v : MVec) : List MVec := (List.range (panels v.length)).map fun p => (v.drop (16 * p)).take 16

/-- The products of a panel. -/
def products (a b : MVec) : List XReal := (a.zip b).filterMap fun x => match x with
  | (some u, some w) => some (u.mul w)
  | _ => none

/-- The accumulator element after one panel. -/
def addPanel (t : W32) (xs : List XReal) : W32 :=
  if xs.isEmpty then t
  else
    let x := sumTerms false xs
    if x.isZero then t
    else BitVec.ofNat 32 (roundFmt (XReal.add false (decodeFmt t.toNat fp32) (decodeFmt (roundFmt x fp32 0) fp32)) fp32 0)

/-- The accumulator element after one row of A meets one column of B: panels in ascending order. -/
def addRow (t : W32) (a b : List MVec) : W32 := (a.zip b).foldl (fun t x => addPanel t (products x.1 x.2)) t

/-- Element (m, n) of an accumulator tile as its list holds it. -/
def tileIndex (tile m n : Nat) : Nat := tile * 49152 + m * 384 + n
def tileRead : List (Nat × W32) → Nat → W32
  | [], _ => 0
  | (k, x) :: rest, i => if i = k then x else if i < k then 0 else tileRead rest i
def tileWrite : List (Nat × W32) → Nat → W32 → List (Nat × W32)
  | [], i, x => if x = 0 then [] else [(i, x)]
  | (k, y) :: rest, i, x =>
    if i < k then (if x = 0 then (k, y) :: rest else (i, x) :: (k, y) :: rest)
    else if i = k then (if x = 0 then rest else (i, x) :: rest)
    else (k, y) :: tileWrite rest i x

/-- A step's accumulation into a tile (R325). -/
def accumulate (ts : List (Nat × W32)) (tile : Nat) (a b : List MVec) : List (Nat × W32) :=
  let bs := b.map panelsOf
  a.zipIdx.foldl (fun ts r =>
    let row := panelsOf r.1
    bs.zipIdx.foldl (fun ts c =>
      let i := tileIndex tile r.2 c.2
      tileWrite ts i (addRow (tileRead ts i) row c.1)) ts) ts

/-- The bitmap of a vector over one panel. -/
def panelBits (v : MVec) : List Bool := v.map Option.isSome

/-- Slots streamed and skipped by a step (R326). -/
def slotsOf (a b : List MVec) : Nat × Nat :=
  let bs := b.map panelsOf
  let n := ((b.head?).map fun v => panels v.length).getD 0
  let run := (a.map fun r => ((panelsOf r).zipIdx.filter fun x =>
    let o := bs.foldl (fun (o : List Bool) v => (panelBits (v.getD x.2 [])).zipIdx.map fun y => y.1 || o.getD y.2 false) []
    ((panelBits x.1).zipIdx.any fun y => y.1 && o.getD y.2 false)).length).sum
  (run, a.length * n - run)

/-! ### The reservation table and its arbiter (R219, R220, R327) -/

/-- Entries that a core's requests take. -/
def Cluster.entriesOf (c : Cluster) (core : Nat) : Nat := (c.resv.filter fun r => r.core == core).length

/-- Whether a request of a core finds an entry (R219): four are kept for each core, and sixteen are shared. -/
def Cluster.hasEntry (c : Cluster) (cluster core : Nat) : Bool :=
  decide (c.entriesOf core < 4) || decide (((coresIn cluster).map fun k => c.entriesOf k - 4).sum < 16)

/-- Whether the group of a request is saved: the arbiter grants nothing to it (R363). -/
def State.reqSaved (s : State) (r : MatReq) : Bool :=
  (s.allGroups.find? fun g => g.wg == r.wg && g.gidx == r.gidx && g.slot != 64).any fun g => decide (g.status = GroupStatus.saved)

/-- Whether a request may be granted now (R327): no pass on its tile is under way, and its group's earlier requests have had their grants. -/
def Cluster.grantable (c : Cluster) (r : MatReq) : Bool :=
  !r.granted && !r.ended
    && c.resv.all fun q => (decide (r.id ≤ q.id) || q.wg != r.wg || q.gidx != r.gidx || q.ended || (q.granted && decide (q.steps ≤ q.done + 1)))
      && !(q.granted && r.fn != 22 && q.fn != 22 && q.tile == r.tile)

/-- A core's candidate for a sub-array (R220): its oldest request for it. -/
def State.candidate (s : State) (cluster sub core : Nat) : Option MatReq :=
  let c := s.cluster cluster
  ((c.resv.find? fun r => r.sub == sub && r.core == core && !r.granted && !r.ended && !s.reqSaved r).bind fun r => if c.grantable r then some r else none)

/-- The request that wins a free sub-array (R220): the highest priority, and among equals the cores take turns. -/
def State.winner (s : State) (cluster sub : Nat) : Option MatReq :=
  let a := (s.cluster cluster).subs.getD sub {}
  let first := match a.lastCore with
    | none => 0
    | some c => (c + 1) % 4
  let cands := ((List.range 4).map fun k => (first + k) % 4).filterMap fun j => s.candidate cluster sub (4 * cluster + j)
  cands.foldl (fun best r => match best with
    | none => some r
    | some b => if b.prio < r.prio then some r else some b) none

/-- A request's record changed. -/
def State.updReq (s : State) (cluster id : Nat) (f : MatReq → MatReq) : State :=
  s.updCluster cluster fun c => { c with resv := c.resv.map fun r => if r.id == id then f r else r }

/-- A sub-array's record changed. -/
def State.updSub (s : State) (cluster sub : Nat) (f : SubArray → SubArray) : State :=
  s.updCluster cluster fun c => { c with subs := modifyAt f sub c.subs }

/-- The formats of a request's descriptors. -/
def MatReq.fa (r : MatReq) : ElemFmt := (matFmt (Desc.fmt r.ta) r.da).getD { num := fp32 }
def MatReq.fb (r : MatReq) : ElemFmt := (matFmt (Desc.fmt r.tb) r.db).getD { num := fp32 }

/-- The block of B at a step as a latch would hold it now (R324). -/
def State.blockOf (s : State) (r : MatReq) (step : Nat) : Latch :=
  let d : Desc := r.tb
  let runs := d.runs r.fb step
  { store := s.matStore r.wg d.space, desc := setField (setField (setField (setField d 77 22 (d.baseAt step).toNat) 15 22 (d.auxAt step).toNat) 37 20 0) 0 15 0
    fmt := r.db, runs := runs, cells := (s.matCells r.wg d.space).filter fun c => runs.any fun x => decide (x.1 ≤ c.1) && decide (c.1 < x.1 + x.2) }

/-- The element format with which a block was latched (R33). -/
def Latch.elem (l : Latch) : ElemFmt := (matFmt (Desc.fmt l.desc) l.fmt).getD { num := fp32 }

/-- The columns of a latched block. -/
def Latch.vecs (l : Latch) : List MVec := plainVecs l.cells l.desc l.elem 0

/-- Cycles to latch a block: 512 of its bytes a clock (R326). -/
def Latch.cost (l : Latch) : Nat := ((l.runs.map fun x => x.2).sum + 511) / 512

/-- Whether a latch holds the block that another record names: the same memory, place, format code and shape (R324). (DEDUCED, log entry 79, safe.) -/
def Latch.same (l m : Latch) : Bool := decide (l.store = m.store) && l.desc == m.desc

/-- The front latch for a step that streams a block, and the block if it must be latched first. At a step boundary a back latch that holds the block
comes to the front (`mwld` or the step before has filled it); a front latch that holds it unwritten is used again. (DEDUCED, log entry 79, safe.) -/
def SubArray.feed (x : SubArray) (own : Latch) (first : Bool) : SubArray × Option Latch :=
  if x.back.any fun l => l.same own && !(first && l.spent) then ({ x with front := x.back, back := none }, none)
  else if x.front.any fun l => l.same own && !l.spent then (x, none)
  else ({ x with front := some own, back := none }, some own)

/-- The back latch filled with the next step's block while the front latch streams, and that block if it is latched: none where the front latch will
be used again (R324). (DEDUCED, log entry 79, safe.) -/
def SubArray.ahead (x : SubArray) (next : Latch) : SubArray × Option Latch :=
  if x.front.any fun l => l.same next && !l.spent then (x, none) else ({ x with back := some next }, some next)

/-- The latch for a step of an `mloop`: by R324 a write to what the first step reads of A leaves the latched block as it is, by R393 the stamp shows
that the block is latched again; a free bit decides. (DEDUCED, log entry 79, safe.) -/
def Latch.forStep (l : Latch) (r : MatReq) : Latch :=
  let open_ := decide (r.done = 0) && decide (Desc.space r.ta = Desc.space r.tb) && !l.near.isEmpty && (Config.freeByte r.mix).getLsbD 1
  { l with spent := l.spent || (open_ && (aRuns r.ta r.fa 0 (Desc.len r.tb)).any fun x => l.near.any fun y =>
      decide (x.1 < y.1 + y.2) && decide (y.1 < x.1 + x.2)) }

/-- The latches of a sub-array for a step of an `mloop`, its own block if it is latched now, and the next one if it is. -/
def State.latching (s : State) (cluster : Nat) (r : MatReq) : SubArray × Option Latch × Option Latch :=
  let x := (s.cluster cluster).subs.getD r.sub {}
  let (x, own) := SubArray.feed { x with front := x.front.map fun l => l.forStep r, back := x.back.map fun l => l.forStep r } (s.blockOf r r.done) (r.done == 0)
  if r.done + 1 < r.steps then
    let (x, next) := x.ahead (s.blockOf r (r.done + 1))
    (x, own, next)
  else (x, own, none)

/-- The cycles of a pass and their phases (Table 17-4, R330): copy-in, compute, copy-out. -/
structure PassCost where
  copyIn : Nat := 0
  compute : Nat := 0
  copyOut : Nat := 0
  deriving DecidableEq, Repr
def PassCost.total (c : PassCost) : Nat := 64 + c.copyIn + c.compute + c.copyOut

/-- A step of an `mloop` (R325, R347): the state with T accumulated and the next block latched, its cost, and its slots. -/
def State.loopStep (s : State) (cluster : Nat) (r : MatReq) : State × PassCost × Nat × Nat :=
  let db : Desc := r.tb
  let da : Desc := r.ta
  let (x, own, next) := s.latching cluster r
  let held := x.front.getD (s.blockOf r r.done)
  let b := held.vecs
  let a := aVecs (s.matCells r.wg da.space) da r.fa r.done db.len
  let (run, skip) := slotsOf a b
  let rate := (stepClass (max r.fa.num.width held.elem.num.width)).1
  let compute := (run + rate - 1) / rate
  let ownCost := if r.done = 0 then (own.map Latch.cost).getD 0 else 0
  let s := s.updSub cluster r.sub fun y => { y with front := x.front, back := x.back }
  (s.updCluster cluster fun c => { c with tiles := accumulate c.tiles r.tile a b },
    { copyIn := ownCost + ((next.map Latch.cost).getD 0 - compute), compute := compute }, run, skip)

/-- The elements of a tile in a box of rows and columns. -/
def box (m n : Nat) : List (Nat × Nat) := (List.range m).flatMap fun i => (List.range n).map fun j => (i, j)

/-- Where an accumulator tile lies in its cluster's accumulator memory, and a row of it (R319). -/
def tileOff (tile row : Nat) : Nat := 196608 * tile + 1536 * row

/-- `mzero`'s pass (R348). -/
def Cluster.zeroTile (c : Cluster) (tile : Nat) : Cluster :=
  { c with tiles := c.tiles.filter (fun x => x.1 / 49152 != tile), poisoned := c.poisoned.filter fun x => x != tile }
def State.zeroTile (s : State) (cluster tile : Nat) : State := (s.updCluster cluster fun c => c.zeroTile tile).repair (.acc cluster) (tileOff tile 0) 196608

/-- `mput`'s pass (R348); a tile written in full is no longer poisoned (R329). -/
def State.putTile (s : State) (cluster : Nat) (r : MatReq) : State :=
  let d : Desc := r.tb
  let m := s.matCells r.wg d.space
  let s := (List.range d.vecs).foldl (fun s i => s.repair (.acc cluster) (tileOff r.tile i) (4 * d.len)) s
  s.updCluster cluster fun c =>
    { c with
      tiles := (box d.vecs d.len).foldl (fun ts x =>
        tileWrite ts (tileIndex r.tile x.1 x.2) (BitVec.ofNat 32 (m.readNat (d.base + x.1 * d.stride + 4 * x.2) 4))) c.tiles
      poisoned := if d.vecs = 128 ∧ d.len = 384 then c.poisoned.filter fun x => x != r.tile else c.poisoned }

/-- A row of element patterns written into its containers: a nibble beside them keeps its value. -/
def packRow (f : ElemFmt) (old : Nat) (codes : List Nat) : Nat :=
  (codes.zipIdx.foldl (fun (x : BitVec 4096) c => setField x (c.2 * f.bits) f.bits (c.1 % 2 ^ f.num.width)) (BitVec.ofNat 4096 old)).toNat

/-- Those of some bytes that are picked written to the memory of an operand. -/
def State.matPick (s : State) (pick : Nat → Bool) (wg space off : Nat) (bs : List Byte) : State :=
  s.matWrite wg space off ((bs.zip ((s.matCells wg space).readBytes off bs.length)).mapIdx fun k x => if pick (off + k) then x.1 else x.2)

/-- The rows that `mget` and `mstore` write (R348), of them the bytes that are picked. (DESIGN CHOICE, log entry 51, safe.) -/
def State.storeTile (s : State) (cluster : Nat) (r : MatReq) (pick : Nat → Bool) : State :=
  let put := fun (s : State) => s.matPick pick
  let d : Desc := r.tb
  let ts := (s.cluster cluster).tiles
  (List.range d.vecs).foldl (fun s i =>
    let t := fun j => if j < d.len then (tileRead ts (tileIndex r.tile i j)).toNat else 0
    if r.fn = 25 then
      put s r.wg d.space (d.base + i * d.stride) ((List.range d.len).flatMap fun j => toBytes 4 (t j))
    else
      let f := r.fb
      let num := f.num.withSat r.sat
      let off := d.base + i * d.stride
      if f.bs then
        (List.range d.blocks).foldl (fun s b =>
          let q := blockScale ((List.range 16).map fun k => decodeFmt (t (16 * b + k)) fp32) num f.me r.mode
          let n := rowBytes f 16
          let at_ := off + b * n
          let s := put s r.wg d.space at_ (toBytes n (packRow f 0 q.codes))
          let mu := (q.mu.zipIdx.map fun x => x.1 * 2 ^ x.2).sum
          put s r.wg d.space (d.aux + (i * d.blocks + b) * f.scaleBytes) (toBytes 1 q.x ++ (if f.me then toBytes 1 mu else []))) s
      else
        let n := rowBytes f d.len
        let codes := (List.range d.len).map fun j => roundFmt (decodeFmt (t j) fp32) num r.mode
        let whole := List.range ((n + 511) / 512)
        whole.foldl (fun s w =>
          let per := 4096 / f.bits
          let k := min 512 (n - 512 * w)
          let old := (s.matCells r.wg d.space).readNat (off + 512 * w) k
          put s r.wg d.space (off + 512 * w) (toBytes k (packRow f old ((codes.drop (w * per)).take per)))) s) s

/-- Whether a byte of a memory tile is written as its pass begins: the others are as it ends, so that an access meanwhile finds each of them old or new
(R348, R393). -/
def MatReq.early (r : MatReq) (off : Nat) : Bool := (Config.freeByte (r.mix + off)).getLsbD 0

/-- A pass performed (R325, R347, R348): the state, the cost, and the slots streamed and skipped. -/
def State.pass (s : State) (cluster : Nat) (r : MatReq) : State × PassCost × Nat × Nat :=
  let d : Desc := r.tb
  let moved := (4 * d.vecs * d.len + 47) / 48
  match r.fn with
  | 22 => (s.updSub cluster r.sub fun x => { x with back := some (s.blockOf r 0) }, { copyIn := (s.blockOf r 0).cost }, 0, 0)
  | 23 => s.loopStep cluster r
  | 24 => (s.zeroTile cluster r.tile, {}, 0, 0)
  | 26 => (s.putTile cluster r, { copyOut := moved }, 0, 0)
  | _ => (s.storeTile cluster r (if s.defer then r.early else fun _ => true), { copyOut := moved }, 0, 0)

/-- Whether an uncorrectable error stands in what a request's next pass reads (R329): a step reads its rows of A, the blocks that it latches and the
elements that it adds to. -/
def State.operandsBad (s : State) (cluster : Nat) (r : MatReq) : Bool :=
  let tile := fun (rows cols : Nat) => (List.range rows).any fun i => s.spoiled (.acc cluster) (tileOff r.tile i) (4 * cols)
  let bad := fun (st : BadStore) (runs : List (Nat × Nat)) => runs.any fun x => x.2 != 0 && s.spoiled st x.1 x.2
  !s.bad.isEmpty && match r.fn with
    | 22 => bad (s.blockOf r 0).store (s.blockOf r 0).runs
    | 23 =>
      let (_, own, next) := s.latching cluster r
      bad (s.matStore r.wg (Desc.space r.ta)) (aRuns r.ta r.fa r.done (Desc.len r.tb)) || ([own, next].any fun l => l.any fun l => bad l.store l.runs)
        || tile (Desc.rows r.ta) (Desc.vecs r.tb)
    | 26 => bad (s.matStore r.wg (Desc.space r.tb)) ((List.range (Desc.vecs r.tb)).map fun i => (Desc.base r.tb + i * Desc.stride r.tb, 4 * Desc.len r.tb))
    | 24 => false
    | _ => tile (Desc.vecs r.tb) (Desc.len r.tb)

/-- A request that an uncorrectable error ends: its accumulator tile is poisoned (R329). -/
def State.poisonReq (s : State) (cluster : Nat) (r : MatReq) : State :=
  let s := s.updReq cluster r.id fun r => { r with status := 1 }
  if r.fn = 22 then s else s.updCluster cluster fun c => { c with poisoned := if c.poisoned.elem r.tile then c.poisoned else c.poisoned ++ [r.tile] }

/-- A free sub-array granted to the winner, whose pass begins (R220). -/
def State.grantSub (s : State) (cluster sub : Nat) : Option State :=
  if ((s.cluster cluster).subs.getD sub {}).busy.isSome then none
  else (s.winner cluster sub).map fun r =>
    let r := { r with mix := s.free }
    let bad := s.operandsBad cluster r
    let s := { s with free := s.free + 2 ^ 23 }
    let (s, cost, run, skip) := s.pass cluster r
    let s := if bad then s.poisonReq cluster r else s
    let s := s.updSub cluster sub fun x => { x with busy := some r.id, lastCore := some (r.core % 4) }
    s.updReq cluster r.id fun r =>
      { r with granted := true, mix := s.free - 2 ^ 23, due := s.clock + cost.total, run := r.run + run, skip := r.skip + skip
               copyIn := r.copyIn + cost.copyIn, compute := r.compute + cost.compute, copyOut := r.copyOut + cost.copyOut }

/-! ### Retirement and stamp records (R330) -/

/-- The stamp record of a request that retires now (Table 17-5). -/
def State.stampBytes (s : State) (cluster : Nat) (r : MatReq) : List Byte :=
  let phases := r.copyIn + r.compute + r.copyOut
  let src := s.sourceNumber (cluster / 8) (.matrixEngine (cluster % 8))
  let status := if r.status ≠ 0 then r.status else if (s.launchOf r.launch).any fun l => l.killed then 2 else 0
  toBytes 8 r.tacc.toNat ++ toBytes 8 s.tstamp.toNat ++ toBytes 8 (r.pc.toNat % 2 ^ 57) ++ toBytes 4 (src + r.slot * 2 ^ 20 + r.sub * 2 ^ 26)
    ++ toBytes 4 (r.tile + r.fn * 2 ^ 5) ++ toBytes 4 r.copyIn ++ toBytes 4 (s.clock - r.accepted - phases) ++ toBytes 4 r.compute
    ++ toBytes 4 r.copyOut ++ toBytes 4 r.done ++ toBytes 4 r.run ++ toBytes 4 r.skip ++ toBytes 4 status

/-- Paths of the issuing group parked in `eyield` on its matrix requests made ready when those have retired (R338). -/
def State.wakeMatrix (s : State) (cluster : Nat) (r : MatReq) : State :=
  let left := (s.cluster cluster).resv.filter fun q => q.wg == r.wg && q.gidx == r.gidx
  let hit := fun (e : SaveEntry) => decide (e.state = .parked (.eyield 0)) && left.all fun q => decide (e.deadline ≤ q.id)
  s.mapGroups fun g =>
    if g.wg == r.wg && g.gidx == r.gidx && g.slot != 64 && g.save.any hit then
      Group.refill s.clock { g with save := g.save.map fun e => if hit e then e.readied else e }
    else g

/-- A request retires: its entry is free, and those that wait for it go on (R219, R348). -/
def State.retire (s : State) (cluster : Nat) (r : MatReq) : State :=
  let s := s.updCluster cluster fun c => { c with resv := c.resv.filter fun q => q.id != r.id }
  let s := if r.status = 1 then s.mapGroups fun g =>
      if g.wg == r.wg && g.gidx == r.gidx && g.slot != 64 then { g with matFailed := some (min r.id (g.matFailed.getD r.id)) } else g
    else s
  s.wakeMatrix cluster r

/-- The sender of a request's stamp record: its group is told where that is lost. -/
def State.stampSender (s : State) (r : MatReq) : Sender :=
  { ident := engineIdent r.core, pc := BitVec.ofNat 64 (2 ^ 32 + r.id), launch := r.launch
    late := (s.allGroups.find? fun g => g.wg == r.wg && g.gidx == r.gidx && g.slot != 64).map Group.ident }

/-- A request whose passes are done: its record is written, and it retires once that write is performed (R330). -/
def State.endReq (s : State) (cluster : Nat) (r : MatReq) : State :=
  match r.stamp with
  | none => s.retire cluster r
  | some (pte, pa) =>
    let s := s.engineWrite r.core (s.stampSender r) { leaf := { pte := pte, level := 0 }, va := r.stampVa, pa := pa, len := 64 } (s.stampBytes cluster r)
    if s.engineWaits r.core then s.updReq cluster r.id fun q => { q with ended := true } else s.retire cluster r

/-- The request of a sub-array whose record has been written and is performed by now. -/
def State.stamped (s : State) (cluster sub : Nat) : Option MatReq :=
  (s.cluster cluster).resv.find? fun r => r.sub == sub && r.ended && !s.engineWaits r.core

/-- The pass on a sub-array ends (R326): a request retires after its last pass, or at once when an error ended it (R329). -/
def State.passDone (s : State) (cluster sub : Nat) : State :=
  match ((s.cluster cluster).subs.getD sub {}).busy.bind fun id => (s.cluster cluster).resv.find? fun r => r.id == id with
  | none => s
  | some r =>
    let s := s.updSub cluster sub fun x => { x with busy := none }
    let s := if s.defer && (r.fn == 25 || r.fn == 27) then s.storeTile cluster r fun k => !r.early k else s
    let r := { r with granted := false, done := r.done + 1 }
    let s := s.updReq cluster r.id fun _ => r
    if r.steps ≤ r.done ∨ r.status = 1 then s.endReq cluster r else s

/-- The clock moved on by a pass that is carried out at once. -/
def State.spend (s : State) (cycles : Nat) : State :=
  { s with clock := s.clock + cycles, tstamp := s.tstamp + BitVec.ofNat 64 (cycles * s.dtNs / max 1 s.dtCycles) }

/-- With nothing deferred, passes of a cluster carried out one after the other while some request can be granted; `n` bounds them. -/
def State.runMatrix (cluster : Nat) : Nat → State → State
  | 0, s => s
  | n + 1, s =>
    match (List.range 4).findSome? fun sub => (s.grantSub cluster sub).map fun s => (sub, s) with
    | none => s
    | some (sub, s') =>
      let due := ((s'.cluster cluster).resv.find? fun r => r.granted && r.sub == sub).map fun r => r.due
      State.runMatrix cluster n ((s'.spend (due.getD s'.clock - s'.clock)).passDone cluster sub)

/-- An uncorrectable error at a byte of a cluster's accumulator memory (R329): a pass that reads its tile meets it at once, others when they are
granted. (DEDUCED, log entry 62, safe.) -/
def State.tileError (s : State) (cluster off : Nat) : State :=
  let hit := fun (r : MatReq) => r.granted && r.tile == off / 196608 && (r.fn == 23 || r.fn == 25 || r.fn == 27)
  (((s.cluster cluster).resv.filter hit).foldl (fun s r => s.poisonReq cluster r) s).spoil (.acc cluster) off

/-! ### Acceptance (R345, R346, R354) -/

/-- The handle of an accumulator register checked (R345): its tile, or SPAD_BOUNDS. -/
def State.tileOf (s : State) (acc : Nat) : Res Nat :=
  let h := s.g.ac.getD acc 0
  let n := field h 0 5
  if h.getLsbD 5 && ((s.ctl.tilemask.getD (clusterOf s.g.core) 0).getLsbD n) then .ok n else trapNow codeSpad

/-- The bounds of regions (R321): SPAD_BOUNDS at the offset of the first that is not within its allocation. -/
def State.checkRegions (s : State) (rs : List Region) : Res Unit :=
  match rs.find? fun r => r.len != 0 && (decide (r.off < 0) || decide ((s.spaceExtent (r.space + 1) : Int) < r.off + (r.len : Int))) with
  | none => .ok ()
  | some r => .error (.trap { code := codeSpad, addr := BitVec.ofInt 64 r.off })

/-- The stamp address checked as a store of 64 bytes by Table 03-7 (R346). -/
def State.checkStamp (s : State) (sa : Nat) : Res (State × Option (W64 × Nat)) :=
  if sa = 0 then .ok (s, none)
  else do
    let p ← s.checkPath .store false 64 (s.g.srcS sa)
    .ok (s.fillAll s.who .store [p], some (p.leaf.pte, p.pa))

/-- ECC_UNCORR where a request would read a poisoned tile (R329); the manual gives an accumulator tile no physical address, so xaddr is free.
(DEDUCED, log entry 49, safe.) -/
def State.checkTile (s : State) (fn tile : Nat) : Res Unit :=
  if (fn = 23 ∨ fn = 25 ∨ fn = 27) ∧ (s.cluster (clusterOf s.g.core)).poisoned.elem tile then
    .error (.trapAfter { s with free := s.free + 1 } { code := codeEcc, addr := Config.freeDouble s.free })
  else .ok ()

/-- Whether atomics of the group to an operand at its first or its last step, or in between, are still in a queue (R136, R328). -/
def State.operandsBusy (s : State) (first last : List Region) : Bool :=
  (first.zip last).any fun x =>
    let lo := (min x.1.off x.2.off).toNat
    let hi := (max (x.1.off + (x.1.len : Int)) (x.2.off + (x.2.len : Int))).toNat
    s.chipBusy .load (if x.1.space = 0 then .scratch else .cluster) (hi - lo) [lo]

/-- A request that has passed its checks accepted (R219, R346): it waits for an entry; `mloop` of no steps retires at once. -/
def State.acceptReq (s : State) (sa : Nat) (first last : List Region) (r : MatReq) : Res State :=
  let k := clusterOf s.g.core
  if !(s.cluster k).hasEntry k s.g.core then .error (.wait .matrixResv)
  else if s.operandsBusy first last then .error (.wait .memDep)
  else
    let w := s.who
    let r := { r with id := s.nextId, core := s.g.core, wg := s.g.wg, gidx := s.g.gidx, slot := s.g.slot, pc := s.cur.pc, launch := s.g.launch
                      prio := s.g.prio, accepted := s.clock, tacc := s.tstamp, stampVa := if sa = 0 then 0 else s.g.srcS sa
                      asid := w.asid, root := w.root, sup := w.sup }
    let s := { s with nextId := s.nextId + 1 }.updCluster k fun c => { c with resv := c.resv ++ [r] }
    if r.steps = 0 then .ok (s.endReq k r)
    else .ok (if s.defer then s else State.runMatrix k ((s.cluster k).resv.map fun q => q.steps).sum s)

/-- A request under construction. -/
def blankReq (fn sub : Nat) : MatReq := { id := 0, core := 0, wg := 0, gidx := 0, slot := 0, pc := 0, launch := 0, prio := 0, fn := fn, sub := sub }

/-- The format register that a descriptor's FMT names; 0 where it names none. -/
def Group.fmtFor (g : Group) (d : Desc) : W32 := if 16 ≤ d.fmt then g.fmt.getD (d.fmt - 16) 0 else 0

/-- A requirement on a description: FMT_BAD where it fails (R320). -/
def fmtNeeds (ok : Bool) : Res Unit := trapIf (!ok) codeFmt

/-- `mwld` (R347). -/
def execMwld (sa sub tb : Nat) (s : State) : Out :=
  Form.run { srcs := [rs sa, rt tb], noTx := true } s fun _ t => do
    let d : Desc := t.g.t.getD tb 0
    let reg := t.g.fmtFor d
    match matFmt d.fmt reg with
    | none => trapNow codeFmt
    | some f => do
      fmtNeeds (d.plainOk 384 && decide (d.len ≤ (stepClass f.num.width).2))
      t.checkRegions (d.regions f 0)
      let (t, stamp) ← t.checkStamp sa
      t.acceptReq sa (d.regions f 0) (d.regions f 0) { blankReq 22 sub with tb := d, db := reg, stamp := stamp }

/-- Whether A and B fit each other (R347). -/
def loopOk (a b : Desc) (fa fb : ElemFmt) : Bool :=
  let k := (stepClass (max fa.num.width fb.num.width)).2
  b.plainOk 384 && decide (b.len ≤ k)
    && (if a.kind = 1 then decide (a.space ≤ 1) && !fa.bs && decide (1 ≤ a.oh) && decide (1 ≤ a.ow) && b.len == k
        else a.plainOk 128 && a.len == b.len)

/-- The accumulator register that the required `hint.ext` of an `mloop` names. -/
def Hints.acc (h : Hints) : Nat := (h.ext.map fun e => e.reg).getD 0

/-- `mloop` (R347). (DEDUCED, log entry 49, safe.) -/
def execMloop (sa sb sub ta tb : Nat) (s : State) : Out :=
  Form.run { srcs := [rs sa, rs sb, rt ta, rt tb], ext := [4], extNeeded := true, noTx := true } s fun h t => do
    let n ← t.tileOf h.acc
    let a : Desc := t.g.t.getD ta 0
    let b : Desc := t.g.t.getD tb 0
    let ra := t.g.fmtFor a
    let rb := t.g.fmtFor b
    let steps := field (t.g.srcS sb) 0 16
    match matFmt a.fmt ra, matFmt b.fmt rb with
    | some fa, some fb => do
      fmtNeeds (loopOk a b fa fb)
      let first := if steps = 0 then [] else a.regions fa 0 ++ b.regions fb 0
      let last := if steps = 0 then [] else a.regions fa (steps - 1) ++ b.regions fb (steps - 1)
      t.checkRegions (first ++ last)
      let (t, stamp) ← t.checkStamp sa
      if steps ≠ 0 then t.checkTile 23 n
      t.acceptReq sa first last { blankReq 23 sub with tile := n, ta := a, tb := b, da := ra, db := rb, steps := steps, stamp := stamp }
    | _, _ => trapNow codeFmt

/-- `mzero` (R348). -/
def execMzero (sa sub acc : Nat) (s : State) : Out :=
  Form.run { srcs := [rs sa, ra acc], noTx := true } s fun _ t => do
    let n ← t.tileOf acc
    let (t, stamp) ← t.checkStamp sa
    t.acceptReq sa [] [] { blankReq 24 sub with tile := n, stamp := stamp }

/-- Whether a descriptor is a memory tile (R348). -/
def Desc.memOk (d : Desc) : Bool := d.plainOk 128 && d.bmp == 0 && decide (d.len ≤ 384)

/-- `mget` and `mput`: FP32 elements as they are (R348). -/
def moveForm (fn sa sub t acc : Nat) (s : State) : Out :=
  Form.run { srcs := [rs sa, rt t, ra acc], noTx := true } s fun _ u => do
    let n ← u.tileOf acc
    let d : Desc := u.g.t.getD t 0
    fmtNeeds (d.memOk && d.fmt == 0)
    let rs := d.memRegions { num := fp32 }
    u.checkRegions rs
    let (u, stamp) ← u.checkStamp sa
    u.checkTile fn n
    u.acceptReq sa rs rs { blankReq fn sub with tile := n, tb := d, stamp := stamp }

/-- `mget` (R348). (DEDUCED, log entry 49, safe.) -/
def execMget (sa sub t acc : Nat) (s : State) : Out := moveForm 25 sa sub t acc s
/-- `mput` (R348). -/
def execMput (sa sub t acc : Nat) (s : State) : Out := moveForm 26 sa sub t acc s

/-- `mstore` (R348). (DEDUCED, log entry 49, safe.) -/
def execMstore (sa sub t acc : Nat) (s : State) : Out :=
  Form.run { srcs := [rs sa, rt t, ra acc], rnd := true, sat := true, noTx := true } s fun h u => do
    let n ← u.tileOf acc
    let d : Desc := u.g.t.getD t 0
    let reg := u.g.fmtFor d
    match matFmt d.fmt reg with
    | none => trapNow codeFmt
    | some f => do
      fmtNeeds (d.memOk && !(decide (16 ≤ d.fmt) && h.mods.sat))
      u.checkRegions (d.memRegions f)
      let (u, stamp) ← u.checkStamp sa
      u.checkTile 27 n
      u.acceptReq sa (d.memRegions f) (d.memRegions f) { blankReq 27 sub with tile := n, tb := d, db := reg, mode := h.mods.mode, sat := h.mods.sat, stamp := stamp }

/-! ### Tile and accumulator registers (R345) -/

/-- `tdesc` on a tile register. -/
def execTdescTWrite (sa sb t : Nat) (s : State) : Out :=
  Form.pure_ { srcs := [rs sa, rs sb], dsts := [rt t], noTx := true } s fun _ u =>
    { u with g := { u.g with t := u.g.t.set t (BitVec.ofNat 128 ((u.g.srcS sa).toNat + (u.g.srcS sb).toNat * 2 ^ 64)) } }

/-- `tdesc.r` on a tile register; with sa = sb, the upper half is written last. (DEDUCED, log entry 32, safe.) -/
def execTdescTRead (sa sb t : Nat) (s : State) : Out :=
  Form.pure_ { srcs := [rt t], dsts := [rs sa, rs sb], noTx := true } s fun _ u =>
    let d := u.g.t.getD t 0
    (u.putS true true sa (BitVec.ofNat 64 (field d 0 64))).putS true true sb (BitVec.ofNat 64 (field d 64 64))

/-- `tdesc` on an accumulator register. -/
def execTdescAWrite (sa acc : Nat) (s : State) : Out :=
  Form.pure_ { srcs := [rs sa], dsts := [ra acc], noTx := true } s fun _ u =>
    { u with g := { u.g with ac := u.g.ac.set acc (BitVec.ofNat 64 (field (u.g.srcS sa) 0 6)) } }

/-- `tdesc.r` on an accumulator register. -/
def execTdescARead (sa acc : Nat) (s : State) : Out :=
  Form.pure_ { srcs := [ra acc], dsts := [rs sa], noTx := true } s fun _ u => u.putS true true sa (u.g.ac.getD acc 0)

/-! ### Events -/

/-- SUBARRAY_GRANT (R220). (DESIGN CHOICE, log entry 51, safe.) -/
def execSubarrayGrant (cluster sub : Nat) (s : State) : Out := .next ((s.grantSub cluster sub).getD s)

/-- MATRIX_PASS_DONE (R326, R330), once the pass's cycles have run, or the stamp record of a request has been performed.
(DESIGN CHOICE, log entry 51, safe.) -/
def execMatrixPassDone (cluster sub : Nat) (s : State) : Out :=
  .next (if (s.cluster cluster).resv.any fun r => r.granted && r.sub == sub && decide (r.due ≤ s.clock) then s.passDone cluster sub
    else ((s.stamped cluster sub).map fun r => s.retire cluster r).getD s)

end Sys2Proof.Machine
end

