-- ==== Sys2Proof/Machine/System.lean ====
section
/-!
DEFINITION. Supervisor forms: `rfe`, `tlbi`, `ctxsv`, `ctxld`, `sysc` and `dump` (R61, R62, R211, R349 to R352, R359, R372).
-/
namespace Sys2Proof.Machine
open Sys2Proof

/-! ### rfe (R359) -/

/-- The trap context of a core goes on to its next event, or to the entry for no event (R355). -/
def State.nextRoutine (s : State) (core : Nat) : State :=
  let s := s.updCore core fun k => { k with serving := none, served := none, emu := none }
  let t := s.startEvent core
  if (t.core core).serving.isSome then t
  else t.updGroup core 64 (startContext ((t.core core).vbase + BitVec.ofNat 64 (64 * 63)) t.clock)

/-- ACTION of `rfe` applied to a stopped or held group. The routine that serves a group's save request has saved it when it ends with ACTION 3 (R363).
(DEDUCED, log entry 23, unsafe.) (DEDUCED, log entry 67, unsafe.) -/
def State.applyAction (s : State) (core : Nat) (g : Group) : State :=
  let k := s.core core
  match field k.xcause 30 2 with
  | 0 => (s.updGroup core g.slot (Group.resume s.clock (k.xcause.getLsbD 17) k.xpc (k.xcause.getLsbD 29))).trySort g.wg
  | 1 => s.faultLaunch core g
  | 2 => s.killLaunch g.launch
  | _ => if k.served.any fun e => decide (e.code = 0) && e.slot == g.slot then s.saveGroup core g.slot else s.updGroup core g.slot fun g => { g with status := .held }

/-- The end of a routine of a core (R359): ACTION applied to the group that its trap registers name, and the trap context goes on. -/
def State.endRoutine (s : State) (c : Nat) : State :=
  let s := match s.groupAt c (field (s.core c).xcause 18 6) with
    | some g => if g.status = GroupStatus.stopped ∨ g.status = GroupStatus.held then s.applyAction c g else s
    | none => s
  let s := s.updCore c fun k => { k with xcause := setField k.xcause 29 3 0 }
  s.nextRoutine c

/-- `rfe` (R349, R359): in a trap context its path is replaced by the next routine; another supervisor group goes on at the next word.
(DEDUCED, log entry 24, safe.) (DEDUCED, log entry 25, safe.) -/
def execRfe (s : State) : Out :=
  Form.control { sup := true } s fun _ t => .ok ((if t.g.slot = 64 then t else t.advance).endRoutine t.g.core)

/-! ### tlbi (R61, R62) -/

/-- Whether a `tlbi` of a kind selects a TLB entry (Table 03-8). -/
def TlbEntry.selected (kind asid va : Nat) (e : TlbEntry) : Bool :=
  match kind with
  | 0 => !pteBit e.pte 6 && e.asid == asid
  | 1 => (e.asid == asid || pteBit e.pte 6) && e.base == va / pageSize e.level * pageSize e.level
  | 2 => !pteBit e.pte 6
  | _ => true

/-- Selected entries leave every TLB, and every page-walk cache is cleared. -/
def State.invalidateTlb (s : State) (kind asid va : Nat) : State :=
  { s with tlbs := s.tlbs.filter (fun e => !e.selected kind asid va), walkCache := [] }

/-- Whether nothing is on its way that was translated before (R62): no store waits in a die's buffer or for a sharer, no request outside the module is
pending or unacknowledged, and no unit stands in a vat intake queue. -/
def State.translatedDone (s : State) : Bool :=
  s.stores.isEmpty && s.msgs.isEmpty && s.modAcks.isEmpty && !(s.fabric.any fun r => r.posted || decide (r.status = .pending)) && s.clusters.all fun c => c.intake.isEmpty

/-- The translations held for stamp records made anew (R62); a record whose page is gone is not written. (DESIGN CHOICE, log entry 80, unsafe.) -/
def State.restamp (s : State) : State :=
  let again := fun (r : MatReq) =>
    match s.parts { core := r.core, asid := r.asid, root := r.root, sup := r.sup, watched := false } .store { space := 0, addr := r.stampVa, len := 64 } with
    | .ok (p :: _) => { r with stamp := some (p.leaf.pte, p.pa) }
    | _ => { r with stamp := none }
  { s with clusters := s.clusters.map fun c => { c with resv := c.resv.map fun r => if r.stamp.isSome && !r.ended then again r else r } }

/-- `tlbi` (R62): the module's buffered stores go out and the group's earlier accesses are performed; then the entries are removed. Its completion is
an event of its own when steps are deferred. (DESIGN CHOICE, log entry 80, unsafe.) -/
def execTlbi (sa sb kind : Nat) (s : State) : Out :=
  Form.run { srcs := [rs sa, rs sb], sup := true, iin := decide (4 ≤ kind) } s fun _ t =>
    if !t.stores.isEmpty then .error (.pend ((List.range 4).foldl State.drainDie t) .memHold)
    else if !t.performed t.g then .error (.wait .memHold)
    else
      let u := t.invalidateTlb kind (field (t.g.srcS sb) 0 12) (field (t.g.srcS sa) 0 57)
      if !t.defer then .ok u.restamp
      else if t.g.tlbiWait.elem t.g.inB then .error (.wait .memHold)
      else .error (.pend { u with g := { u.g with tlbiWait := u.g.tlbiWait ++ [u.g.inB] } } .memHold)

/-- TLBI_COMPLETE (R62): once every access that was translated before has been performed, the waiting path of a group goes on.
(DESIGN CHOICE, log entry 80, unsafe.) -/
def execTlbiComplete (core slot : Nat) (s : State) : Out :=
  match s.groupAt core slot with
  | none => .next s
  | some g => match g.tlbiWait with
    | [] => .next s
    | b :: rest =>
      if !s.translatedDone then .next s
      else
        let t := s.restamp.focus core slot
        let t := { t with g := { t.g with inB := b, tlbiWait := rest } }
        .next (t.setCur (({} : Form).cover t.g t.clock)).advance

/-! ### ctxsv and ctxld (R211, R350) -/

/-- A slot as the context area holds it. -/
def Slot.image (c : Slot) : List Byte :=
  toBytes 8 (c.pc.toNat % 2 ^ 57) ++ toBytes 4 c.exm.toNat ++ toBytes 2 c.depth ++ toBytes 2 c.tag.toNat

/-- A section of a fixed number of registers, unallocated ones as zero. -/
def section_ {w : Nat} (bytes n : Nat) (xs : List (BitVec w)) : List Byte := (List.range n).flatMap fun k => toBytes bytes (xs.getD k 0).toNat

/-- The context of a group (Table 10-9). (DEDUCED, log entry 30, safe.) -/
def Group.image (g : Group) : List Byte :=
  g.a.image ++ g.b.image ++ toBytes 4 ((if g.a.live then 1 else 0) + (if g.b.live then 2 else 0)) ++ toBytes 4 g.schk.toNat
    ++ toBytes 4 g.pcfg.toNat ++ toBytes 4 g.frameCtr.toNat ++ toBytes 8 g.dsave.toNat ++ List.replicate 8 0 ++ section_ 4 8 g.fmt
    ++ List.replicate 160 0 ++ section_ 8 32 g.wid ++ section_ 4 32 g.txst ++ section_ 4 8 g.p ++ List.replicate 32 0
    ++ section_ 16 8 g.t ++ section_ 8 8 g.ac ++ section_ 8 8 g.bm
    ++ (List.range g.s.length).flatMap (fun k => toBytes 8 (g.readS k).toNat)
    ++ g.v.flatMap fun x => section_ 4 32 x

/-- Bytes of a group's context. -/
def Group.imageSize (g : Group) : Nat := 0x3C0 + 8 * g.s.length + 128 * g.v.length

/-- A number in a context. -/
def imageNat (bs : List Byte) (off len : Nat) : Nat := fromBytes ((bs.drop off).take len)

/-- A slot read back from a context; lanes without a thread stay out of its mask. -/
def Slot.load (bs : List Byte) (off : Nat) (live : Bool) (lanes : W32) (clock : Nat) : Slot :=
  { live := live, pc := BitVec.ofNat 64 (imageNat bs off 8 % 2 ^ 57), exm := BitVec.ofNat 32 (imageNat bs (off + 8) 4) &&& lanes
    depth := imageNat bs (off + 12) 2, tag := BitVec.ofNat 16 (imageNat bs (off + 14) 2), entered := clock, lastIssue := clock }

/-- A group with its context read back (R211); reserved bits of registers stay as they are held. (DEDUCED, log entry 30, safe.) -/
def Group.loadImage (clock : Nat) (bs : List Byte) (g : Group) : Group :=
  let n := fun (off len : Nat) => imageNat bs off len
  { g with
    a := Slot.load bs 0 (n 0x20 1 % 2 == 1) g.lanes clock, b := Slot.load bs 0x10 (n 0x20 1 / 2 % 2 == 1) g.lanes clock
    schk := BitVec.ofNat 32 (n 0x24 4), pcfg := BitVec.ofNat 32 (n 0x28 4 % 2 ^ 24), frameCtr := BitVec.ofNat 16 (n 0x2C 2)
    dsave := BitVec.ofNat 64 (n 0x30 8)
    fmt := g.fmt.mapIdx fun k _ => BitVec.ofNat 32 (n (0x40 + 4 * k) 4 % 2 ^ 17)
    wid := g.wid.mapIdx fun k _ => BitVec.ofNat 64 (n (0x100 + 8 * k) 8)
    txst := g.txst.mapIdx fun k _ => BitVec.ofNat 32 (n (0x200 + 4 * k) 4)
    p := g.p.mapIdx fun k _ => BitVec.ofNat 32 (n (0x280 + 4 * k) 4)
    t := g.t.mapIdx fun k _ => BitVec.ofNat 128 (n (0x2C0 + 16 * k) 16)
    ac := g.ac.mapIdx fun k _ => BitVec.ofNat 64 (n (0x340 + 8 * k) 8 % 64)
    bm := g.bm.mapIdx fun k _ => BitVec.ofNat 64 (n (0x380 + 8 * k) 8 % 2 ^ 63)
    s := g.s.mapIdx fun k _ => if k = 0 then 0 else BitVec.ofNat 64 (n (0x3C0 + 8 * k) 8)
    v := g.v.mapIdx fun k _ => (List.range 32).map fun l => BitVec.ofNat 32 (n (0x3C0 + 8 * g.s.length + 128 * k + 4 * l) 4) }

/-- STATE of an entry as Table 10-4 codes it. -/
def EntryState.code : EntryState → Nat
  | .ready => 1
  | .parked _ => 2
  | _ => 3

/-- LEFT of an entry (R202, R313, R338): only the time limit of `mwait` and a back-off count down. -/
def SaveEntry.left (clock : Nat) (e : SaveEntry) : Nat :=
  match e.state with
  | .parked .mwait => e.deadline - clock
  | .parked .backoff => e.deadline - clock
  | .parked _ => 0xFFFFFFFF
  | _ => 0

/-- A save-area entry as memory holds it (Table 10-4). (DEDUCED, log entry 47, safe.) -/
def SaveEntry.image (clock : Nat) (e : SaveEntry) : List Byte :=
  toBytes 8 (e.pc.toNat % 2 ^ 57 + e.state.code * 2 ^ 62) ++ toBytes 4 e.mask.toNat ++ toBytes 2 e.depth ++ toBytes 2 e.frame.toNat
    ++ toBytes 8 e.maddr.toNat ++ toBytes 4 (e.left clock) ++ toBytes 4 e.seq

/-- The 64 entries of a group's save area. -/
def Group.saveImage (clock : Nat) (g : Group) : List Byte :=
  let bs := g.save.flatMap fun e => e.image clock
  bs ++ List.replicate (2048 - bs.length) 0

/-- A run of global memory checked for an accessor (Table 03-7), page by page. -/
def State.area (s : State) (w : Who) (k : Kind) (va : W64) (len : Nat) : Res (List Part) :=
  match s.parts w k { space := 0, addr := va, len := len } with
  | .ok ps => match s.partFails (k == .load) ps with
    | some code => .error (.trap { code := code, addr := va, info := k.info })
    | none => .ok ps
  | .error (row, at_) => .error (.trap { code := rowCode row, addr := at_, info := k.info })

/-- The issuing path as the sender of writes. -/
def State.sender (s : State) : Sender := { ident := s.g.ident, pc := s.cur.runPc, launch := s.g.launch, late := some s.g.ident }

/-- The walks that a run of global memory needs awaited (R55). -/
def State.areaWalks (s : State) (w : Who) (va : W64) (len : Nat) : Res Unit :=
  s.awaitWalks w.core w.asid w.root .load ((pageParts va len).map fun x => x.1) .memDep

/-- Bytes written to the parts of a run. -/
def State.writeArea (s : State) (core : Nat) (x : Sender) (ps : List Part) (bs : List Byte) : State :=
  (ps.foldl (fun (acc : State × List Byte) q => (acc.1.engineWrite core x q (acc.2.take q.len), acc.2.drop q.len)) (s, bs)).1

/-- Bytes read from the parts of a run. -/
def State.readArea (s : State) (ps : List Part) : List Byte × State :=
  ps.foldl (fun (acc : List Byte × State) q =>
    let (bs, s) := acc.2.engineRead s.g.core q
    (acc.1 ++ bs, s)) ([], s)

/-- The group in the slot that a context form names, if it is stopped. -/
def State.stoppedIn (s : State) (sb : Nat) : Option Group :=
  (s.groupAt s.g.core (field (s.g.srcS sb) 0 6)).bind fun g => if g.status = GroupStatus.stopped ∨ g.status = GroupStatus.held then some g else none

/-- A context form: the address checked, and nothing more where the slot holds no stopped group. -/
def contextForm (sa sb : Nat) (k : Kind) (s : State) (act : Group → List Part → State → Res State) : Out :=
  Form.run { srcs := [rs sa, rs sb], sup := true } s fun _ t =>
    let va := t.g.srcS sa
    if va.toNat % 64 ≠ 0 then .error (.trap { code := codeMisalign, addr := va, info := k.info })
    else match t.stoppedIn sb with
      | none => .ok t
      | some g => holding do
        t.areaWalks t.who va g.imageSize
        let ps ← t.area t.who k va g.imageSize
        let places := ps.flatMap Part.places
        waitWhile (t.globalBusy k false (places.map fun x => x.1) 64)
        if k == .load then t.askFabric .load ((places.filter fun x => t.loadLeaves x.2 .full x.1).map fun x => x.1)
        act g ps t.dropRequest

/-- Who writes a stopped group's divergence save area. -/
def Group.saver (g : Group) : Who := { core := g.core, asid := g.asid, root := g.root, sup := true, watched := false }

/-- `ctxsv` (R350): the context, and the memory image of the divergence save area where its address can be written (R202).
(DEDUCED, log entry 30, safe.) -/
def execCtxsv (sa sb : Nat) (s : State) : Out :=
  contextForm sa sb .store s fun g ps t => do
    t.areaWalks g.saver g.dsave 2048
    let t := t.writeArea t.g.core t.sender ps g.image
    .ok (match t.area g.saver .store g.dsave 2048 with
      | .ok qs => t.writeArea g.core t.sender qs (g.saveImage t.clock)
      | .error _ => t)

/-- `ctxld` (R350). (DEDUCED, log entry 30, safe.) -/
def execCtxld (sa sb : Nat) (s : State) : Out :=
  contextForm sa sb .load s fun g ps t =>
    let (bs, t) := t.readArea ps
    .ok (t.updGroup g.core g.slot (Group.loadImage t.clock bs))

/-! ### sysc (R351) -/

/-- The physical addresses of a die's mail ring: entry `n`, tail and head. -/
def State.mailPa (s : State) (die n : Nat) : Nat := s.cavePa die (0x940000 + 64 * (n % 256))
def State.mailTail (s : State) (die : Nat) : Nat := s.mem.readNat (s.cavePa die 0x944000) 8
def State.mailHead (s : State) (die : Nat) : Nat := s.mem.readNat (s.cavePa die 0x944008) 8

/-- Whether the ring of a die holds 256 entries; tail and head count entries since reset. -/
def State.mailFull (s : State) (die : Nat) : Bool := decide (256 ≤ (s.mailTail die + 2 ^ 64 - s.mailHead die) % 2 ^ 64)

/-- Mail delivered to a die of this module: the entry, then the tail. -/
def State.deliverMail (s : State) (die src cls : Nat) (body : List Byte) : State :=
  let n := s.mailTail die
  let pa := s.mailPa die n
  let s := (s.caveWrite pa (toBytes 8 (src % 2 ^ 20 + cls % 256 * 2 ^ 20) ++ (body.drop 8).take 56)).wake pa 64
  (s.caveWrite (s.cavePa die 0x944000) (toBytes 8 ((n + 1) % 2 ^ 64))).wake (s.cavePa die 0x944000) 8

/-- `sysc` (R351): within the module it waits for a full ring; to another module the mail is sent, and the instruction waits for its answer.
(DEDUCED, log entry 31, safe.) -/
def execSysc (sa sb cls : Nat) (s : State) : Out :=
  Form.run { srcs := [rs sa, rs sb], sup := true } s fun _ t => holding do
    let va := t.g.srcS sa
    let x := t.g.srcS sb
    let m := field x 0 9
    let die := field x 9 2
    let away : Placed := { lane := 0, va := va, pa := m * 2 ^ 43, leaf := { pte := 0, level := 0 } }
    let answer := fun (u : State) => (wholePath (u.askFabric .store [away])).map fun _ => u.dropRequest
    if t.defer && m != t.module && t.myRequest.any fun r => r.pa == away.pa then answer t
    else
      let (body, _, u) ← t.pathLoad t.who 64 va
      t.released 4
      if m = t.module then
        if t.mailFull die then .error (.wait .memDep)
        else .ok (u.deliverMail die (u.coreSource u.g.core) cls body)
      else if t.failed.elem m then .error (.trap { code := codeFabric, addr := va, info := Kind.store.info })
      else answer { u with mailOut := u.mailOut ++ [{ dst := field x 0 11, cls := cls, body := body }] }

/-- SYSC_MAIL_ARRIVAL (R351): mail of another module delivered, unless the ring is full or the module is marked failed (R193).
(DEDUCED, log entry 31, safe.) -/
def execSyscMailArrival (die src cls : Nat) (body : List Byte) (s : State) : Out :=
  .next (if 4 ≤ die ∨ s.mailFull die ∨ s.failed.elem (src / 2 ^ 11 % 2 ^ 9) then s else s.deliverMail die src cls body)

/-! ### dump (R352, R372) -/

/-- Whether a group of a frozen core may stop now: a boundary permitted by R225. -/
def State.freezeAllowed (s : State) (g : Group) : Bool :=
  decide (g.status = .running) && g.slot != 64
    && !(s.clusters.any fun c => c.sg.any fun e => e.ident == g.ident && e.ret)
    && g.commits.all (fun k => k.held.isEmpty) && g.a.wait != some .memHold && g.b.wait != some .memHold && !((lanesOf g.lanes).any fun l => g.inTx l && g.irrev l)
    && !((s.cluster (clusterOf g.core)).resv.any fun r => r.granted && r.wg == g.wg && r.gidx == g.gidx)

/-- A group stops at its boundary because its core is frozen (R372). -/
def Group.freeze (g : Group) : Group := { ({ g with a := g.a.rewind, b := g.b.rewind }).landAll with status := .frozen }

/-- A stopped group's context written by firmware to the dump staging area of its die's Cave, and its save-area image brought up to date.
(DESIGN CHOICE, log entry 28, safe.) -/
def State.stageGroup (s : State) (g : Group) : State :=
  let pa := s.cavePa (dieOf g.core) (0x950000 + Config.dumpPlace g.core g.slot % 0x290000)
  let s := { s with mem := s.mem.writeBytes pa g.image }
  match s.area g.saver .store g.dsave 2048 with
  | .ok qs => s.writeArea g.core { ident := noIdent, pc := 0, launch := 0, late := none } qs (g.saveImage s.clock)
  | .error _ => s

/-- A frozen core whose groups have all stopped, and whose trap context has ended its routine, posts its entry of KIND 6; groups that stood stopped or
held are dumped too (R372). -/
def State.postFrozen (s : State) (core : Nat) : State :=
  let k := s.core core
  if k.frozen.isNone || k.frozenPosted || k.serving.isSome || (s.groupsOn core).any (fun g => decide (g.status = .running) || decide (g.status = .stopping)) then s
  else
    let s := ((s.groupsOn core).filter fun g => decide (g.status = .stopped) || decide (g.status = .held)).foldl State.stageGroup s
    (s.updCore core fun k => { k with frozenPosted := true }).postDebug
    { header := s.recordHeader core 0 0 6 0 0 0 0, addr := 0, cause := 0, data := [] }

/-- The groups of frozen cores that have reached a boundary stop, but for the one that issues now (R372). -/
def State.sweepFrozen (s : State) (core : Nat) : State :=
  let stop := (s.groups.filter fun g => g.core == core && s.freezeAllowed g).map fun g => (g.core, g.slot)
  let s := stop.foldl (fun s x => s.updGroup x.1 x.2 Group.freeze) s
  (stop.foldl (fun s x => match s.groupAt x.1 x.2 with
    | some g => s.stageGroup g
    | none => s) s).postFrozen core

/-- A core frozen until a time stamp (R372): a core already frozen keeps the later of the two. -/
def State.freezeCore (s : State) (core until_ : Nat) : State :=
  match (s.core core).frozen with
  | some old => s.updCore core fun k => { k with frozen := some (max old until_) }
  | none => (s.updCore core fun k => { k with frozen := some until_, frozenAt := s.clock }).sweepFrozen core

/-- `dump` (R352): the issuing group itself freezes at the boundary after it. -/
def execDump (sa sb : Nat) (s : State) : Out :=
  Form.run { srcs := [rs sa, rs (sa + 1), rs sb], sup := true, iin := sa % 2 == 1 } s fun _ t =>
    let mask := (t.g.srcS sa).toNat + (t.g.srcS (sa + 1)).toNat * 2 ^ 64
    let ms := field (t.g.srcS sb) 0 32
    let until_ := t.tstamp.toNat + (if ms = 0 then 30000 else ms) * 1000000
    .ok (((List.range 128).filter fun c => mask.testBit c).foldl (fun s c => s.freezeCore c until_) t)

/-- DUMP_TIME_LIMIT (R372): a frozen core is released when its limit has passed. -/
def execDumpTimeLimit (core : Nat) (s : State) : Out :=
  .next (match (s.core core).frozen with
    | some t => if t ≤ s.tstamp.toNat then s.unfreeze core else s
    | none => s)

end Sys2Proof.Machine
end

