-- ==== Sys2Proof/Machine/MemEvents.lean ====
section
/-!
DEFINITION. Steps of the memory system: TLB walks, the directory and the L1s, home slices, vats, service groups, the fabric, and errors
in storage (R53 to R55, R78 to R104, R106, R117 to R124, R185 to R193, R238, R298, R367, R368).
-/
namespace Sys2Proof.Machine
open Sys2Proof

/-! ### Results and walks -/

/-- The oldest result in flight of a kind written (R238). (DEDUCED, log entry 63, safe.) -/
def Group.landOne (mem : Bool) (g : Group) : Group :=
  match g.inflight.find? fun x => x.mem == mem && x.await.isNone with
  | none => g
  | some r => { g.land r with inflight := removeFirst (fun x => decide (x = r)) g.inflight }

/-- The name of what stands in a slot of a core; the number after the last slot stands for its engine. -/
def State.identAt (s : State) (core slot : Nat) : Nat :=
  if slot = engineSlot then engineIdent core else ((s.groupAt core slot).map Group.ident).getD noIdent

/-- Whether a request of a name has left the module and waits for its data. -/
def FabReq.awaits (ident : Nat) (r : FabReq) : Bool := r.ident == ident && !r.posted && r.sent && decide (r.status = .pending)

/-- The first request of a group outside the module that is still unanswered, with its answer come; one that waited for its place goes (R187). -/
def State.answerRequest (s : State) (ident : Nat) : State :=
  ({ s with fabric := modifyFirst (FabReq.awaits ident) (fun r => { r with status := .replied }) s.fabric } : State).promote

/-- LOAD_DATA_RETURN (R298): the data that a group waits for outside the module have come, or its oldest load or atomic is written. -/
def execLoadDataReturn (core slot : Nat) (s : State) : Out :=
  .next (if s.fabric.any (FabReq.awaits (s.identAt core slot)) then s.answerRequest (s.identAt core slot)
    else s.updGroup core slot (Group.landOne true))

/-- VARIABLE_LATENCY_RESULT (R238): the oldest result that is not of a memory access is written, in the lanes no later write has taken. -/
def execVariableLatencyResult (core slot : Nat) (s : State) : Out := .next (s.updGroup core slot (Group.landOne false))

/-- The root table under which the groups of a die use an address space. -/
def State.rootFor (s : State) (die asid : Nat) : Option Nat :=
  match s.allGroups.find? fun g => dieOf g.core == die && g.asid == asid && g.slot != 64 with
  | some g => some g.root
  | none => s.rootOf asid

/-- Misses of a die that a walk answers (R55): of its page, or of every page of the translation unit's 256 that the leaf covers; the cores' TLBs are
filled with it, and the lines of prefetches that waited are brought in (R308). (DEDUCED, log entry 65, safe.) -/
def State.answerMisses (s : State) (die asid : Nat) (va : W64) (leaf : Option Leaf) : State :=
  let known := s.dieMisses die
  let hit := fun (m : Miss) => !m.done && dieOf m.core == die && known.elem (m.asid, m.va.toNat / 65536) && match leaf with
    | some f => (m.asid == asid || pteBit f.pte 6) && (m.va.toNat % 2 ^ 57) / pageSize f.level == (va.toNat % 2 ^ 57) / pageSize f.level
    | none => m.asid == asid && m.va.toNat / 65536 == va.toNat / 65536
  let s := match leaf with
    | some f => (s.misses.filter hit).foldl (fun (s : State) (m : Miss) =>
        s.installTlb (if m.fetch then .itlb m.core else .dtlb m.core) m.asid (m.va.toNat % 2 ^ 57) f) s
    | none => s
  let fetches := s.misses.filter fun m => hit m && m.prefetch.isSome
  let s := { s with misses := (s.misses.filter fun m => !(hit m && m.prefetch.isSome)).map fun m => if hit m then { m with done := true } else m }
  fetches.foldl (fun s m => match m.prefetch with
    | some (lvl, sup) => s.prefetch { core := m.core, asid := m.asid, root := m.root, sup := sup } lvl m.va
    | none => s) s

/-- PAGE_WALK_DONE (R55): a walk that finds a leaf fills the page-walk cache and the die's TLB, which answers every miss that the leaf covers; one
that finds none answers the misses of its page, whose accesses then find so too. A page that waits has its walk once it is among the 64 that the
walkers serve (R53). (DEDUCED, log entry 65, safe.) -/
def execPageWalkDone (die asid : Nat) (va : W64) (s : State) : Out :=
  let a := va.toNat % 2 ^ 57
  let waits := s.misses.find? fun m => dieOf m.core == die && m.waits asid (va.toNat / 65536)
  .next (if waits.isSome && !(s.walks die).elem (asid, va.toNat / 65536) then s
    else match (waits.map fun m => m.root).or (s.rootFor die asid) with
    | none => s
    | some root => match s.walkRoot die asid root a with
      | .leaf f => if canonical va then ((s.installWalk die asid a 5 root).installTlb (.second die) asid a f).answerMisses die asid va (some f) else s
      | _ => s.answerMisses die asid va none)

/-! ### The directory and the L1s -/

/-- Whether L1s may cache a line: HBM of this module, in no vat, in no frame, and not recorded (R94, R110, R377). -/
def State.cacheable (s : State) (pa : Nat) : Bool :=
  moduleOf pa == s.module && decide (placeOf (localOf pa) = .hbm) && decide (s.route 0 pa = .plain)

/-- DIR_LOAD_REQUEST (R101). -/
def execDirLoadRequest (core pa : Nat) (tag : Tag) (upd : Bool) (s : State) : Out :=
  .next (if s.cacheable pa && decide (core < 128) then s.dirLoad core (lineOf pa) tag upd 0 else s)

/-- DIR_UPGRADE_REQUEST (R94): the core holds the line at another format. -/
def execDirUpgradeRequest (core pa : Nat) (tag : Tag) (s : State) : Out :=
  .next (match s.l1Of core (lineOf pa) with
    | some c => if s.cacheable pa && c.tag != tag then s.dirLoad core (lineOf pa) tag false 0 else s
    | none => s)

/-- DIR_STORE_REQUEST (R97): a store that waits in its die's buffer is performed, once it is the oldest there for its line (R142); or a store that
reaches the directory otherwise, behind those that wait for the line. -/
def execDirStoreRequest (core pa : Nat) (data : List Byte) (s : State) : Out :=
  .next (match s.stores.find? (fun x => dieOf x.core == dieOf core && lineOf x.pa == lineOf pa) with
    | some x => if x.core = core ∧ x.pa = pa ∧ x.bytes = data then s.performStore x else s
    | none =>
      if s.cacheable pa && decide (pa / 64 = (pa + data.length - 1) / 64) && decide (core < 128) then s.l1Store core 0 pa data else s)

/-- SLICE_WRITE (R98); a write to a wheel that has a vat or a frame reaches its service group as one that is tagged (R110). -/
def execSliceWrite (pa : Nat) (data : List Byte) (s : State) : Out :=
  .next (if pa / 64 ≠ (pa + data.length - 1) / 64 then s
    else if s.route 0 pa = .vat then s.sendUnit noIdent 0 (wheelOf pa) (storeReqs data.length pa data)
    else s.sliceWrite pa data)

/-- OWNER_WRITEBACK (R101): an owner evicts its line in M; the line enters I. (DESIGN CHOICE, log entry 13, unsafe.) -/
def execOwnerWriteback (core pa : Nat) (s : State) : Out :=
  .next (match s.dirOf (lineOf pa) with
    | some { state := .modified o, .. } => if o = core then s.recall (lineOf pa) false else s
    | _ => s)

/-- RECALL_ARRIVAL (R103). -/
def execRecallArrival (core pa : Nat) (downgrade : Bool) (s : State) : Out :=
  .next (match s.dirOf (lineOf pa) with
    | some { state := .modified o, .. } => if o = core then s.recall (lineOf pa) downgrade else s
    | _ => s)

/-- The next message to a core about a line delivered, if it is of a kind (R102). -/
def State.deliverKind (s : State) (core line : Nat) (upd : Bool) (tag : Tag) : State :=
  match s.msgs.find? fun m => m.core == core && m.line == line with
  | some m => if decide (m.kind = (if upd then MsgKind.update else MsgKind.invalidate)) && (m.all || m.tag == tag) then s.deliverNext core line else s
  | none => s

/-- Answers to other modules whose lines no sharer has still to acknowledge go out (R188). (DEDUCED, log entry 14, safe.) -/
def State.payOwed (s : State) : State :=
  let held := fun (x : List Nat × HostReply) => (s.msgs.any fun m => x.1.elem m.line) || s.modAcks.any fun a => x.1.elem a.2
  { s with fabOut := s.fabOut ++ (s.owed.filter fun x => !held x).map (fun x => x.2), owed := s.owed.filter held }

/-- L1_INVALIDATE_ARRIVAL (R90). -/
def execL1InvalidateArrival (core pa : Nat) (tag : Tag) (s : State) : Out := .next (s.deliverKind core (lineOf pa) false tag).payOwed

/-- L1_UPDATE_ARRIVAL (R99). -/
def execL1UpdateArrival (core pa : Nat) (tag : Tag) (s : State) : Out := .next (s.deliverKind core (lineOf pa) true tag).payOwed

/-- SHARER_ACK_ARRIVAL (R100): every sharer of the line has acknowledged, so every message about it has arrived; a write to another module or
to the host that waited for acknowledgements is performed. Writes towards the host leave the port in their order (R177). -/
def execSharerAckArrival (pa : Nat) (s : State) : Out :=
  let line := lineOf pa
  let s := { s.deliverAll line with modAcks := s.modAcks.filter fun a => a.2 != line }.payOwed
  .next (match s.fabric.find? fun r => r.posted && lineOf r.pa == line with
    | some r => if r.host && s.fabric.any (fun x => x.posted && x.host && dieOf x.core == dieOf r.core && decide (x.id < r.id)) then s
        else (s.settlePosted r).promote
    | none => s)

/-! ### Vats and service groups -/

/-- SERVICE_GROUP_ENTRY_APPLY (R106). -/
def execServiceGroupEntryApply (cluster : Nat) (s : State) : Out := .next (s.sgStep cluster)

/-- VAT_UNIT_INTAKE (R117): the service group of a cluster of a die. -/
def execVatUnitIntake (die cluster : Nat) (s : State) : Out := .next (s.intakeStep (8 * die + cluster % 8))

/-- MERGED_READ (R120): the line with pending entries applied; nothing of the wheel changes, but that an error in its vat is found (R127). -/
def execMergedRead (pa size : Nat) (s : State) : Out :=
  .next ({ s with mergedOut := s.mergedRead pa size }.findBadAt (wheelOf pa))

/-- PRESS_DONE (R121): units that waited for the wheel are then taken from their queue. -/
def execPressDone (wheel : Nat) (s : State) : Out :=
  .next (s.endPress wheel)

/-- COHERENT_WINDOW_ACCESS (R78): a store (op 1) or an atomic (2 + its operation code; R302) performed at the Cave; a load changes nothing. -/
def execCoherentWindowAccess (core pa size op : Nat) (data : List Byte) (s : State) : Out :=
  let inside := fun (n : Nat) => match placeOf (localOf pa), placeOf (localOf (pa + n - 1)) with
    | .window a, .window b => a == b && moduleOf pa == s.module
    | _, _ => false
  .next (if op = 0 then { s with mergedOut := if inside size then s.mem.readBytes pa size else [] }
    else if op = 1 then (if inside data.length then (s.caveWrite pa data).wake pa data.length else s)
    else if inside size then
      (s.globalRmw (dieOf core) 0 false
        { lane := 0, addr := pa, size := size, op := op - 2, operand := BitVec.ofNat 128 (fromBytes (data.take size))
          compare := BitVec.ofNat 128 (fromBytes ((data.drop size).take size)) }).2
    else s)

/-- CLUSTER_CROSSBAR_ACCESS (R74): of the core's accesses that wait at the share which holds the offset, the oldest is performed; where none waits,
an access of the group is performed there. -/
def execClusterCrossbarAccess (core slot off size : Nat) (store : Bool) (data : List Byte) (s : State) : Out :=
  .next (match (s.groupAt core slot).bind fun g => (s.wgAt g.wg).bind s.instOf with
    | none => s
    | some i =>
      let share := off / max 1 (i.size / 4)
      if (s.cluster (clusterOf core)).xbar.any fun x => x.core == core && x.share == share then s.xbarStep core share
      else if i.size < off + size then s
      else if store then s.instWrite i.key off (data.take size)
      else { s with mergedOut := i.cells.readBytes off size })

/-! ### The fabric (R186 to R193) -/

/-- An answer to another module. -/
def State.answerModule (s : State) (d : List Byte) : State := { s with fabOut := s.fabOut ++ [.data d] }

/-- A pointer to a module that holds a wheel at a format; a ninth one turns the entry to BROADCAST (R189, R191). -/
def addPointer (src : Nat) (tag : Tag) (w : WheelPtrs) : WheelPtrs :=
  if w.broadcast || w.ptrs.elem (src, tag) then w
  else if 8 ≤ w.ptrs.length then { w with ptrs := [], broadcast := true }
  else { w with ptrs := w.ptrs ++ [(src, tag)] }

/-- Room in a die's wheel directory of 262,144 entries (R189): a full one evicts its oldest entry, and the modules that it names are invalidated.
(DESIGN CHOICE, log entry 77, safe.) -/
def State.wheelRoom (s : State) (die : Nat) : State :=
  match (s.die die).wheelDir with
  | [] => s
  | w :: rest =>
    if rest.length < 262143 then s
    else (s.tellModules w.wheel (if w.broadcast then [none] else (dedup (w.ptrs.map fun p => p.1)).map some)).updDie die fun d => { d with wheelDir := rest }

/-- The wheel directory with a pointer to a wheel (R189, R191). (DESIGN CHOICE, log entry 77, safe.) -/
def State.trackWheel (s : State) (wheel src : Nat) (tag : Tag) : State :=
  if (s.die (homeDie wheel)).wheelDir.any fun w => w.wheel == wheel then
    s.updDie (homeDie wheel) fun d => { d with wheelDir := d.wheelDir.map fun w => if w.wheel == wheel then addPointer src tag w else w }
  else (s.wheelRoom (homeDie wheel)).updDie (homeDie wheel) fun d => { d with wheelDir := d.wheelDir ++ [addPointer src tag { wheel := wheel }] }

/-- An answer to another module that waits for the sharers of some lines (R188). -/
def State.oweModule (s : State) (lines : List Nat) : State := ({ s with owed := s.owed ++ [(lines, HostReply.data [])] } : State).payOwed

/-- Bytes read for another module, answered as poisoned where they are (R186). -/
def State.answerRead (s : State) (pa : Nat) (bs : List Byte) : State :=
  if (s.poisonedLine pa bs.length).isSome then { s with fabOut := s.fabOut ++ [.poison bs] } else s.answerModule bs

/-- A read of another module (R188), tagged VAT or not: 64 bytes, which leave no pointer, or, of memory that may be cached, 256 bytes or the whole
wheel, which leave one. A wheel that has a vat or a frame, or is read under the tag, is never cached. -/
def State.remoteRead (s : State) (src : Nat) (vat : Bool) (pa size : Nat) (tag : Tag) : State :=
  let line := lineOf pa
  match s.route (if vat then 128 else 0) pa with
  | .vat => (s.findBadAt (wheelOf pa)).answerRead line (s.mergedRead line 64)
  | .control => s.answerModule ((List.range 8).flatMap fun k => s.ctlRead (line + 8 * k) 8)
  | .plain =>
    let w := wheelOf pa
    let n := if size ≤ 64 then 64 else if size ≤ 256 then 256 else 2048
    let lines := linesOf (pa / n * n) n
    let s := lines.foldl (fun s l => ((s.deliverAll l).recall l true).fill l) s
    let s := if n = 64 then s else s.trackWheel w src tag
    s.answerRead (pa / n * n) (s.mem.readBytes (pa / n * n) n)
  | _ => s.answerRead line (s.mem.readBytes line 64)

/-- A write of another module (R188), within one 256-byte block (R186), tagged VAT or not: answered once the slice has merged it and the sharers
that it disturbed have acknowledged, or once its unit is. -/
def State.remoteWrite (s : State) (src : Nat) (vat : Bool) (pa : Nat) (data : List Byte) : State :=
  if data.isEmpty ∨ pa / 256 ≠ (pa + data.length - 1) / 256 then s
  else match s.route (if vat then 128 else 0) pa with
    | .vat => s.sendUnitFrom (some src) noIdent 0 (wheelOf pa) (storeReqs data.length pa data)
    | .control => (s.ctlWrite false pa data.length (BitVec.ofNat 64 (fromBytes data))).answerModule []
    | .window => ((s.caveWrite pa data).wake pa data.length).answerModule []
    | .closed => s.answerModule []
    | _ => (s.sliceWrite pa data).oweModule (linesOf pa data.length)

/-- An atomic of another module (R188), with or without return, tagged VAT or not: a reduction to a vat-managed wheel goes to its service group
(R110), any other is performed at the slice and answered. -/
def State.remoteAtomic (s : State) (src code : Nat) (ret vat : Bool) (pa size : Nat) (data : List Byte) : State :=
  let r : AtomReq := { lane := 0, addr := pa, size := size, op := code, operand := BitVec.ofNat 128 (fromBytes (data.take size)),
                       compare := BitVec.ofNat 128 (fromBytes ((data.drop size).take size)) }
  let pte : W64 := if vat then 128 else 0
  if !ret && decide (s.route pte pa = .vat) then s.sendUnitFrom (some src) noIdent 0 (wheelOf pa) [r]
  else
    let (o, s) := s.globalRmw 128 pte false r
    if ret then s.answerModule (toBytes size o) else s.oweModule [lineOf pa]

/-- REMOTE_REQUEST_ARRIVAL (R188): of another module a read (op 0), a write (op 1), an atomic with return (2 + its operation code) or without (130 + the
code); plus 256 for a request tagged VAT (R110). A request of a module marked failed fails at once (R193). -/
def execRemoteRequestArrival (src op pa size : Nat) (tag : Tag) (data : List Byte) (s : State) : Out :=
  let vat := decide (256 ≤ op)
  let k := op % 256
  .next (if moduleOf pa ≠ s.module then s
    else if s.failed.elem src then { s with fabOut := s.fabOut ++ [.failed] }
    else if k = 0 then s.remoteRead src vat pa size tag
    else if k = 1 then s.remoteWrite src vat pa data
    else if k < 130 then s.remoteAtomic src (k - 2) true vat pa size data
    else s.remoteAtomic src (k - 130) false vat pa size data)

/-- REMOTE_FILL_ARRIVAL (R190): the wheel's 2 KiB installed as 32 lines at the home slice, marked remote; what arrives is good (R186).
(DESIGN CHOICE, log entry 58, unsafe.) -/
def execRemoteFillArrival (wheel : Nat) (tag : Tag) (data : List Byte) (s : State) : Out :=
  .next (if moduleOf wheel = s.module ∨ wheel % 2048 ≠ 0 ∨ data.length ≠ 2048 then s
    else
      ({ s with mem := s.mem.writeBytes wheel data, poison := s.poison.filter fun x => wheelOf x.line != wheel }).installRemote wheel tag)

/-- WHEEL_INVALIDATE_ARRIVAL (R190): the 32 lines of a remote wheel and every L1 copy of them are dropped, and the module acknowledges. -/
def execWheelInvalidateArrival (wheel : Nat) (s : State) : Out :=
  let w := wheelOf wheel
  .next (if moduleOf w = s.module then s
    else ({ s with l2 := s.l2.filter (fun l => wheelOf l.line != w), l1 := s.l1.filter (fun c => wheelOf c.line != w)
                   dir := s.dir.filter (fun d => wheelOf d.line != w), msgs := s.msgs.filter fun m => wheelOf m.line != w }).answerModule [])

/-- A posted request failed (R192, R185): it is told to its group at the next fence, release or drain, wherever the group stands; where it has ended,
its launch has faulted. A job's element fails, and a stamp record's group is told. -/
def State.failPosted (s : State) (r : FabReq) (unsup : Bool) : State :=
  let group := if r.ident != engineIdent r.core then some r.ident
    else ((s.cluster (clusterOf r.core)).resv.find? fun q => 2 ^ 32 + q.id == r.pc.toNat).bind fun q => (s.stampSender q).late
  let gone := fun (s : State) => { s with launches := modifyFirst (fun l => l.handle == r.launch && r.launch != 0) (fun l => { l with faulted := true }) s.launches }
  if r.ident = engineIdent r.core ∧ r.pc.toNat < 2 ^ 32 then
    s.updCards r.core fun cs => cs.map fun c => if c.seq == r.pc.toNat then { c with lost := true } else c
  else match group with
    | none => gone s
    | some i =>
      if s.allGroups.any fun g => g.ident == i then
        (s.updIdent i fun g => if g.lateFault.isNone then { g with lateUnsup := unsup } else g).tellLate i (if r.atoms.isEmpty then 1 else 3) r.vaddr
      else gone s

/-- A request outside the module failed (R192): the instruction that waits for it traps; a posted one is logged for its group, its line's copies here
are dropped, and each of its atomics may have been performed. (DESIGN CHOICE, log entry 53, safe.) -/
def State.failRequest (s : State) (r : FabReq) (unsup : Bool) : State :=
  (if r.posted then
    let t := { s with fabric := s.fabric.filter fun x => x.id != r.id }
    let t := r.atoms.foldl (fun (t : State) a =>
        let t := if !unsup && (Config.freeWord t.free).getLsbD 0 then (t.globalRmw (dieOf r.core) a.pte a.sys a.req).2 else t
        { t with free := t.free + 1 }) t
    let t := if r.host || r.writes.isEmpty then t else t.invalidateLine (lineOf r.pa)
    t.failPosted r unsup
  else { s with fabric := s.fabric.map fun x => if x.id == r.id then { x with status := if unsup then .unsupported else .failed } else x }).promote

/-- A request that has left and is still unanswered, by its number. -/
def State.pendingRequest (s : State) (req : Nat) : Option FabReq := s.fabric.find? fun r => r.id == req && r.sent && decide (r.status = .pending)

/-- FABRIC_TIMEOUT_EXPIRY (R192). (DESIGN CHOICE, log entry 61, safe.) -/
def execFabricTimeoutExpiry (req : Nat) (s : State) : Out :=
  .next (match s.pendingRequest req with
    | some r => if r.deadline ≤ s.tstamp.toNat then s.failRequest r false else s
    | none => s)

/-- FABRIC_ERROR_COMPLETION (R192). (DESIGN CHOICE, log entry 61, safe.) -/
def execFabricErrorCompletion (req : Nat) (s : State) : Out :=
  .next (match s.pendingRequest req with
    | some r => s.failRequest r false
    | none => s)

/-- HOST_ATOMIC_UR_COMPLETION (R185). -/
def execHostAtomicUrCompletion (req : Nat) (s : State) : Out :=
  .next (match s.pendingRequest req with
    | some r => if r.host then s.failRequest r true else s
    | none => s)

/-- INVAL_ACK_TIMEOUT (R193): the module is marked failed and its pointers are dropped; the write that waited is performed. -/
def execInvalAckTimeout (module _pa : Nat) (s : State) : Out :=
  if module = s.module then .next s
  else
    let cut := fun (w : WheelPtrs) => { w with ptrs := w.ptrs.filter (fun p => p.1 != module) }
    let keep := fun (w : WheelPtrs) => w.broadcast || !w.ptrs.isEmpty
    let drop := fun (d : Die) => { d with wheelDir := (d.wheelDir.map cut).filter keep }
    .next { s with
      failed := if s.failed.elem module then s.failed else s.failed ++ [module], dies := s.dies.map drop
      modAcks := s.modAcks.filter fun a => a.1 != module }.payOwed

/-- FAILED_MODULE_MARK_CLEAR (R193). -/
def execFailedModuleMarkClear (module : Nat) (s : State) : Out := .next { s with failed := s.failed.filter fun m => m != module }

/-! ### Errors in storage (R86, R329, R367, R368) -/

/-- Where an error lies: a byte of memory or a Cave, of a core's scratchpad or of a cluster's accumulator memory, or a way of a cache set. -/
inductive ErrAt where
  | memory (pa : Nat)
  | spad (core off : Nat)
  | tiles (cluster off : Nat)
  | l1 (core : Nat) (instr : Bool) (set way : Nat)
  | l2 (die slice set way : Nat)
  deriving DecidableEq, Repr

/-- The place that a location names: a physical address; from 2^52 on a byte of a cluster's accumulator memory, from 2^53 on of a core's scratchpad, from
2^54 on a line of a core's L1s by set and way, and from 2^55 on of a die's L2 slices. (DEDUCED, log entry 62, safe.) -/
def errAt (loc : Nat) : ErrAt :=
  let line := fun (base : Nat) => (loc - base) / 64
  if 2 ^ 55 ≤ loc then .l2 (line (2 ^ 55) / 2 ^ 21 % 4) (line (2 ^ 55) / 2 ^ 16 % 32) (line (2 ^ 55) / 16 % 4096) (line (2 ^ 55) % 16)
  else if 2 ^ 54 ≤ loc then
    let core := line (2 ^ 54) / 2 ^ 16 % 128
    if line (2 ^ 54) / 2 ^ 15 % 2 = 1 then .l1 core true (line (2 ^ 54) / 16 % 128) (line (2 ^ 54) % 8)
    else .l1 core false (line (2 ^ 54) / 16 % 2048) (line (2 ^ 54) % 16)
  else if 2 ^ 53 ≤ loc then .spad ((loc - 2 ^ 53) / 2 ^ 20 % 128) ((loc - 2 ^ 53) % 2 ^ 20)
  else if 2 ^ 52 ≤ loc then .tiles ((loc - 2 ^ 52) / 2 ^ 23 % 32) ((loc - 2 ^ 52) % 2 ^ 23)
  else .memory loc

/-- The 64-byte line of an SRAM structure, or the HBM row, under which errors are counted and retired (R367). (DEDUCED, log entry 62, safe.) -/
def errLine (loc : Nat) : Nat :=
  if loc < 2 ^ 52 ∧ placeOf (localOf loc) = .hbm then 2 ^ 56 + Config.hbmRow loc else loc / 64 * 64

/-- The structure with spares in which a line lies, and how many it has (R368). -/
def sparesOf (loc : Nat) : Option ((Nat × Nat) × Nat) :=
  match errAt loc with
  | .spad core _ => some ((2, core), 16)
  | .tiles cluster _ => some ((1, cluster), 8)
  | .memory pa => match placeOf (localOf pa) with
    | .cave die => some ((0, die), 64)
    | .window die => some ((0, die), 64)
    | _ => none
  | _ => none

/-- Whether a lasting fault at a line of a die can be retired (R368): by disabling a way or remapping a row, or to a spare that is left.
(DEDUCED, log entry 62, safe.) -/
def Die.canRetire (d : Die) (line : Nat) : Bool :=
  match sparesOf line with
  | none => true
  | some (pool, n) => d.retired.elem (line, true)
      || decide ((d.retired.filter fun x => x.2 && decide (x.1 < 2 ^ 54) && (sparesOf x.1).any fun y => y.1 == pool).length < n)

/-- The way of a cache set put out of service, and its line with it (R368): written back where the error was corrected; else a line whose bytes are
newer here than elsewhere is poisoned. Whether the line of a slice was is free. (DEDUCED, log entry 62, safe.) -/
def State.offWay (s : State) (e : ErrAt) (lost : Bool) : State :=
  match e with
  | .l1 core false set way =>
    let s := { s with offWays := s.offWays ++ [.l1 core set] }
    match (s.l1.filter fun c => c.core == core && l1Set c.line == set)[way]? with
    | some c => if lost && c.dirty != 0 then (s.evictL1 c).poisonLines [c.line] else s.evictL1 c
    | none => s
  | .l1 core true set way =>
    let s := { s with offWays := s.offWays ++ [.l1i core set] }
    match ((s.core core).icache.filter fun i => Config.icacheSet i.pa % 128 == set)[way]? with
    | some i => s.updCore core fun k => { k with icache := k.icache.filter fun x => x.pa != i.pa }
    | none => s
  | .l2 die slice set way =>
    let ro := decide (12 ≤ way)
    let s := { s with offWays := s.offWays ++ [.l2 die slice set ro] }
    match (s.l2.filter fun l => l.ro == ro && homeDie l.line == die && homeSlice l.line == slice && l2SetOf l.line == set)[way % 12]? with
    | some l =>
      let t := { s.evictL2 l.line with free := s.free + 1 }
      if lost && (Config.freeWord s.free).getLsbD 0 then t.poisonLines [l.line] else t
    | none => s
  | _ => s

/-- A lasting fault at a location logged and signalled by MSI-X vector 2 (R368): retired, or unretired where no spare remains, and then it keeps
counting. (DEDUCED, log entry 62, safe.) -/
def State.retireFault (s : State) (die loc : Nat) (lost : Bool) : State :=
  let line := errLine loc
  ((s.updDie die fun d =>
    if d.canRetire line then { d with retired := d.retired ++ [(line, true)], ecc := d.ecc.filter fun e => e.loc != line }
    else { d with retired := d.retired ++ [(line, false)] }).offWay (errAt loc) lost).sendMsix 2

/-- A new error counted at a location (R367). -/
def countError (window now loc : Nat) (es : List EccEntry) : List EccEntry :=
  match es.find? fun e => e.loc == loc with
  | some e =>
    let n := if e.first + window < now then { e with count := 1, first := now } else { e with count := e.count + 1 }
    es.map fun x => if x.loc == loc then n else x
  | none =>
    let new : EccEntry := { loc := loc, count := 1, first := now }
    if es.length < 4096 then es ++ [new]
    else match es.foldl (fun (b : Option EccEntry) e => match b with
        | none => some e
        | some x => if e.first < x.first then some e else some x) none with
      | none => [new]
      | some old => removeFirst (fun e => decide (e = old)) es ++ [new]

/-- CORRECTED_ECC_ERROR (R367): repaired in place and counted; at the threshold the fault is lasting. (DEDUCED, log entry 62, safe.) -/
def execCorrectedEccError (die : Nat) (loc : Nat) (s : State) : Out :=
  let es := countError (s.ctl.eccwin.toNat * 1000000000) s.tstamp.toNat (errLine loc) (s.die die).ecc
  let s := s.updDie die fun d => { d with ecc := es }
  .next (if es.any fun e => e.loc == errLine loc && decide (s.ctl.eccthr.toNat ≤ e.count) then s.retireFault die loc false else s)

/-- What an uncorrectable error at an offset of a die's Cave means for a vat (R76, R127): the lines that the entry there could touch, or all lines of
the wheel for its record, are bad from the next press or merged read on. Which vat of a die a wheel has is opaque. (DEDUCED, log entry 62, safe.) -/
def State.vatError (s : State) (die off : Nat) : State :=
  let hit := fun (w : Wheel) (v : Nat) => w.state.hasVat && homeDie w.wheel == die && Config.vatPlace w.wheel == v
  if off < 0x900000 then
    let e := (off - 0x100000) / 8
    { s with wheels := s.wheels.map fun w => if hit w (e / 64) then { w with bad := w.bad ++ ((w.vat[e % 64]?.map fun x => lineOf (w.wheel + x.off)).toList) } else w }
  else { s with wheels := s.wheels.map fun w => if hit w ((off - 0x900000) / 16) then { w with bad := wheelLines w.wheel } else w }

/-- An uncorrectable error at a byte of a core's scratchpad: a word of the workgroup's allocation or of the share of the cluster instance
that holds the byte is spoiled (R50, R70, R74). (DEDUCED, log entry 62, safe.) -/
def State.spadError (s : State) (core off : Nat) : State :=
  let s := (s.wgs.filter fun w => w.core == core && !w.saved).foldl (fun s w =>
    let b := Config.spadBase w.key
    if b ≤ off ∧ off < b + (w.spad + w.priv * 32 * w.groups) then s.spoil (.wg w.key) (off - b) else s) s
  (s.insts.filter fun i => i.cluster == clusterOf core && !i.saved).foldl (fun s i =>
    let b := Config.shareBase i.key
    if b ≤ off ∧ off < b + i.size / 4 then s.spoil (.inst i.key) (core % 4 * (i.size / 4) + (off - b)) else s) s

/-- UNCORRECTABLE_ECC_ERROR (R86, R127, R329): a line is poisoned until it is written in full, a word of an on-chip memory spoiled until it is
written, and the fault is lasting at once; in a vat or its record it is found by a press or a merged read, in an accumulator tile by a pass that reads
it. An address of another module stands for a line received with poison (R186). (DEDUCED, log entry 62, safe.) -/
def execUncorrectableEccError (pa : Nat) (s : State) : Out :=
  .next (match errAt pa with
    | .spad core off => (s.spadError core off).retireFault (dieOf core) pa true
    | .tiles cluster off => (s.tileError cluster off).retireFault (cluster / 8) pa true
    | .l1 core _ _ _ => s.retireFault (dieOf core) pa true
    | .l2 die _ _ _ => s.retireFault die pa true
    | .memory _ => match placeOf (localOf pa) with
      | .cave die =>
        let off := localOf pa % 0x2000000
        if 0x100000 ≤ off ∧ off < 0x940000 then (s.vatError die off).retireFault die pa true
        else (s.spoil .cave pa).retireFault die pa true
      | .window die => (s.spoil .cave pa).retireFault die pa true
      | _ => if moduleOf pa = s.module then (s.poisonLines [lineOf pa]).retireFault (homeDie pa) pa true else s.poisonLines [lineOf pa])

end Sys2Proof.Machine
end

