-- ==== Sys2Proof/Machine/GroupEvents.lean ====
section
/-!
DEFINITION. Steps of groups, of the schedulers and of the copy engines between instructions: waits that end, transactions, unit placement
and steals, drains, engine jobs, stops (R60, R84, R143, R156 to R168, R172, R206, R208, R213 to R216, R222, R313, R334 to R340, R355, R356).
-/
namespace Sys2Proof.Machine
open Sys2Proof

/-- Whether a core is frozen by a dump, so that the timers of its groups stand still (R372). -/
def State.isFrozen (s : State) (core : Nat) : Bool := (s.core core).frozen.isSome

/-- A parked entry of a group that meets a condition made ready, and free slots filled (R205). -/
def State.wakeEntry (s : State) (core slot seq : Nat) (hit : SaveEntry → Bool) (ready : SaveEntry → SaveEntry) : State :=
  let this := fun (e : SaveEntry) => e.seq == seq && hit e
  s.updGroup core slot fun g =>
    if g.save.any this then Group.refill s.clock { g with save := g.save.map fun e => if this e then ready e else e } else g

/-! ### Waits -/

/-- FENCE_COMPLETE (R143). -/
def execFenceComplete (core slot : Nat) (inB : Bool) (s : State) : Out := s.completeFence core slot inB

/-- BAR_WAIT_WAKE (R313): the object's PHASE or EXP is no longer what the path waits on. -/
def execBarWaitWake (core slot seq : Nat) (s : State) : Out :=
  .next (match s.groupAt core slot with
    | none => s
    | some g =>
      let hit := fun (e : SaveEntry) => match e.state with
        | .parked (.barWait off parity) =>
          let o := BarObj.ofNat (s.barBytes g.wg off)
          o.exp == 0 || o.phase != parity
        | _ => false
      s.wakeEntry core slot seq hit SaveEntry.readied)

/-- MWAIT_WAKE (R206): the monitored line was written; a wake-up may be spurious. -/
def execMwaitWake (core slot seq : Nat) (s : State) : Out := .next (s.wakeEntry core slot seq SaveEntry.monitoring SaveEntry.readied)

/-- An entry parked in `mwait` whose count has reached 0; it goes on counting while its group is saved. (DESIGN CHOICE, log entry 87, unsafe.) -/
def State.mwaitOver (s : State) (e : SaveEntry) : Bool := e.monitoring && decide (e.deadline ≤ s.clock)

/-- MWAIT_TIME_LIMIT (R206): the lanes go on after the `mwait` without a passing read. -/
def execMwaitTimeLimit (core slot seq : Nat) (s : State) : Out :=
  .next (if s.isFrozen core then s
    else s.wakeEntry core slot seq s.mwaitOver fun e => { e with state := .ready, pc := e.next })

/-- Whether an entry parked in `eyield` need wait no longer: its card has ended, or its group's matrix requests have retired (R338). -/
def State.yieldOver (s : State) (core : Nat) (g : Group) (e : SaveEntry) : Bool :=
  match e.state with
  | .parked (.eyield h) =>
    if h = 0 then !((s.cluster (clusterOf core)).resv.any fun r => r.wg == g.wg && r.gidx == g.gidx && decide (r.id < e.deadline))
    else !((s.core core).cards.any fun c => c.handle == h)
  | _ => false

/-- EYIELD_RESUME (R338). -/
def execEyieldResume (core slot seq : Nat) (s : State) : Out :=
  .next (match s.groupAt core slot with
    | none => s
    | some g => s.wakeEntry core slot seq (s.yieldOver core g) SaveEntry.readied)

/-! ### Transactions -/

/-- LOG_SLAB_GRANT (R156). -/
def execLogSlabGrant (core slot : Nat) (s : State) : Out := .next (s.grantSlab core slot)

/-- GROUP_COMMIT (R161). -/
def execGroupCommit (core slot region : Nat) (s : State) : Out := s.completeCommit core slot region

/-- COMMIT_TOKEN_GRANT (R161). (DEDUCED, log entry 44, unsafe.) -/
def execCommitTokenGrant (die core slot : Nat) (s : State) : Out := .next (s.grantToken die core slot)

/-- ORDERED_BATCH_COMMIT (R168). -/
def execOrderedBatchCommit (core slot region : Nat) (s : State) : Out := s.turnCome core slot region

/-- TX_BACKOFF_EXPIRY (R164). -/
def execTxBackoffExpiry (core slot seq : Nat) (s : State) : Out :=
  .next (if s.isFrozen core then s else s.entryTimeout core slot seq SaveEntry.backing)

/-- TX_PERIODIC_VALIDATION (R172). -/
def execTxPeriodicValidation (core slot lane : Nat) (s : State) : Out :=
  if s.isFrozen core then .next s else s.validateLane core slot lane

/-- FALLBACK_TOKEN_GRANT (R166). -/
def execFallbackTokenGrant (core slot lane : Nat) (s : State) : Out := .next (s.grantFallback core slot lane)

/-! ### Stops and trap contexts -/

/-- Whether a group stands at a boundary with every path parked. -/
def Group.parked (g : Group) : Bool := decide (g.status = .running) && !g.a.live && !g.b.live

/-- A stop asked for by DBGSTOP delivered to a group no path of which issues (R371). -/
def State.stopParked (s : State) (core slot : Nat) : State :=
  let s := s.updGroup core slot fun g => { g.stop s.defer with stopAsked := false }
  (s.queueEvent core { slot := slot, inB := false, code := codeBrk, pc := ((s.groupAt core slot).map fun g => g.a.runPc).getD 0, addr := 0x100
                       stamp := s.tstamp }).startEvent core

/-- GROUP_STOPPED (R356, R363, R371): a group that was asked to stop has written its results, or reaches a boundary where it may be saved or, all of
its paths parked, takes a debugger's stop. -/
def execGroupStopped (core slot : Nat) (s : State) : Out :=
  .next (match s.groupAt core slot with
    | none => s
    | some g =>
      if g.status = .stopping then
        (if g.inflight.isEmpty && g.commits.all (fun k => k.held.isEmpty) then
          (s.updGroup core slot fun g => { g with status := .stopped }).startEvent core else s)
      else if g.saveAsked && s.saveAllowed g then s.stopForSave core slot
      else if g.stopAsked && g.parked then s.stopParked core slot
      else s)

/-- TRAP_EVENT_START (R355). -/
def execTrapEventStart (core : Nat) (s : State) : Out := .next (s.startEvent core)

/-! ### Distributors (R213 to R216, R224) -/

/-- UNIT_PLACEMENT (R214, R216): where a priority-3 unit fits nowhere, victims chosen for it (R224); otherwise the next unit placed.
(DEDUCED, log entry 60, safe.) -/
def execUnitPlacement (die : Nat) (s : State) : Out :=
  .next (if 4 ≤ die then s
    else match s.preemptPlan die with
      | some ks => s.preempt ks
      | none => (s.placeFirst die s.byPriority []).getD s)

/-- PASS_OVER_TIMEOUT (R214). -/
def execPassOverTimeout (die : Nat) (s : State) : Out := .next (s.passOver die)

/-- Whether a die has room for a unit of a launch. -/
def State.hasRoom (s : State) (die : Nat) (l : Launch) : Bool :=
  if l.clb = 0 then (s.bestCore die l).isSome else (s.bestCluster die l).isSome

/-- The die that an idle distributor asks: the one whose last reported count is largest, the lowest of equals, where that is not 0. -/
def State.stealFrom (s : State) (thief : Nat) : Option Nat :=
  (bestOf ((List.range 4).filterMap fun d =>
    let n := (s.die thief).counts.getD d 0
    if d = thief ∨ n = 0 then none else some (d, n)))

/-- Whether a distributor asks for units (R215): it has none, its die has room for a unit of some launch, no steal of it is in flight, and a
report has come since its last empty reply. -/
def State.wantsSteal (s : State) (thief : Nat) : Bool :=
  decide (thief < 4) && decide (s.unplacedCount thief = 0) && (s.die thief).stealing.isNone && (s.die thief).freshReport
    && s.byPriority.any fun l => s.hasRoom thief l

/-- STEAL_REQUEST_ARRIVAL (R215): the victim gives up the upper half, rounded up, of the unplaced units of its first launch that has any. -/
def execStealRequestArrival (victim thief : Nat) (s : State) : Out :=
  .next (if !(s.wantsSteal thief && s.stealFrom thief == some victim) then s
    else match s.byPriority.find? fun l => !(l.waitingOn victim).isEmpty with
      | none => s.updDie thief fun d => { d with stealing := some victim, stolen := [] }
      | some l =>
        let units := l.waitingOn victim
        let keep := units.length / 2
        let s := s.updLaunch l.handle fun x => { x with unplaced := x.unplaced.set victim (units.take keep) }
        s.updDie thief fun d => { d with stealing := some victim, stolen := [(l.handle, units.drop keep)] })

/-- STEAL_REPLY_ARRIVAL (R215): stolen units keep their indices; after an empty reply the thief waits for a new report. -/
def execStealReplyArrival (thief : Nat) (s : State) : Out :=
  .next (match (s.die thief).stealing with
    | none => s
    | some _ =>
      let got := (s.die thief).stolen
      let s := s.updDie thief fun d => { d with stealing := none, stolen := [], freshReport := d.freshReport && !got.isEmpty }
      got.foldl (fun s x => s.updLaunch x.1 fun l => { l with unplaced := modifyAt (fun us => sortByKey id (us ++ x.2)) thief l.unplaced }) s)

/-- 2 µs, counted in main-clock cycles at 940 MHz (R215, R386). -/
def reportLimit : Nat := 1880

/-- Whether a distributor's report is due: its count has changed by 64 or more, or 2 µs have passed. -/
def State.reportDue (s : State) (die : Nat) : Bool :=
  let d := s.die die
  let n := s.unplacedCount die
  decide (d.reported + 64 ≤ n) || decide (n + 64 ≤ d.reported) || decide (d.reportedAt + reportLimit ≤ s.clock)

/-- Another die's count recorded (R215). -/
def State.recordCount (s : State) (die src count : Nat) : State :=
  s.updDie die fun d => { d with counts := d.counts.set src count, freshReport := true }

/-- COUNT_REPORT_TIMER (R215): the count sent to the three others, who have it at once with nothing deferred. (DESIGN CHOICE, log entry 42, safe.) -/
def execCountReportTimer (die : Nat) (s : State) : Out :=
  .next (if !(decide (die < 4) && s.reportDue die) then s
    else
      let n := s.unplacedCount die
      let s := s.updDie die fun d => { d with reported := n, reportedAt := s.clock }
      let others := (List.range 4).filter fun d => d != die
      if s.defer then { s with reports := s.reports ++ others.map fun d => (die, d, n) } else others.foldl (fun s d => s.recordCount d die n) s)

/-- COUNT_REPORT_ARRIVAL (R215): the oldest report under way between the two dies, which keep their order (R9). (DESIGN CHOICE, log entry 42, safe.) -/
def execCountReportArrival (die src count : Nat) (s : State) : Out :=
  .next (match s.reports.find? fun r => r.1 == src && r.2.1 == die with
    | some r => if r.2.2 = count then ({ s with reports := removeFirst (fun x => x == r) s.reports } : State).recordCount die src count else s
    | none => s)

/-- GROUP_DRAIN_DONE (R208). -/
def execGroupDrainDone (core slot : Nat) (s : State) : Out := .next (s.drainGroup core slot)

/-! ### Copy engines (R60, R84, R222, R334, R336, R340) -/

/-- ENGINE_JOB_START (R336): the ready card at the head of the queue. -/
def execEngineJobStart (core : Nat) (s : State) : Out :=
  .next (match s.headCard core with
    | some c => if c.state = .ready then (s.startHead core c).getD s else s
    | none => s)

/-- ENGINE_CHUNK_ARRIVAL (R84, R336): the next element of the running job arrives. (DEDUCED, log entry 45, safe.) -/
def execEngineChunkArrival (core card elem : Nat) (s : State) : Out :=
  .next (match s.headCard core with
    | some c => if c.state = .running ∧ c.seq = card ∧ c.next = elem ∧ elem < c.elements then (s.runHead core c).getD s else s
    | none => s)

/-- ENGINE_JOB_END (R334): every element of the running job is done. -/
def execEngineJobEnd (core card : Nat) (s : State) : Out :=
  .next (match s.headCard core with
    | some c => if c.state = .running ∧ c.seq = card ∧ c.elements ≤ c.next then (s.endHead core c).getD s else s
    | none => s)

/-- COLLECTIVE_START (R340). -/
def execCollectiveStart (cluster : Nat) (s : State) : Out := .next ((s.startCollective cluster).getD s)

end Sys2Proof.Machine
end

