-- ==== Sys2Proof/Machine/HostEvents.lean ====
section
/-!
DEFINITION. What comes from outside the module, and what its control registers, boot firmware and sensors do: host requests, control-register
writes, the debug and replay registers, sampling, firmware update, attestation, power, temperature, reset and boot (R176 to R181, R365,
R370 to R378, R380 to R387).
-/
namespace Sys2Proof.Machine
open Sys2Proof

/-! ### Host requests (R176, R181) -/

/-- A request of the host lies within one page of a BAR of a size, as every PCI Express request does. -/
def inBar (bar off len : Nat) : Bool := decide (0 < len) && decide (off / 4096 = (off + len - 1) / 4096) && decide (off + len ≤ bar)

/-- BAR2 and BAR4 are served from boot stage 4 on (R380). (DEDUCED, log entry 37, safe.) -/
def State.booted (s : State) : Bool := decide (4 ≤ field s.ctl.bootstat 0 4)

/-- The host's next posted write is performed once every earlier one has been performed at device scope (R176). -/
def State.afterPosted (s : State) : State :=
  let s := (s.msgs.filter fun m => s.hostLines.elem m.line).foldl (fun s m => s.deliverNext m.core m.line) s
  { s with hostLines := [] }

/-- Whether a host write to a vat-managed wheel still waits at its service group: later posted writes are not performed (R176).
(DEDUCED, log entry 43, safe.) -/
def State.hostBusy (s : State) : Bool := s.clusters.any fun c => c.intake.any fun u => u.ident == hostIdent

/-- An answer to the host, behind every posted write that the module sent towards it (R176). -/
def State.answerHost (s : State) (r : HostReply) : State :=
  let s := s.landHost
  { s with hostOut := s.hostOut ++ [r] }

/-- The Cave byte behind an offset of BAR2 (Table 09-1). -/
def State.bar2 (s : State) (off : Nat) : Nat := s.cavePa (off / 2 ^ 20) (off % 2 ^ 20)

/-- HOST_WRITE_BAR2 (R176, R179, R181): performed at the Cave; monitors wake. (DEDUCED, log entry 43, safe.) -/
def execHostWriteBar2 (off : Nat) (data : List Byte) (s : State) : Out :=
  .next (if !(s.booted && inBar (2 ^ 22) off data.length) || s.hostBusy then s
    else
      let s := s.afterPosted
      (s.caveWrite (s.bar2 off) data).wake (s.bar2 off) data.length)

/-- HOST_READ_BAR2 (R176): zeros before boot stage 4. (DEDUCED, log entry 37, safe.) -/
def execHostReadBar2 (off size : Nat) (s : State) : Out :=
  .next (if !inBar (2 ^ 22) off size then s
    else s.answerHost (.data (if s.booted then s.mem.readBytes (s.bar2 off) size else List.replicate size 0)))

/-- The new value of a host AtomicOp (R181): FetchAdd (0), Swap (1) or CAS (2). -/
def hostAtomic (op size old operand compare : Nat) : Nat :=
  let m := 2 ^ (8 * size)
  match op with
  | 0 => (old + operand) % m
  | 1 => operand % m
  | _ => if old = compare % m then operand % m else old

/-- HOST_ATOMICOP_BAR2 (R181): performed at the Cave in one step; an operation or size that PCI Express does not have is not performed.
(PRESUMED, log entry 40, unsafe.) -/
def execHostAtomicopBar2 (op off size : Nat) (operand compare : BitVec 128) (s : State) : Out :=
  let fits : Bool := decide (op < 3) && (size == 4 || size == 8 || (size == 16 && op == 2)) && off % size == 0 && inBar (2 ^ 22) off size
  .next (if !fits then s.answerHost .unsupported
    else if !s.booted then s.answerHost (.data (List.replicate size 0))
    else if s.hostBusy then s
    else
      let s := s.afterPosted
      let pa := s.bar2 off
      let old := s.mem.readNat pa size
      let s := (s.caveWrite pa (toBytes size (hostAtomic op size old operand.toNat compare.toNat))).wake pa size
      s.answerHost (.data (toBytes size old)))

/-- The local HBM address behind an offset of BAR4 (HBMWIN, Table 09-6). -/
def State.bar4 (s : State) (off : Nat) : Nat := s.ctl.hbmwin.toNat + off

/-- End of local HBM (Table 03-1). -/
def hbmEnd : Nat := 0x14000000000

/-- A host write performed in one line of HBM (R176, R110). -/
def State.hostLineWrite (s : State) (pa : Nat) (bs : List Byte) : State :=
  match s.route 0 pa with
  | .vat => s.sendUnit hostIdent 0 (wheelOf pa) (storeReqs bs.length pa bs)
  | _ => s.sliceWrite pa bs

/-- HOST_WRITE_BAR4 (R176, R110): a write at the home slice, or an untagged request to a vat-managed wheel. (DEDUCED, log entry 37, safe.)
(DEDUCED, log entry 43, safe.) -/
def execHostWriteBar4 (off : Nat) (data : List Byte) (s : State) : Out :=
  .next (if !(s.booted && inBar (2 ^ 41) off data.length) || s.hostBusy then s
    else if hbmEnd < s.bar4 off + data.length then s.answerHost .unsupported
    else
      let pa := s.module * 2 ^ 43 + s.bar4 off
      let s := (splitLines pa data).foldl (fun s x => s.hostLineWrite x.1 x.2) s.afterPosted
      { s with hostLines := linesOf pa data.length })

/-- A host read of some bytes of one line of HBM: a load at full precision, or merged with the wheel's vat (R176, R120). -/
def State.hostLineRead (s : State) (pa n : Nat) : List Byte × State :=
  match s.route 0 pa with
  | .vat => (s.mergedRead pa n, s.findBadAt (wheelOf pa))
  | _ =>
    let s := (s.recall (lineOf pa) true).fill (lineOf pa)
    (s.mem.readBytes pa n, s)

/-- HOST_READ_BAR4 (R176). -/
def execHostReadBar4 (off size : Nat) (s : State) : Out :=
  .next (if !inBar (2 ^ 41) off size then s
    else if !s.booted then s.answerHost (.data (List.replicate size 0))
    else if hbmEnd < s.bar4 off + size then s.answerHost .unsupported
    else
      let pa := s.module * 2 ^ 43 + s.bar4 off
      let (bs, s) := (splitLines pa (List.replicate size 0)).foldl (fun acc x =>
        let (bs, s) := acc.2.hostLineRead x.1 x.2.length
        (acc.1 ++ bs, s)) (([] : List Byte), s)
      s.answerHost (.data bs))

/-! ### The host's own memory (R181, R182) -/

/-- Whether bytes lie in the host's memory as the module addresses it. -/
def State.inHost (s : State) (pa n : Nat) : Bool :=
  let at_ := fun (p : Nat) => moduleOf p == s.module && decide (placeOf (localOf p) = .host)
  decide (0 < n) && at_ pa && at_ (pa + n - 1)

/-- The host writes its own memory; device copies are not told (R182). (DESIGN CHOICE, log entry 58, unsafe.) -/
def State.hostStore (s : State) (pa : Nat) (bs : List Byte) : State :=
  if s.inHost pa bs.length then { s with mem := s.mem.writeBytes pa bs } else s

/-- The host's compare-and-swap in its own memory. (DESIGN CHOICE, log entry 58, unsafe.) -/
def State.hostCas (s : State) (pa : Nat) (old new : List Byte) : State :=
  if old.length = new.length ∧ s.mem.readBytes pa old.length = old then s.hostStore pa new else s

/-! ### Control registers (R177, R178, R365, R370 to R372, R377, R378) -/

/-- The local address of the control range's first byte (Table 03-1). -/
def ctlBase : Nat := 0x6C000000000

/-- CONTROL_REGISTER_WRITE (R178): an address within the range, or an offset in it; 4 or 8 bytes, aligned. (DEDUCED, log entry 66, safe.) -/
def execControlRegisterWrite (byHost : Bool) (addr size : Nat) (value : W64) (s : State) : Out :=
  let pa := if addr < 2 ^ 30 then ctlBase + addr else localOf addr
  .next (if (size = 4 ∨ size = 8) ∧ pa % size = 0 ∧ ctlBase ≤ pa ∧ pa < ctlBase + 2 ^ 30 ∧ !(byHost && s.hostBusy) then
      (if byHost then s.afterPosted else s).ctlWrite byHost pa size value
    else s)

/-- MSIXTRIG_WRITE (R177). -/
def execMsixtrigWrite (byHost : Bool) (value : W64) (s : State) : Out := .next (s.raiseMsix byHost (field value 0 6))

/-- CAVEWIN_WRITE (R77). -/
def execCavewinWrite (die entry word : Nat) (value : W64) (s : State) : Out :=
  .next (if die < 4 ∧ entry < 16 ∧ word < 2 then s.writeCaveWin die entry word value else s)

/-- LKILL without and with TREE (R365). -/
def execLkillKill (handle : W32) (s : State) : Out := .next (s.killLaunch handle.toNat)
def execLkillKillTree (handle : W32) (s : State) : Out := .next (s.killTree handle.toNat)

/-- DBGSTOP_WRITE (R371). -/
def execDbgstopWrite (handle : W32) (s : State) : Out := .next (s.dbgStop handle.toNat)

/-- DUMPREL_WRITE (R372). -/
def execDumprelWrite (s : State) : Out := .next s.dumpRelease

/-- RRCTL written with each MODE (R377, R378), and RRSTAT (R370). -/
def execRrctlModeOff (value : W64) (s : State) : Out := .next (s.rrOff value)
def execRrctlModeRecord (value : W64) (s : State) : Out := .next (s.rrRecord value)
def execRrctlModeReplay (value : W64) (s : State) : Out := .next (s.rrReplay value)
def execRrstatClear (value : W64) (s : State) : Out := .next (s.rrClear value)

/-- REPLAY_GATE_TIMEOUT (R378): no progress for 1 ms while a request waits; the gate reports divergence and opens. -/
def execReplayGateTimeout (die entry : Nat) (s : State) : Out :=
  let r := (s.die die).recLines.getD entry {}
  let open_ := fun (s : State) =>
    s.updDie die fun d => { d with recLines := modifyAt (fun (r : RecLine) => { r with opened := true, waiting := none }) entry d.recLines }
  .next (match r.waiting with
    | none => s
    | some w =>
      if s.rrMode ≠ 2 ∨ r.opened ∨ s.tstamp.toNat < r.moved + 1000000 then s
      else if (s.groupAt w.core w.slot).any fun g => g.launch == s.rrHandle then
        (open_ s).diverge w.core w.slot w.path w.pc w.mask (BitVec.ofNat 64 (field r.entry 6 46 * 64)) []
      else s.updDie die fun d => { d with recLines := modifyAt (fun (r : RecLine) => { r with waiting := none }) entry d.recLines })

/-! ### Sampling (R375, R227) -/

/-- Codes of Table 11-3. -/
def Stall.code : Stall → Nat
  | .preemptSave => 0
  | .trapPending => 1
  | .barrierWait => 2
  | .mwaitParked => 3
  | .engineWait => 4
  | .txCommitWait => 5
  | .memDep => 6
  | .stallCount => 7
  | .matrixResv => 8
  | .ifetch => 9
  | .pipeBusy => 10
  | .notSelected => 11
  | .memHold => 6

/-- Why a path that is not in a slot waits. -/
def SaveEntry.reason (e : SaveEntry) : Option Stall :=
  match e.state with
  | .ready => none
  | .parked .mwait => some .mwaitParked
  | .parked (.barWait _ _) => some .barrierWait
  | .parked (.eyield _) => some .engineWait
  | .parked .backoff => some .txCommitWait
  | .waitJoin => some .barrierWait
  | .waitTend _ => some .txCommitWait
  | .waitResort => some .barrierWait

/-- A stall that a sample may report, with the path, PC and mask that it names. -/
structure Blocked where
  code : Nat
  path : Nat
  pc : W64
  mask : W32
  deriving DecidableEq, Repr

/-- Why a slot's path does not issue: what its last attempt waited for; for a path that has not tried since it issued, the results of its group that
are still in flight, or its stall count. -/
def Slot.reason (c : Slot) (g : Group) (clock : Nat) : Stall :=
  c.wait.getD (if g.inflight.any (fun x => x.mem) then .memDep else if clock < c.readyAt || !g.inflight.isEmpty then .stallCount else .notSelected)

/-- The slot that a record names for its whole group: slot A, or slot B where only that holds a path, since the PC is that of a path (R369). -/
def Group.named (g : Group) : Slot × Nat := if g.a.live || !g.b.live then (g.a, 0) else (g.b, 1)

/-- Whether a group's save request is being served or waits to be (R355). -/
def State.saving (s : State) (g : Group) : Bool :=
  let k := s.core g.core
  let hit := fun (e : TrapEvent) => e.slot == g.slot && decide (e.code = 0)
  k.events.any hit || k.served.any hit

/-- The stalls that hold for a group's paths, slot A first. -/
def State.blockedAt (s : State) (g : Group) : List Blocked :=
  let whole := fun (code : Nat) => [{ code := code, path := g.named.2, pc := g.named.1.runPc, mask := g.named.1.exm : Blocked }]
  let group := (if s.saving g then whole 0 else []) ++ (if g.status = .running ∨ g.status = .draining then [] else whole 1)
  let slot := fun (c : Slot) (n : Nat) => if c.live then [{ code := (c.reason g s.clock).code, path := n, pc := c.runPc, mask := c.exm : Blocked }] else []
  group ++ slot g.a 0 ++ slot g.b 1
    ++ g.save.filterMap fun e => e.reason.map fun r => { code := r.code, path := 2, pc := e.pc, mask := e.mask : Blocked }

/-- Whether a slot issued in the cycle before this step. (DEDUCED, log entry 41, safe.) -/
def Slot.issued (c : Slot) (now dt : Nat) : Bool := c.live && c.issuedAt.any fun t => decide (now ≤ t + dt)

/-- The sample of a group: DETAIL 15 where it issued, otherwise the first reason of Table 11-3 that holds. -/
def State.sampleOf (s : State) (g : Group) : List Byte :=
  let whole := fun (code : Nat) => ({ code := code, path := g.named.2, pc := g.named.1.runPc, mask := g.named.1.exm } : Blocked)
  let b : Blocked :=
    if g.a.issued s.clock s.dtCycles || g.b.issued s.clock s.dtCycles then whole 15
    else ((s.blockedAt g).foldl (fun (best : Option Blocked) b => match best with
      | none => some b
      | some x => if b.code < x.code then some b else some x) none).getD (whole 11)
  s.recordHeader g.core g.slot b.path 1 b.code b.pc b.mask g.launch

/-- The group sampled next on a core: ascending slots after the one sampled last, groups without a live path passed over. -/
def State.sampled (s : State) (core : Nat) : Option Group :=
  let last := (s.core core).smpLast
  ((List.range 64).map fun k => (last + 1 + k) % 64).findSome? fun slot =>
    (s.groupAt core slot).bind fun g => if g.a.live || g.b.live || !g.save.isEmpty then some g else none

/-- Whether a core takes a sample now. -/
def State.sampleDue (s : State) (core : Nat) : Bool :=
  let k := field s.ctl.smpctl 1 5
  decide (core < 128) && s.ctl.smpctl.getLsbD 0 && decide (8 ≤ k) && decide (k ≤ 24) && decide ((s.core core).smpDue ≤ s.clock)
    && decide ((s.core core).smpPos + 32 ≤ s.ctl.smpsz.toNat)

/-- SAMPLE_TIMER (R375). (DEDUCED, log entry 41, safe.) -/
def execSampleTimer (core : Nat) (s : State) : Out :=
  .next (if !s.sampleDue core then s
    else
      let next := s.clock + 2 ^ field s.ctl.smpctl 1 5
      match s.sampled core with
      | none => s.updCore core fun k => { k with smpDue := next }
      | some g =>
        let pa := s.module * 2 ^ 43 + (s.ctl.smpbuf.toNat + core * s.ctl.smpsz.toNat + (s.core core).smpPos) % 2 ^ 43
        let s := s.agentWrite core pa (s.sampleOf g)
        s.updCore core fun k => { k with smpDue := next, smpPos := k.smpPos + 32, smpLast := g.slot })

/-! ### Firmware update and attestation (R381 to R384) -/

/-- FWCTL_VERIFY (R382). -/
def execFwctlVerify (value : W64) (s : State) : Out := .next (s.fwVerify value)

/-- 32 bytes of a digest. -/
def digest (bs : List Byte) : List Byte := (List.range 32).map (Config.sha3 bs)

/-- The staged image accepted (R381): its signature, its body's digest and its version. (DEDUCED, log entry 34, unsafe.)
(DESIGN CHOICE, log entry 35, safe.) -/
def State.stagedOk (s : State) : Bool :=
  let w := s.ctl.fwstg
  let len := w.readNat 0x0C 4
  Config.signatureOk (w.readBytes 0 0x40 ++ w.readBytes 0x40 2420) && w.readBytes 0x10 32 == digest (w.readBytes 4096 (len - 4096))
    && decide (s.minSvn ≤ w.readNat 0x08 4)

/-- FW_VERIFY_DONE (R382, Table 21-4). (DEDUCED, log entry 34, unsafe.) -/
def execFwVerifyDone (s : State) : Out :=
  .next (if !s.ctl.fwstat.getLsbD 2 then s
    else if s.stagedOk then
      s.setCtl fun c => { c with fwstat := BitVec.ofNat 64 (c.fwstg.readNat 0x08 4 * 2 ^ 32 + field c.fwctl 1 1 * 8 + 1), stagedDigest := c.fwstg.readBytes 0x10 32 }
    else s.setCtl fun c => { c with fwstat := 2, stagedDigest := [] })

/-- ATTCTL_START (R384). -/
def execAttctlStart (s : State) : Out := .next s.attStart

/-- The digest of an image of a kind and the version of the running supervisor: as made, or as an update has put in place. -/
def State.imageOf (s : State) (kind : Bool) : Option (Bool × Nat × List Byte) := s.images.find? fun i => i.1 == kind

/-- The attestation report (Table 21-2). (DESIGN CHOICE, log entry 35, safe.) -/
def State.attestation (s : State) : List Byte :=
  let made := fun (n : Nat) => (List.range 32).map fun k => Config.firmwareDigest (32 * n + k)
  let now := fun (kind : Bool) (n : Nat) => ((s.imageOf kind).map fun i => i.2.2).getD (made n)
  let svn := ((s.imageOf true).map fun i => i.2.1).getD Config.supervisorSvn.toNat
  let body := toBytes 8 1 ++ toBytes 8 (s.module % 512 + 0x0901 * 65536) ++ (s.ctl.nonceCopy ++ List.replicate 32 0).take 32
    ++ made 0 ++ now false 1 ++ now true 2 ++ toBytes 8 svn ++ toBytes 8 s.ctl.attFlags ++ List.replicate 96 0
  body ++ (List.range 2420).map (Config.identitySign (digest body)) ++ List.replicate 1420 0

/-- ATTESTATION_DONE (R384): the report is written to the coherent window and BUSY ends. -/
def execAttestationDone (s : State) : Out :=
  .next (if !s.ctl.attctl.getLsbD 1 then s
    else
      let pa := s.cavePa 0 0x3000
      ((s.caveWrite pa s.attestation).wake pa 4096).setCtl fun c => { c with attctl := 0 })

/-! ### Power and temperature (R385 to R387) -/

/-- PWRCTL written with each state (R385). -/
def execPwrctlActive (s : State) : Out := .next (s.power 0)
def execPwrctlIdle (s : State) : Out := .next (s.power 1)
def execPwrctlRetain (s : State) : Out := .next s.powerRetain

/-- POWER_CAP_WINDOW (R386): the clock that the module chose to keep its power within the cap, in steps of 20 MHz down to 400 MHz.
(DESIGN CHOICE, log entry 39, safe.) -/
def execPowerCapWindow (mhz : Nat) (s : State) : Out :=
  .next (if 400 ≤ mhz ∧ mhz ≤ 940 ∧ mhz % 20 = 0 then s.setCtl fun c => { c with clknow := BitVec.ofNat 64 mhz } else s)

/-- THERMAL_THROTTLE (R387): a junction reaches 105 °C; the clock is lowered a step, and MSI-X vector 4 is raised once. (DEDUCED, log entry 38, safe.) -/
def execThermalThrottle (die : Nat) (reading : Byte) (s : State) : Out :=
  .next (if 4 ≤ die then s
    else
      let first := !(s.dies.any fun d => d.hot)
      let s := s.updDie die fun d => { d with therm := reading, hot := true }
      let s := s.setCtl fun c => { c with clknow := BitVec.ofNat 64 (max 400 (c.clknow.toNat - 20)) }
      if first then s.sendMsix 4 else s)

/-- A junction's reading while the module is not too hot (R387). (DEDUCED, log entry 38, safe.) -/
def State.junction (s : State) (die : Nat) (reading : Byte) : State := s.updDie die fun d => { d with therm := reading, hot := false }

/-- The lines of this module's HBM of which a cache may hold bytes that the HBM has not. (DESIGN CHOICE, log entry 1, unsafe.) -/
def State.heldLines (s : State) : List Nat :=
  (dedup (s.l2.map (fun l => l.line) ++ (s.l1.filter fun c => c.dirty != 0).map fun c => c.line)).filter fun l =>
    moduleOf l == s.module && decide (placeOf (localOf l) = .hbm)

/-- The module after reset (R19, R380, R382): everything as at reset but memory outside the module's SRAM, what is fused or held by the flash,
the record of retired locations (R368), and the model's own fields; a staged image takes effect. What was only in a cache is lost with it, so the lines
that a cache held read as free values. `trip` says that it was too hot (R387). (DESIGN CHOICE, log entry 1, unsafe.)
(DESIGN CHOICE, log entry 36, unsafe.) -/
def State.moduleReset (s : State) (trip : Bool) : State :=
  let st := s.ctl.fwstat
  let staged := st.getLsbD 0
  let kind := st.getLsbD 3
  let r := State.reset
  let held := s.heldLines
  let bytes := fun (i : Nat) => (List.range 64).map fun k => Config.freeByte (s.free + 64 * i + k)
  { r with
    mem := held.zipIdx.foldl (fun m x => m.writeBytes x.1 (bytes x.2)) s.mem
    module := s.module, agenda := s.agenda, defer := s.defer, dtCycles := s.dtCycles, dtNs := s.dtNs, free := s.free + 64 * held.length
    msix := s.msix, hostOut := s.hostOut, fabOut := s.fabOut, mailOut := s.mailOut, poison := s.poison, offWays := s.offWays
    bad := s.bad.filter fun b => decide (b.store = .cave)
    dies := r.dies.mapIdx fun i d => { d with retired := (s.die i).retired }
    minSvn := if staged then max s.minSvn (field st 32 32) else s.minSvn
    images := if staged then s.images.filter (fun i => i.1 != kind) ++ [(kind, field st 32 32, s.ctl.stagedDigest)] else s.images
    ctl := { r.ctl with bootstat := if trip then 0x2001 else 1 } }

/-- THERMAL_TRIP (R387). (DESIGN CHOICE, log entry 36, unsafe.) (DEDUCED, log entry 38, safe.) -/
def execThermalTrip (die : Nat) (reading : Byte) (s : State) : Out :=
  .next (if 4 ≤ die then s else (s.moduleReset true).updDie die fun d => { d with therm := reading })

/-- MODULE_RESET (R380). (DESIGN CHOICE, log entry 36, unsafe.) -/
def execModuleReset (s : State) : Out := .next (s.moduleReset false)

/-! ### Boot (R380) -/

/-- The Caves of the module written to zero. -/
def State.clearCaves (s : State) : State :=
  let cave := fun (pa : Nat) => decide (s.module * 2 ^ 43 + 0x68000000000 ≤ pa) && decide (pa < s.module * 2 ^ 43 + 0x68008000000)
  { s with mem := s.mem.filter fun c => !cave c.1 }

/-- The resident supervisor group that boot stage 4 starts (R212, R380). (DESIGN CHOICE, log entry 9, safe.) (DESIGN CHOICE, log entry 10, unsafe.) -/
def supervisorGroup (clock : Nat) : Group :=
  let start : Slot := { live := true, pc := Config.supervisorEntry, exm := BitVec.allOnes 32, entered := clock, lastIssue := clock }
  { Group.fresh 128 64 8 8 8 8 with
    core := 0, slot := 0, sup := true, root := Config.supervisorRoot, prio := 3, lanes := BitVec.allOnes 32, a := start, dsave := Config.dsaveOf 0 0 }

/-- Whether boot stage 3 may load a byte of the supervisor image at a physical address: local HBM and the Cave supervisor areas (Table 21-1,
Table 04-5). -/
def State.imagePlace (s : State) (pa : Nat) : Bool :=
  moduleOf pa == s.module && (match placeOf (localOf pa) with
    | .hbm => true
    | .cave _ => decide (0x940000 ≤ localOf pa % 0x2000000) && decide (localOf pa % 0x2000000 < 0xC00000)
    | _ => false)

/-- The supervisor image in memory (R380, stage 3). (DESIGN CHOICE, log entry 10, unsafe.) -/
def State.loadImage (s : State) : State :=
  let bytes := (Config.supervisorImage (((s.imageOf true).map fun i => i.2.2).getD [])).filter fun b => s.imagePlace b.1
  { s with mem := bytes.foldl (fun m b => m.write b.1 b.2) s.mem }

/-- What a stage leaves on completion (Table 21-1). (DESIGN CHOICE, log entry 7, unsafe.) (DESIGN CHOICE, log entry 10, unsafe.)
(DESIGN CHOICE, log entry 64, unsafe.) -/
def State.bootWork (s : State) (stage : Nat) : State :=
  match stage with
  | 2 => { s.clearCaves with wheels := [], bad := [], clusters := s.clusters.map fun c => { c with tiles := [], poisoned := [] } }
  | 3 => { s.loadImage with cores := s.cores.mapIdx fun c k => { k with vbase := Config.vectorBase c } }
  | 4 =>
    let s := s.mapGroups fun g => if g.slot = 64 then { startContext (Config.vectorBase g.core + BitVec.ofNat 64 (64 * 63)) s.clock g with root := Config.supervisorRoot } else g
    let s := { s with roots := Config.rootTables }
    if (s.groupAt 0 0).isSome then s else { s with groups := s.groups ++ [supervisorGroup s.clock] }
  | 5 => if Config.fabricConfigured then { s with tstamp := if s.tstamp.toNat ≤ Config.domainTime.toNat then Config.domainTime else s.tstamp, ctl := { s.ctl with joined := true } } else s
  | _ => s

/-- The version of the image of a kind that is in force: that of the last update, or as made. -/
def State.svnOf (s : State) (kind : Bool) : Nat :=
  ((s.imageOf kind).map fun i => i.2.1).getD (if kind then Config.supervisorSvn.toNat else Config.stage2Svn)

/-- Whether a boot stage accepts the image that it verifies (R381): stage 1 the stage-2 image, stage 3 the supervisor image. Whether the signature and
the digest of the image in the flash hold is `ok`. (DESIGN CHOICE, log entry 35, safe.) -/
def State.imageOk (s : State) (stage : Nat) (ok : Bool) : Bool :=
  ok && ((stage != 1 && stage != 3) || s.minSvn == 0 || decide (s.minSvn ≤ s.svnOf (stage == 3)))

/-- BOOT_STAGE_DONE: the present stage completes and the next begins; one that fails records itself and stops the sequence.
(DESIGN CHOICE, log entry 9, safe.) -/
def execBootStageDone (ok : Bool) (s : State) : Out :=
  let stage := field s.ctl.bootstat 0 4
  let put := fun (lo len v : Nat) (s : State) => s.setCtl fun c => { c with bootstat := setField c.bootstat lo len v }
  .next (if s.ctl.bootstat.getLsbD 12 || s.ctl.joined || decide (stage = 0) || decide (5 < stage) then s
    else if !s.imageOk stage ok then put 12 1 1 (put 8 4 stage s)
    else
      let s := s.bootWork stage
      if stage < 5 then put 0 4 (stage + 1) s else s)

end Sys2Proof.Machine
end

