-- ==== Sys2Proof/Machine/Resident.lean ====
section
/-!
DEFINITION. The resident routines of the trap contexts, by what they do (R358 to R361, R371): the default service of each event, the emulation of
misaligned loads and stores, and the requests for absent pages.
-/
namespace Sys2Proof.Machine
open Sys2Proof

/-! ### The trap registers as a routine writes them (R357, R359) -/

/-- ACTION and WSKIP of a core's `xcause` written, and the routine ended by an `rfe`. -/
def State.returnWith (s : State) (core action : Nat) (wskip : Bool) : State :=
  (s.updCore core fun k => { k with xcause := setField (setField k.xcause 30 2 action) 29 1 (if wskip then 1 else 0) }).endRoutine core

/-- The trap registers written for an event's group, by the fields that software may write (Table 19-1). -/
def State.nameEvent (s : State) (core : Nat) (e : TrapEvent) : State :=
  s.updCore core fun k =>
    { k with xcause := setField (setField (setField k.xcause 18 6 e.slot) 17 1 (if e.inB then 1 else 0)) 0 6 e.code
             xpc := BitVec.ofNat 64 (e.pc.toNat % 2 ^ 57), xaddr := e.addr, xmask := e.mask }

/-- The launch of the group that a core serves faulted, with CODE and xaddr as given (R358, R360). -/
def State.faultWith (s : State) (core code : Nat) (addr : W64) : State :=
  (s.updCore core fun k => { k with xcause := setField k.xcause 0 6 code, xaddr := addr }).returnWith core 1 false

/-- The served group goes on at an address (ACTION 0). -/
def State.resumeAt (s : State) (core : Nat) (pc : W64) (wskip : Bool) : State :=
  (s.updCore core fun k => { k with xpc := BitVec.ofNat 64 (pc.toNat % 2 ^ 57) }).returnWith core 0 wskip

/-! ### Emulating a misaligned load or store (R135, R360) -/

/-- A load or store as its routine sees it: its space (none for global memory), size code, whether it is a scalar form, its first data register, the
lanes with their addresses, its hints, and the pointer that it updates. -/
structure EmuTarget where
  load : Bool
  space : Option Space
  size : Nat
  scalar : Bool
  data : Nat
  lanes : List (Nat × W64)
  hints : Hints
  pointer : Option (Nat × W64) := none
  deriving DecidableEq, Repr

/-- The target of a run that begins at an address of the issuing group's code: its hints, the target, and its address; `n` bounds the run. -/
def State.runAt (s : State) : Nat → W64 → Hints → Option (Hints × Instr × W64)
  | 0, _, _ => none
  | n + 1, pc, h =>
    match s.check { s.who with wskip := true } .fetch false 4 pc with
    | .fails _ => none
    | .passes f => match decode (s.fetchWord (f.pa pc)) with
      | some (.hintSch _ _ _ _ _) => s.runAt n (pc + 4) h
      | some (.hintImm p) => s.runAt n (pc + 4) { h with imm := some p }
      | some (.hintOrd scope order) => s.runAt n (pc + 4) { h with ord := some { order := order, scope := scope } }
      | some (.hintMod upd sub zero pk sat rnd cache) =>
        s.runAt n (pc + 4) { h with mod := some { upd := upd, sub := sub, zero := zero, pk := pk, sat := sat, rnd := rnd, cache := cache } }
      | some (.hintExt sel cls reg) => s.runAt n (pc + 4) { h with ext := some { sel := sel, cls := cls, reg := reg } }
      | some i => some (h, i, pc)
      | none => none

/-- A vector form as a target; in mode 2 the lanes' places in the modulo buffer (R73). -/
def State.emuVector (s : State) (load : Bool) (space : Option Space) (h : Hints) (vdata vaddr sbase size mode : Nat) : EmuTarget :=
  let ptr := s.g.srcS sbase
  let b := s.g.bm.getD vaddr 0
  let at_ := fun (l : Nat) => BitVec.ofNat 64 (modBase b + (ptr.toNat - modBase b + l * 2 ^ size) % (modSize b * 16))
  { load := load, space := space, size := size, scalar := false, data := vdata, hints := h
    lanes := if mode = 2 then (lanesOf s.exm).map fun l => (l, at_ l) else s.mvLanes vaddr sbase size mode
    pointer := if mode = 2 then some (sbase, modNext ptr b) else none }

/-- A scalar form as a target. -/
def State.emuScalar (s : State) (load : Bool) (space : Option Space) (h : Hints) (sd sbase size mode off : Nat) : EmuTarget :=
  let base := s.g.srcS sbase
  { load := load, space := space, size := size, scalar := true, data := sd, hints := h
    lanes := [(0, if mode = 2 then base else soAddr h base mode off)]
    pointer := if mode = 0 then none else some (sbase, if mode = 2 then modNext base (s.g.bm.getD off 0) else base + BitVec.ofInt 64 (h.simm 8 off)) }

/-- The loads and stores that the routine emulates; none for any other instruction. -/
def State.emuTarget (s : State) (h : Hints) (i : Instr) : Option EmuTarget :=
  let chip := fun (mode : Nat) (sp : Space) => some (if mode = 4 then Space.slice 0 else sp)
  match i with
  | .vld vdata vaddr sbase size mode => some (s.emuVector true none h vdata vaddr sbase size mode)
  | .vldsub vdata vaddr sbase size mode => some (s.emuVector true none h vdata vaddr sbase size mode)
  | .vst vdata vaddr sbase size mode => some (s.emuVector false none h vdata vaddr sbase size mode)
  | .vlds vdata vaddr sbase size mode => some (s.emuVector true (chip mode .scratch) h vdata vaddr sbase size mode)
  | .vsts vdata vaddr sbase size mode => some (s.emuVector false (chip mode .scratch) h vdata vaddr sbase size mode)
  | .vldc vdata vaddr sbase size mode => some (s.emuVector true (chip mode .cluster) h vdata vaddr sbase size mode)
  | .vstc vdata vaddr sbase size mode => some (s.emuVector false (chip mode .cluster) h vdata vaddr sbase size mode)
  | .vldk vdata vaddr sbase size mode => some (s.emuVector true (chip mode .cave) h vdata vaddr sbase size mode)
  | .vstk vdata vaddr sbase size mode => some (s.emuVector false (chip mode .cave) h vdata vaddr sbase size mode)
  | .sld sd sbase size mode off => some (s.emuScalar true none h sd sbase size mode off)
  | .sst sd sbase size mode off => some (s.emuScalar false none h sd sbase size mode off)
  | .slds sd sbase size mode off => some (s.emuScalar true (some .scratch) h sd sbase size mode off)
  | .ssts sd sbase size mode off => some (s.emuScalar false (some .scratch) h sd sbase size mode off)
  | _ => none

/-- The accesses of a target (R360): lanes in ascending order, an aligned lane as one access, a misaligned one byte by byte. -/
def EmuTarget.accesses (t : EmuTarget) : List EmuAccess :=
  t.lanes.flatMap fun x =>
    if x.2.toNat % 2 ^ t.size = 0 then [{ lane := x.1, va := x.2, len := 2 ^ t.size }]
    else (List.range (2 ^ t.size)).map fun k => { lane := x.1, va := x.2 + BitVec.ofNat 64 k, len := 1 }

/-- The bytes that an access of a store writes. -/
def EmuTarget.bytes (t : EmuTarget) (g : Group) (a : EmuAccess) : List Byte :=
  let all := if t.scalar then g.scalarData t.data t.size else g.laneData t.data t.size a.lane
  let first := ((t.lanes.find? fun x => x.1 == a.lane).map fun x => x.2).getD a.va
  (all.drop (a.va - first).toNat).take a.len

/-- Whether a fence precedes, and whether one follows, an access of an order (R135). -/
def EmuTarget.before (t : EmuTarget) : Bool := t.hints.ord.any fun o => o.order == 4 || (!t.load && o.order == 2)
def EmuTarget.after (t : EmuTarget) : Bool := t.hints.ord.any fun o => o.order == 4 || (t.load && o.order == 1)

/-- A fence of the routine, of the access's own scope. -/
def EmuTarget.fence (t : EmuTarget) (s : State) : Res Unit := s.releasesAt ((t.hints.ord.map fun o => o.scope).getD 0)

/-- What one access of an emulation comes to: its bytes and the state; PAGE_NP; or what raises it. -/
inductive EmuEnd where
  | done (bs : List Byte) (s : State)
  | absent
  | held (e : Exc)
  deriving Repr

/-- One access to global memory, under the checks of the emulated group without filters (R360, R374). -/
def State.emuGlobal (s : State) (t : EmuTarget) (a : EmuAccess) : EmuEnd :=
  let k : Kind := if t.load then .load else .store
  match s.awaitWalks s.g.core s.g.asid s.g.root k [a.va] .memDep, s.check { s.who with watched := false } k t.scalar a.len a.va with
  | .error e, _ => .held e
  | _, .fails 3 => .absent
  | _, .fails row => .held (.trap { code := rowCode row, addr := a.va, info := k.info })
  | _, .passes f =>
    let p : Placed := { lane := a.lane, va := a.va, pa := f.pa a.va, leaf := f }
    let act : Res (List Byte × State) := do
      waitWhile (s.globalBusy k false [p] a.len)
      if t.load then do
        let u ← s.admitAccess .load a.len [p] (s.loadLeaves a.len .full)
        .ok ((u.fillAll u.who .load [p]).plainLoad p a.len .full false t.hints.mods.cache)
      else do
        let u ← s.gate (linesOf p.pa a.len)
        let u := u.fillAll u.who .store [p]
        let bs := t.bytes u.g a
        .ok ([], if u.viaVat p then u.sendUnits [{ lane := a.lane, addr := p.pa, size := bs.length, op := opStore, operand := BitVec.ofNat 128 (fromBytes bs) }]
          else u.plainStore p bs t.hints.mods.cache false)
    match act with
    | .ok (bs, u) => .done bs u
    | .error e => .held e

/-- One access to an on-chip space. -/
def State.emuChip (s : State) (t : EmuTarget) (sp : Space) (a : EmuAccess) : EmuEnd :=
  let k : Kind := if t.load then .load else .store
  let at_ := s.laneSpace sp a.lane
  let act : Res (List Byte × State) := do
    checkOffsets (s.extent sp) 1 k.info [(a.lane, a.va)]
    checkOffsets (s.extent sp) 1 k.info [(a.lane, a.va + BitVec.ofNat 64 (a.len - 1))]
    waitWhile (s.chipBusy k sp a.len [a.va.toNat])
    if t.load then do
      s.checkChip k.info a.len [(a.lane, at_, a.va.toNat)]
      .ok (s.chipRead at_ a.va.toNat a.len, s)
    else .ok ([], s.chipWrite at_ a.va.toNat (t.bytes s.g a))
  match act with
  | .ok (bs, u) => .done bs u
  | .error e => .held e

/-- One access of an emulation. -/
def State.emuAccess (s : State) (t : EmuTarget) (a : EmuAccess) : EmuEnd :=
  match t.space with
  | none => s.emuGlobal t a
  | some sp => s.emuChip t sp a

/-- What the routine writes into the group when every access is made: the registers of a load, and the pointer. -/
def EmuTarget.finish (t : EmuTarget) (got : List (Nat × List Byte)) (s : State) : State :=
  let s := if !t.load then s
    else if t.scalar then s.writeScalar t.data t.size (laneBytes got 0)
    else s.writeElems t.data t.size s.exm t.hints.mods.zero got
  let s := { s with g := s.g.landAll }
  match t.pointer with
  | some (r, x) => { s with g := s.g.writeS r x }
  | none => s

/-- The bytes of a lane extended by those of an access. -/
def gather (got : List (Nat × List Byte)) (lane : Nat) (bs : List Byte) : List (Nat × List Byte) :=
  if got.any fun x => x.1 == lane then got.map fun x => if x.1 == lane then (lane, x.2 ++ bs) else x else got ++ [(lane, bs)]

/-- The trap context of a core waits, or waits no more. -/
def State.trapWait (s : State) (core : Nat) (w : Option Stall) : State :=
  s.updGroup core 64 fun g => { g with a := { g.a with wait := w, readyAt := max g.a.readyAt s.clock } }

/-! ### Requests for absent pages (R60, R361) -/

/-- Whether a request is for the group in a slot of a core. -/
def PageRequest.names (q : PageRequest) (g : Group) : Bool := q.event.card.isNone && q.wg == g.wg && q.gidx == g.gidx && g.slot != 64 && g.launch != 0

/-- A request of a core for the pages of an event, behind those that it has; an older request for the same group only gives its entries back.
(DESIGN CHOICE, log entry 78, unsafe.) -/
def State.askPages (s : State) (core : Nat) (e : TrapEvent) (vas : List W64) (emu : Option Emulation) : State :=
  let g := s.groupAt core e.slot
  let q : PageRequest := { event := e, wg := (g.map fun g => g.wg).getD 0, gidx := (g.map fun g => g.gidx).getD 64, pages := dedup (vas.map pageOf), emu := emu }
  let stale := fun (x : PageRequest) => if e.card.isNone && x.event.card.isNone && x.wg == q.wg && x.gidx == q.gidx then { x with gidx := 64 } else x
  s.updCore core fun k => { k with pages := k.pages.map stale ++ [q] }

/-- A request of a core replaced. -/
def State.putRequest (s : State) (core : Nat) (old : PageRequest) (new : Option PageRequest) : State :=
  s.updCore core fun k => { k with pages := (k.pages.flatMap fun x => if x = old then new.toList else [x]) }

/-- The held group of a request, if it still is. -/
def State.heldFor (s : State) (core : Nat) (q : PageRequest) : Option Group :=
  s.allGroups.find? fun g => g.core == core && q.names g && decide (g.status = .held)

/-- What follows the last answer of a request, or a refusal: the engine is told; the held group's launch faults, or the group goes on at its run or in
its emulation. (DESIGN CHOICE, log entry 78, unsafe.) -/
def State.answered (s : State) (core : Nat) (q : PageRequest) : State :=
  match q.event.card, s.heldFor core q with
  | some seq, _ => s.tellEngine core seq (!q.refused)
  | none, none => s
  | none, some g =>
    let e := { q.event with slot := g.slot }
    let s := s.nameEvent core e
    if q.refused then s.faultWith core codePageNp e.addr
    else match q.emu with
      | none => s.resumeAt core e.pc false
      | some m =>
        let s := s.updCore core fun k => { k with serving := some e.slot, served := some e, emu := some m }
        s.updGroup core 64 (startContext ((s.core core).vbase + BitVec.ofNat 64 (64 * e.code)) s.clock)

/-- One step of a posted request: an answered entry is read and given back; none while every entry is unanswered. -/
def State.readAnswer (s : State) (core : Nat) (q : PageRequest) : Option State :=
  (q.entries.find? fun n => decide (2 ≤ s.ringState n)).map fun n =>
    let no := s.ringState n == 3
    let left := q.entries.filter fun x => x != n
    let q' : PageRequest := { q with entries := left, pages := q.pages.take left.length, refused := q.refused || no }
    let s := s.setRing n 0
    let after := if no && !q.refused then { q' with gidx := 64 } else q'
    let s := s.putRequest core q (if left.isEmpty then none else some after)
    if left.isEmpty || (no && !q.refused) then (if q.refused then s else s.answered core { q' with refused := no }) else s

/-- The next step of a core's requests (R361): an answer read, or the oldest request that is not posted put whole into the ring, with order `rel` at
scope `sys` (R142). (DESIGN CHOICE, log entry 78, unsafe.) -/
def State.pageStep (s : State) (core : Nat) : Option State :=
  let qs := (s.core core).pages.filter fun q => !q.pages.isEmpty
  ((qs.filter fun q => !q.entries.isEmpty).findSome? (s.readAnswer core)).or
    ((qs.find? fun q => q.entries.isEmpty && s.quiet).bind fun q => (s.postPages core q).map fun x => x.2.putRequest core q (some x.1))

/-! ### Groups held for a debugger (R371) -/

/-- A group that is held for a debugger goes on once none is attached: past a `brk`, at its run otherwise. (DESIGN CHOICE, log entry 78, unsafe.) -/
def State.releaseHeld (s : State) (core : Nat) : Option State :=
  if s.attached then none
  else ((s.core core).pages.find? fun q => q.pages.isEmpty && q.event.card.isNone).map fun q =>
    let s := s.putRequest core q none
    match s.heldFor core q with
    | none => s
    | some g =>
      let e := { q.event with slot := g.slot }
      (s.nameEvent core e).resumeAt core (if e.code = codeBrk ∧ e.addr ≠ 0x100 then e.pc + 4 else e.pc) (e.code == codeWatch)

/-- An event of a kind posted for the debugger, and its group held. -/
def State.holdForDebugger (s : State) (core kind detail : Nat) (e : TrapEvent) (g : Group) : State :=
  let c := if e.inB then g.b else g.a
  let s := s.postDebug { header := s.recordHeader core g.slot (if e.inB then 1 else 0) kind detail e.pc c.exm g.launch, addr := e.addr, cause := (s.core core).xcause, data := [] }
  (s.askPages core e [] none).returnWith core 3 false

/-! ### The routines -/

/-- The state in which a stopped group stands as the one that issues, on the path that an event names. -/
def State.onEvent (s : State) (core : Nat) (e : TrapEvent) : State :=
  let t := s.focus core e.slot
  { t with g := { t.g with inB := e.inB, early := [] } }

/-- A turn of the misaligned-access routine (R360): a fence, one access, or the end. (DESIGN CHOICE, log entry 78, unsafe.) -/
def State.emulate (s : State) (core : Nat) (e : TrapEvent) : State :=
  let t := s.onEvent core e
  match (t.runAt 64 e.pc {}).bind fun x => (t.emuTarget x.1 x.2.1).map fun y => (y, x.2.2) with
  | none => s.faultWith core codeMisalign e.addr
  | some (y, pc) =>
    if e.txab || t.g.txIn t.exm != 0 then s.faultWith core codeMisalign e.addr
    else
      let m := (s.core core).emu.getD { todo := y.accesses }
      let keep := fun (u : State) (m : Emulation) => (u.updCore core fun k => { k with emu := some m }).trapWait core none
      let stop := fun (x : Exc) => match x with
        | .trap r => s.faultWith core r.code r.addr
        | .trapAfter u r => u.faultWith core r.code r.addr
        | .wait w => s.trapWait core (some w)
        | .pend u w => u.trapWait core (some w)
        | _ => s.faultWith core codeMisalign e.addr
      if !m.begun then
        match if y.before then y.fence t else .ok () with
        | .ok _ => keep s { m with begun := true }
        | .error x => stop x
      else match m.todo with
        | a :: rest => match t.emuAccess y a with
          | .done bs u => keep u { m with todo := rest, got := if y.load then gather m.got a.lane bs else m.got }
          | .held x => stop x
          | .absent =>
            let e := { e with asid := t.g.asid, addr := a.va, info := if y.load then 0 else 1 }
            (s.askPages core e [a.va] (some m)).returnWith core 3 false
        | [] => match if y.after then y.fence t else .ok () with
          | .error x => stop x
          | .ok _ => ((y.finish m.got t).updCore core fun k => { k with emu := none }).resumeAt core (pc + 4) false

/-- A turn of the routine for an event (Table 19-2). An event whose group has gone is only ended. (DESIGN CHOICE, log entry 78, unsafe.) -/
def State.serve (s : State) (core : Nat) (e : TrapEvent) : State :=
  match e.card, s.groupAt core e.slot with
  | some _, _ => (s.askPages core e e.vas none).nextRoutine core
  | none, none => s.endRoutine core
  | none, some g =>
    if e.code = 0 then s.returnWith core 3 false
    else if e.code = codeMisalign then s.emulate core e
    else if e.code = codePageNp then (s.askPages core { e with asid := g.asid } (if e.vas.isEmpty then [e.addr] else e.vas) none).returnWith core 3 false
    else if e.code = codeWatch then (if s.attached then s.holdForDebugger core 3 e.info e g else s.returnWith core 0 true)
    else if e.code = codeBrk then
      (if s.attached then s.holdForDebugger core (if e.addr = 0x100 then 2 else 4) 0 e g
       else s.resumeAt core (if e.addr = 0x100 then e.pc else e.pc + 4) false)
    else s.returnWith core 1 false

/-- A turn of a trap context in its resident routines: the event that it serves, or, at the entry for no event, a request for pages or a held group
that goes on; none where there is nothing to do, and on a core that has been dumped (R372). (DESIGN CHOICE, log entry 78, unsafe.) -/
def State.residentTurn (s : State) (core : Nat) : Option State :=
  match (s.core core).serving, (s.core core).served with
  | some _, some e => some (s.serve core e)
  | some _, none => some (s.endRoutine core)
  | none, _ => if (s.core core).frozenPosted then none else (s.pageStep core).or (s.releaseHeld core)

/-- The answer to a suspended job's page request read by its core's trap context, which serves nothing else. -/
def State.resumeCard (s : State) (core seq : Nat) : Option State :=
  if (s.core core).serving.isSome || (s.core core).frozenPosted then none
  else ((s.core core).pages.find? fun q => decide (q.event.card = some seq)).bind fun q =>
    if q.entries.isEmpty then none else s.readAnswer core q

/-- ENGINE_JOB_RESUME (R60). (DEDUCED, log entry 45, safe.) -/
def execEngineJobResume (core card : Nat) (s : State) : Out := .next ((s.resumeCard core card).getD s)

end Sys2Proof.Machine
end

