-- ==== Sys2Proof/Machine/Dispatch.lean ====
section
/-!
DEFINITION. The dispatch of every instruction and event to its meaning.
-/
namespace Sys2Proof.Machine
open Sys2Proof

def exec (i : Instr) (s : State) : Host.Outcome State Fault Refusal :=
  match i with
  | .nop => Sys2Proof.Machine.execNop s
  | .hintSch ymask c4 c3 c2 c1 => Sys2Proof.Machine.execHintSch ymask c4 c3 c2 c1 s
  | .hintImm payload => Sys2Proof.Machine.execHintImm payload s
  | .hintOrd scope order => Sys2Proof.Machine.execHintOrd scope order s
  | .hintMod upd sub zero pk sat rnd cache => Sys2Proof.Machine.execHintMod upd sub zero pk sat rnd cache s
  | .hintExt sel cls reg => Sys2Proof.Machine.execHintExt sel cls reg s
  | .br off => Sys2Proof.Machine.execBr off s
  | .bxz off => Sys2Proof.Machine.execBxz off s
  | .bxnz off => Sys2Proof.Machine.execBxnz off s
  | .bxall off => Sys2Proof.Machine.execBxall off s
  | .bs sa cond off => Sys2Proof.Machine.execBs sa cond off s
  | .call off => Sys2Proof.Machine.execCall off s
  | .bdiv p neg off => Sys2Proof.Machine.execBdiv p neg off s
  | .ret => Sys2Proof.Machine.execRet s
  | .calli sa => Sys2Proof.Machine.execCalli sa s
  | .jmpi sa => Sys2Proof.Machine.execJmpi sa s
  | .bjt sa sb vi => Sys2Proof.Machine.execBjt sa sb vi s
  | .join => Sys2Proof.Machine.execJoin s
  | .yield => Sys2Proof.Machine.execYield s
  | .exit => Sys2Proof.Machine.execExit s
  | .mwait sa sb dbl uns cond => Sys2Proof.Machine.execMwait sa sb dbl uns cond s
  | .spawn sa sb sup => Sys2Proof.Machine.execSpawn sa sb sup s
  | .waitc sa sb => Sys2Proof.Machine.execWaitc sa sb s
  | .trap n => Sys2Proof.Machine.execTrap n s
  | .brk n => Sys2Proof.Machine.execBrk n s
  | .xmGet sd => Sys2Proof.Machine.execXmGet sd s
  | .xmSet sd sa => Sys2Proof.Machine.execXmSet sd sa s
  | .xmAnd sd sa => Sys2Proof.Machine.execXmAnd sd sa s
  | .xmAndn sd sa => Sys2Proof.Machine.execXmAndn sd sa s
  | .xmFromp sd p => Sys2Proof.Machine.execXmFromp sd p s
  | .xmPop sd => Sys2Proof.Machine.execXmPop sd s
  | .sadd sd sa sb w32 => Sys2Proof.Machine.execSadd sd sa sb w32 s
  | .ssub sd sa sb w32 => Sys2Proof.Machine.execSsub sd sa sb w32 s
  | .smul sd sa sb w32 => Sys2Proof.Machine.execSmul sd sa sb w32 s
  | .smulh sd sa sb w32 => Sys2Proof.Machine.execSmulh sd sa sb w32 s
  | .smulhu sd sa sb w32 => Sys2Proof.Machine.execSmulhu sd sa sb w32 s
  | .sdiv sd sa sb w32 => Sys2Proof.Machine.execSdiv sd sa sb w32 s
  | .sdivu sd sa sb w32 => Sys2Proof.Machine.execSdivu sd sa sb w32 s
  | .srem sd sa sb w32 => Sys2Proof.Machine.execSrem sd sa sb w32 s
  | .sand sd sa sb w32 => Sys2Proof.Machine.execSand sd sa sb w32 s
  | .sor sd sa sb w32 => Sys2Proof.Machine.execSor sd sa sb w32 s
  | .sxor sd sa sb w32 => Sys2Proof.Machine.execSxor sd sa sb w32 s
  | .sandn sd sa sb w32 => Sys2Proof.Machine.execSandn sd sa sb w32 s
  | .sshl sd sa sb w32 => Sys2Proof.Machine.execSshl sd sa sb w32 s
  | .sshr sd sa sb w32 => Sys2Proof.Machine.execSshr sd sa sb w32 s
  | .ssra sd sa sb w32 => Sys2Proof.Machine.execSsra sd sa sb w32 s
  | .srot sd sa sb w32 => Sys2Proof.Machine.execSrot sd sa sb w32 s
  | .smin sd sa sb w32 => Sys2Proof.Machine.execSmin sd sa sb w32 s
  | .sminu sd sa sb w32 => Sys2Proof.Machine.execSminu sd sa sb w32 s
  | .smax sd sa sb w32 => Sys2Proof.Machine.execSmax sd sa sb w32 s
  | .smaxu sd sa sb w32 => Sys2Proof.Machine.execSmaxu sd sa sb w32 s
  | .spopc sd sa w32 => Sys2Proof.Machine.execSpopc sd sa w32 s
  | .sclz sd sa w32 => Sys2Proof.Machine.execSclz sd sa w32 s
  | .sctz sd sa w32 => Sys2Proof.Machine.execSctz sd sa w32 s
  | .sbrev sd sa w32 => Sys2Proof.Machine.execSbrev sd sa w32 s
  | .sbfx sd sa sb w32 => Sys2Proof.Machine.execSbfx sd sa sb w32 s
  | .sbfi sd sa sb w32 => Sys2Proof.Machine.execSbfi sd sa sb w32 s
  | .sseq sd sa sb w32 => Sys2Proof.Machine.execSseq sd sa sb w32 s
  | .sslt sd sa sb w32 => Sys2Proof.Machine.execSslt sd sa sb w32 s
  | .ssltu sd sa sb w32 => Sys2Proof.Machine.execSsltu sd sa sb w32 s
  | .saddi sd sa imm => Sys2Proof.Machine.execSaddi sd sa imm s
  | .sli sd imm => Sys2Proof.Machine.execSli sd imm s
  | .sandi sd sa imm => Sys2Proof.Machine.execSandi sd sa imm s
  | .sori sd sa imm => Sys2Proof.Machine.execSori sd sa imm s
  | .sshi sd sa w32 kind amt => Sys2Proof.Machine.execSshi sd sa w32 kind amt s
  | .smfs sd num => Sys2Proof.Machine.execSmfs sd num s
  | .smts sa num => Sys2Proof.Machine.execSmts sa num s
  | .vmfs lo num hi => Sys2Proof.Machine.execVmfs lo num hi s
  | .satom sd sa sb space op => Sys2Proof.Machine.execSatom sd sa sb space op s
  | .scas sd sa sb space size => Sys2Proof.Machine.execScas sd sa sb space size s
  | .vadd vd va vb => Sys2Proof.Machine.execVadd vd va vb s
  | .vsub vd va vb => Sys2Proof.Machine.execVsub vd va vb s
  | .vmul vd va vb => Sys2Proof.Machine.execVmul vd va vb s
  | .vmulh vd va vb => Sys2Proof.Machine.execVmulh vd va vb s
  | .vmulhu vd va vb => Sys2Proof.Machine.execVmulhu vd va vb s
  | .vmad vd va vb => Sys2Proof.Machine.execVmad vd va vb s
  | .vand vd va vb => Sys2Proof.Machine.execVand vd va vb s
  | .vor vd va vb => Sys2Proof.Machine.execVor vd va vb s
  | .vxor vd va vb => Sys2Proof.Machine.execVxor vd va vb s
  | .vandn vd va vb => Sys2Proof.Machine.execVandn vd va vb s
  | .vshl vd va vb => Sys2Proof.Machine.execVshl vd va vb s
  | .vshr vd va vb => Sys2Proof.Machine.execVshr vd va vb s
  | .vsra vd va vb => Sys2Proof.Machine.execVsra vd va vb s
  | .vrot vd va vb => Sys2Proof.Machine.execVrot vd va vb s
  | .vmin vd va vb => Sys2Proof.Machine.execVmin vd va vb s
  | .vmax vd va vb => Sys2Proof.Machine.execVmax vd va vb s
  | .vminu vd va vb => Sys2Proof.Machine.execVminu vd va vb s
  | .vmaxu vd va vb => Sys2Proof.Machine.execVmaxu vd va vb s
  | .vabsd vd va vb => Sys2Proof.Machine.execVabsd vd va vb s
  | .vaddc vd va vb => Sys2Proof.Machine.execVaddc vd va vb s
  | .vdot4 vd va vb => Sys2Proof.Machine.execVdot4 vd va vb s
  | .vdot4u vd va vb => Sys2Proof.Machine.execVdot4u vd va vb s
  | .vcmp p cond va vb uns => Sys2Proof.Machine.execVcmp p cond va vb uns s
  | .vfcmp p cond va vb => Sys2Proof.Machine.execVfcmp p cond va vb s
  | .vmov vd va => Sys2Proof.Machine.execVmov vd va s
  | .vnot vd va => Sys2Proof.Machine.execVnot vd va s
  | .vneg vd va => Sys2Proof.Machine.execVneg vd va s
  | .vabs vd va => Sys2Proof.Machine.execVabs vd va s
  | .vpopc vd va => Sys2Proof.Machine.execVpopc vd va s
  | .vclz vd va => Sys2Proof.Machine.execVclz vd va s
  | .vctz vd va => Sys2Proof.Machine.execVctz vd va s
  | .vbrev vd va => Sys2Proof.Machine.execVbrev vd va s
  | .vext vd va half zext => Sys2Proof.Machine.execVext vd va half zext s
  | .vlid vd => Sys2Proof.Machine.execVlid vd s
  | .vaddi vd va imm => Sys2Proof.Machine.execVaddi vd va imm s
  | .vandi vd va imm => Sys2Proof.Machine.execVandi vd va imm s
  | .vori vd va imm => Sys2Proof.Machine.execVori vd va imm s
  | .vshi vd va kind amt => Sys2Proof.Machine.execVshi vd va kind amt s
  | .vmovi vd imm => Sys2Proof.Machine.execVmovi vd imm s
  | .vperm vd va vb => Sys2Proof.Machine.execVperm vd va vb s
  | .vpermx vd va vb => Sys2Proof.Machine.execVpermx vd va vb s
  | .vballot sd va => Sys2Proof.Machine.execVballot sd va s
  | .vredadd sd va uns => Sys2Proof.Machine.execVredadd sd va uns s
  | .vredmin sd va uns => Sys2Proof.Machine.execVredmin sd va uns s
  | .vredmax sd va uns => Sys2Proof.Machine.execVredmax sd va uns s
  | .vfredadd sd va => Sys2Proof.Machine.execVfredadd sd va s
  | .vfredmax sd va => Sys2Proof.Machine.execVfredmax sd va s
  | .vfirst sd va => Sys2Proof.Machine.execVfirst sd va s
  | .vread sd va k => Sys2Proof.Machine.execVread sd va k s
  | .vwrite sd vd k => Sys2Proof.Machine.execVwrite sd vd k s
  | .vbcast sd vd => Sys2Proof.Machine.execVbcast sd vd s
  | .vscan vd va op => Sys2Proof.Machine.execVscan vd va op s
  | .vscanx vd va op => Sys2Proof.Machine.execVscanx vd va op s
  | .vcompact vd va => Sys2Proof.Machine.execVcompact vd va s
  | .vexpand vd va => Sys2Proof.Machine.execVexpand vd va s
  | .vprune vd va vb => Sys2Proof.Machine.execVprune vd va vb s
  | .vbmap vd va vb => Sys2Proof.Machine.execVbmap vd va vb s
  | .vfadd vd va vb => Sys2Proof.Machine.execVfadd vd va vb s
  | .vfsub vd va vb => Sys2Proof.Machine.execVfsub vd va vb s
  | .vfmul vd va vb => Sys2Proof.Machine.execVfmul vd va vb s
  | .vfma vd va vb => Sys2Proof.Machine.execVfma vd va vb s
  | .vfmin vd va vb => Sys2Proof.Machine.execVfmin vd va vb s
  | .vfmax vd va vb => Sys2Proof.Machine.execVfmax vd va vb s
  | .vfdiv vd va vb => Sys2Proof.Machine.execVfdiv vd va vb s
  | .vfms vd va vb => Sys2Proof.Machine.execVfms vd va vb s
  | .vbdot2 vd va vb => Sys2Proof.Machine.execVbdot2 vd va vb s
  | .vhdot2 vd va vb => Sys2Proof.Machine.execVhdot2 vd va vb s
  | .vfabs vd va => Sys2Proof.Machine.execVfabs vd va s
  | .vfneg vd va => Sys2Proof.Machine.execVfneg vd va s
  | .vfrcp vd va => Sys2Proof.Machine.execVfrcp vd va s
  | .vfrsq vd va => Sys2Proof.Machine.execVfrsq vd va s
  | .vfsqrt vd va => Sys2Proof.Machine.execVfsqrt vd va s
  | .vfexp2 vd va => Sys2Proof.Machine.execVfexp2 vd va s
  | .vflog2 vd va => Sys2Proof.Machine.execVflog2 vd va s
  | .vfsin vd va => Sys2Proof.Machine.execVfsin vd va s
  | .vfcos vd va => Sys2Proof.Machine.execVfcos vd va s
  | .vfclass vd va => Sys2Proof.Machine.execVfclass vd va s
  | .vfrint vd va => Sys2Proof.Machine.execVfrint vd va s
  | .vcvt vd va dir x => Sys2Proof.Machine.execVcvt vd va dir x s
  | .vpack vd va vb => Sys2Proof.Machine.execVpack vd va vb s
  | .vunpk vd va vb => Sys2Proof.Machine.execVunpk vd va vb s
  | .vqblk vd va => Sys2Proof.Machine.execVqblk vd va s
  | .vdqblk vd va => Sys2Proof.Machine.execVdqblk vd va s
  | .vld vdata vaddr sbase size mode => Sys2Proof.Machine.execVld vdata vaddr sbase size mode s
  | .vst vdata vaddr sbase size mode => Sys2Proof.Machine.execVst vdata vaddr sbase size mode s
  | .vlds vdata vaddr sbase size mode => Sys2Proof.Machine.execVlds vdata vaddr sbase size mode s
  | .vsts vdata vaddr sbase size mode => Sys2Proof.Machine.execVsts vdata vaddr sbase size mode s
  | .vldc vdata vaddr sbase size mode => Sys2Proof.Machine.execVldc vdata vaddr sbase size mode s
  | .vstc vdata vaddr sbase size mode => Sys2Proof.Machine.execVstc vdata vaddr sbase size mode s
  | .vldk vdata vaddr sbase size mode => Sys2Proof.Machine.execVldk vdata vaddr sbase size mode s
  | .vstk vdata vaddr sbase size mode => Sys2Proof.Machine.execVstk vdata vaddr sbase size mode s
  | .vldsub vdata vaddr sbase size mode => Sys2Proof.Machine.execVldsub vdata vaddr sbase size mode s
  | .sld sd sbase size mode off => Sys2Proof.Machine.execSld sd sbase size mode off s
  | .sst sd sbase size mode off => Sys2Proof.Machine.execSst sd sbase size mode off s
  | .slds sd sbase size mode off => Sys2Proof.Machine.execSlds sd sbase size mode off s
  | .ssts sd sbase size mode off => Sys2Proof.Machine.execSsts sd sbase size mode off s
  | .vatom vdata vaddr sbase space op => Sys2Proof.Machine.execVatom vdata vaddr sbase space op s
  | .vcasW vdata vaddr sbase space => Sys2Proof.Machine.execVcasW vdata vaddr sbase space s
  | .vcasD vdata vaddr sbase space => Sys2Proof.Machine.execVcasD vdata vaddr sbase space s
  | .vcas2 vdata vaddr sbase space => Sys2Proof.Machine.execVcas2 vdata vaddr sbase space s
  | .vred vdata vaddr sbase space op => Sys2Proof.Machine.execVred vdata vaddr sbase space op s
  | .serviceGroupEntryApply cluster => Sys2Proof.Machine.execServiceGroupEntryApply cluster s
  | .prf sa lvl => Sys2Proof.Machine.execPrf sa lvl s
  | .fls sa sb scope => Sys2Proof.Machine.execFls sa sb scope s
  | .inv sa sb scope => Sys2Proof.Machine.execInv sa sb scope s
  | .fence scope order => Sys2Proof.Machine.execFence scope order s
  | .fenceComplete core slot inB => Sys2Proof.Machine.execFenceComplete core slot inB s
  | .wfetch sa sb kind => Sys2Proof.Machine.execWfetch sa sb kind s
  | .wevict sa => Sys2Proof.Machine.execWevict sa s
  | .wpress sa => Sys2Proof.Machine.execWpress sa s
  | .barInit sa sb => Sys2Proof.Machine.execBarInit sa sb s
  | .barArr sa grp p => Sys2Proof.Machine.execBarArr sa grp p s
  | .barWait sa sb => Sys2Proof.Machine.execBarWait sa sb s
  | .barWaitWake core slot seq => Sys2Proof.Machine.execBarWaitWake core slot seq s
  | .barExp sa sb p => Sys2Proof.Machine.execBarExp sa sb p s
  | .barTry sa sb p => Sys2Proof.Machine.execBarTry sa sb p s
  | .barInval sa => Sys2Proof.Machine.execBarInval sa s
  | .tbegVal sa n => Sys2Proof.Machine.execTbegVal sa n s
  | .tbegTs sa n => Sys2Proof.Machine.execTbegTs sa n s
  | .logSlabGrant core slot => Sys2Proof.Machine.execLogSlabGrant core slot s
  | .tend => Sys2Proof.Machine.execTend s
  | .groupCommit core slot region => Sys2Proof.Machine.execGroupCommit core slot region s
  | .commitTokenGrant die core slot => Sys2Proof.Machine.execCommitTokenGrant die core slot s
  | .orderedBatchCommit core slot region => Sys2Proof.Machine.execOrderedBatchCommit core slot region s
  | .txBackoffExpiry core slot seq => Sys2Proof.Machine.execTxBackoffExpiry core slot seq s
  | .txPeriodicValidation core slot lane => Sys2Proof.Machine.execTxPeriodicValidation core slot lane s
  | .fallbackTokenGrant core slot lane => Sys2Proof.Machine.execFallbackTokenGrant core slot lane s
  | .tabt code => Sys2Proof.Machine.execTabt code s
  | .tstat sa sel => Sys2Proof.Machine.execTstat sa sel s
  | .tord sa sb n => Sys2Proof.Machine.execTord sa sb n s
  | .ecmd sa sb guard k => Sys2Proof.Machine.execEcmd sa sb guard k s
  | .ewait sa sb => Sys2Proof.Machine.execEwait sa sb s
  | .eyield sa sb => Sys2Proof.Machine.execEyield sa sb s
  | .eyieldResume core slot seq => Sys2Proof.Machine.execEyieldResume core slot seq s
  | .eguard k => Sys2Proof.Machine.execEguard k s
  | .gres sa k => Sys2Proof.Machine.execGres sa k s
  | .ecopy sa sn guard k => Sys2Proof.Machine.execEcopy sa sn guard k s
  | .rrot sa sb guard k => Sys2Proof.Machine.execRrot sa sb guard k s
  | .ecoll sa sn guard k => Sys2Proof.Machine.execEcoll sa sn guard k s
  | .rebal sa sb ptrs vs => Sys2Proof.Machine.execRebal sa sb ptrs vs s
  | .resort sa vk => Sys2Proof.Machine.execResort sa vk s
  | .tdescTWrite sa sb t => Sys2Proof.Machine.execTdescTWrite sa sb t s
  | .tdescTRead sa sb t => Sys2Proof.Machine.execTdescTRead sa sb t s
  | .tdescAWrite sa acc => Sys2Proof.Machine.execTdescAWrite sa acc s
  | .tdescARead sa acc => Sys2Proof.Machine.execTdescARead sa acc s
  | .mwld sa sub tb => Sys2Proof.Machine.execMwld sa sub tb s
  | .mloop sa sb sub ta tb => Sys2Proof.Machine.execMloop sa sb sub ta tb s
  | .mzero sa sub acc => Sys2Proof.Machine.execMzero sa sub acc s
  | .mget sa sub t acc => Sys2Proof.Machine.execMget sa sub t acc s
  | .mput sa sub t acc => Sys2Proof.Machine.execMput sa sub t acc s
  | .mstore sa sub t acc => Sys2Proof.Machine.execMstore sa sub t acc s
  | .subarrayGrant cluster sub => Sys2Proof.Machine.execSubarrayGrant cluster sub s
  | .matrixPassDone cluster sub => Sys2Proof.Machine.execMatrixPassDone cluster sub s
  | .rfe => Sys2Proof.Machine.execRfe s
  | .tlbi sa sb kind => Sys2Proof.Machine.execTlbi sa sb kind s
  | .tlbiComplete core slot => Sys2Proof.Machine.execTlbiComplete core slot s
  | .ctxsv sa sb => Sys2Proof.Machine.execCtxsv sa sb s
  | .ctxld sa sb => Sys2Proof.Machine.execCtxld sa sb s
  | .sysc sa sb cls => Sys2Proof.Machine.execSysc sa sb cls s
  | .syscMailArrival die src cls body => Sys2Proof.Machine.execSyscMailArrival die src cls body s
  | .dump sa sb => Sys2Proof.Machine.execDump sa sb s
  | .dumpTimeLimit core => Sys2Proof.Machine.execDumpTimeLimit core s
  | .mwaitWake core slot seq => Sys2Proof.Machine.execMwaitWake core slot seq s
  | .mwaitTimeLimit core slot seq => Sys2Proof.Machine.execMwaitTimeLimit core slot seq s
  | .loadDataReturn core slot => Sys2Proof.Machine.execLoadDataReturn core slot s
  | .pageWalkDone die asid va => Sys2Proof.Machine.execPageWalkDone die asid va s
  | .dirLoadRequest core pa tag upd => Sys2Proof.Machine.execDirLoadRequest core pa tag upd s
  | .dirUpgradeRequest core pa tag => Sys2Proof.Machine.execDirUpgradeRequest core pa tag s
  | .dirStoreRequest core pa data => Sys2Proof.Machine.execDirStoreRequest core pa data s
  | .sliceWrite pa data => Sys2Proof.Machine.execSliceWrite pa data s
  | .ownerWriteback core pa => Sys2Proof.Machine.execOwnerWriteback core pa s
  | .recallArrival core pa downgrade => Sys2Proof.Machine.execRecallArrival core pa downgrade s
  | .l1InvalidateArrival core pa tag => Sys2Proof.Machine.execL1InvalidateArrival core pa tag s
  | .l1UpdateArrival core pa tag => Sys2Proof.Machine.execL1UpdateArrival core pa tag s
  | .sharerAckArrival pa => Sys2Proof.Machine.execSharerAckArrival pa s
  | .vatUnitIntake die cluster => Sys2Proof.Machine.execVatUnitIntake die cluster s
  | .mergedRead pa size => Sys2Proof.Machine.execMergedRead pa size s
  | .pressDone wheel => Sys2Proof.Machine.execPressDone wheel s
  | .remoteRequestArrival src op pa size tag data => Sys2Proof.Machine.execRemoteRequestArrival src op pa size tag data s
  | .remoteFillArrival wheel tag data => Sys2Proof.Machine.execRemoteFillArrival wheel tag data s
  | .wheelInvalidateArrival wheel => Sys2Proof.Machine.execWheelInvalidateArrival wheel s
  | .fabricTimeoutExpiry req => Sys2Proof.Machine.execFabricTimeoutExpiry req s
  | .fabricErrorCompletion req => Sys2Proof.Machine.execFabricErrorCompletion req s
  | .invalAckTimeout module pa => Sys2Proof.Machine.execInvalAckTimeout module pa s
  | .hostAtomicUrCompletion req => Sys2Proof.Machine.execHostAtomicUrCompletion req s
  | .hostWriteBar2 off data => Sys2Proof.Machine.execHostWriteBar2 off data s
  | .hostReadBar2 off size => Sys2Proof.Machine.execHostReadBar2 off size s
  | .hostAtomicopBar2 op off size operand compare => Sys2Proof.Machine.execHostAtomicopBar2 op off size operand compare s
  | .hostWriteBar4 off data => Sys2Proof.Machine.execHostWriteBar4 off data s
  | .hostReadBar4 off size => Sys2Proof.Machine.execHostReadBar4 off size s
  | .controlRegisterWrite byHost addr size value => Sys2Proof.Machine.execControlRegisterWrite byHost addr size value s
  | .msixtrigWrite byHost value => Sys2Proof.Machine.execMsixtrigWrite byHost value s
  | .cavewinWrite die entry word value => Sys2Proof.Machine.execCavewinWrite die entry word value s
  | .lkillKill handle => Sys2Proof.Machine.execLkillKill handle s
  | .lkillKillTree handle => Sys2Proof.Machine.execLkillKillTree handle s
  | .dbgstopWrite handle => Sys2Proof.Machine.execDbgstopWrite handle s
  | .dumprelWrite => Sys2Proof.Machine.execDumprelWrite s
  | .rrctlModeOff value => Sys2Proof.Machine.execRrctlModeOff value s
  | .rrctlModeRecord value => Sys2Proof.Machine.execRrctlModeRecord value s
  | .rrctlModeReplay value => Sys2Proof.Machine.execRrctlModeReplay value s
  | .rrstatClear value => Sys2Proof.Machine.execRrstatClear value s
  | .replayGateTimeout die entry => Sys2Proof.Machine.execReplayGateTimeout die entry s
  | .sampleTimer core => Sys2Proof.Machine.execSampleTimer core s
  | .fwctlVerify value => Sys2Proof.Machine.execFwctlVerify value s
  | .fwVerifyDone => Sys2Proof.Machine.execFwVerifyDone s
  | .attctlStart => Sys2Proof.Machine.execAttctlStart s
  | .attestationDone => Sys2Proof.Machine.execAttestationDone s
  | .pwrctlActive => Sys2Proof.Machine.execPwrctlActive s
  | .pwrctlIdle => Sys2Proof.Machine.execPwrctlIdle s
  | .pwrctlRetain => Sys2Proof.Machine.execPwrctlRetain s
  | .powerCapWindow mhz => Sys2Proof.Machine.execPowerCapWindow mhz s
  | .thermalThrottle die reading => Sys2Proof.Machine.execThermalThrottle die reading s
  | .thermalTrip die reading => Sys2Proof.Machine.execThermalTrip die reading s
  | .moduleReset => Sys2Proof.Machine.execModuleReset s
  | .bootStageDone ok => Sys2Proof.Machine.execBootStageDone ok s
  | .unitPlacement die => Sys2Proof.Machine.execUnitPlacement die s
  | .passOverTimeout die => Sys2Proof.Machine.execPassOverTimeout die s
  | .stealRequestArrival victim thief => Sys2Proof.Machine.execStealRequestArrival victim thief s
  | .stealReplyArrival thief => Sys2Proof.Machine.execStealReplyArrival thief s
  | .countReportTimer die => Sys2Proof.Machine.execCountReportTimer die s
  | .countReportArrival die src count => Sys2Proof.Machine.execCountReportArrival die src count s
  | .groupDrainDone core slot => Sys2Proof.Machine.execGroupDrainDone core slot s
  | .engineJobStart core => Sys2Proof.Machine.execEngineJobStart core s
  | .engineChunkArrival core card elem => Sys2Proof.Machine.execEngineChunkArrival core card elem s
  | .engineJobEnd core card => Sys2Proof.Machine.execEngineJobEnd core card s
  | .engineJobResume core card => Sys2Proof.Machine.execEngineJobResume core card s
  | .collectiveStart cluster => Sys2Proof.Machine.execCollectiveStart cluster s
  | .groupStopped core slot => Sys2Proof.Machine.execGroupStopped core slot s
  | .trapEventStart core => Sys2Proof.Machine.execTrapEventStart core s
  | .correctedEccError die loc => Sys2Proof.Machine.execCorrectedEccError die loc s
  | .uncorrectableEccError pa => Sys2Proof.Machine.execUncorrectableEccError pa s
  | .coherentWindowAccess core pa size op data => Sys2Proof.Machine.execCoherentWindowAccess core pa size op data s
  | .clusterCrossbarAccess core slot off size store data => Sys2Proof.Machine.execClusterCrossbarAccess core slot off size store data s
  | .variableLatencyResult core slot => Sys2Proof.Machine.execVariableLatencyResult core slot s
  | .failedModuleMarkClear module => Sys2Proof.Machine.execFailedModuleMarkClear module s

end Sys2Proof.Machine
end

