-- ==== Sys2Proof/Machine/Sched.lean ====
section
/-!
DEFINITION. What one step of the module does around the instruction or event that it performs: time passes, the debug ring and frozen
cores go on, and the agenda or the default policy says which agent moves (R201, R217, R218, R370, R372). Fetching an instruction's word
(R68, R233) is here too.
-/
namespace Sys2Proof.Machine
open Sys2Proof

/-! ### Time -/

/-- RETAIN stops the core clocks (Table 21-3). -/
def State.retained (s : State) : Bool := field s.ctl.pwrstat 0 2 == 2

/-- Whether the boot has still to reach the end of stage 2, until which the time stamp stands at 0 (R19, Table 21-1). -/
def State.training (s : State) : Bool := field s.ctl.bootstat 0 4 == 1 || field s.ctl.bootstat 0 4 == 2

/-- The clocks of one step (R18, R19); from boot stage 3 on the time stamp runs in every power state (R385). (DESIGN CHOICE, log entry 64, unsafe.) -/
def State.tick (s : State) : State :=
  { s with clock := if s.retained then s.clock else s.clock + s.dtCycles
           tstamp := if s.training then s.tstamp else s.tstamp + BitVec.ofNat 64 s.dtNs }

/-- Frozen cores stop the groups that have reached a boundary (R372). -/
def State.sweepAll (s : State) : State :=
  if s.cores.any fun k => k.frozen.isSome && !k.frozenPosted then
    ((List.range 128).filter fun c => (s.core c).frozen.isSome).foldl (fun s c => (s.focus c 64).sweepFrozen c) s
  else s

/-- Time passes, waiting debug events are written, and frozen cores go on stopping their groups. (DESIGN CHOICE, log entry 6, unsafe.) -/
def State.settled (s : State) : State :=
  let s := s.tick
  (s.flushDebug s.dbgWait.length).sweepAll

/-! ### Fetch (R53, R55, R68, R86, R233) -/

/-- The word at the issuing path's program counter, checked by Table 03-7 as a fetch, with the TLBs and the instruction cache filled. When steps are
deferred the path waits for the walk, and for the line, and fetches again. -/
def State.fetch (s : State) : Res (W32 × State) := do
  let pc := s.cur.pc
  if preChecks 4 pc then s.awaitWalks s.g.core s.g.asid s.g.root .fetch [pc] .ifetch
  match s.check s.who .fetch false 4 pc with
  | .fails row => .error (.trap { code := rowCode row, addr := pc, info := Kind.fetch.info })
  | .passes f =>
    let pa := f.pa pc
    let u := s.fillTlb s.g.core s.g.asid s.g.root .fetch pc f
    match u.instrRead pc pa with
    | .error (.trap t) => .error (.trapAfter u t)
    | .error e => .error e
    | .ok v => if s.defer && !u.icached u.g.core pa then .error (.pend v .ifetch) else .ok (v.fetchWord pa, v)

/-! ### One turn -/

/-- The state with the path of a slot as the one that issues. -/
def State.onPath (s : State) (core slot : Nat) (inB : Bool) : State :=
  let t := s.focus core slot
  { t with g := { t.g with inB := inB } }

/-- Whether the module has still to join a domain before it runs any launch (R19, R380). (DESIGN CHOICE, log entry 64, unsafe.) -/
def State.joining (s : State) : Bool :=
  Config.fabricConfigured && !s.ctl.joined && field s.ctl.bootstat 0 4 == 5 && !s.ctl.bootstat.getLsbD 12

/-- Whether a path of a group may issue at all: it is live, its group runs, and neither a fence nor a press that it asked for holds it, nor a `tlbi` of its
group, nor writes of its group for which a queue has no place yet (R62, R119, R122, R131, R187, R201, R356); a launch's also waits for the module to
have joined its domain. -/
def State.mayIssue (s : State) (g : Group) (inB : Bool) : Bool :=
  (if inB then g.b else g.a).live && decide (g.status = .running) && !s.retained
    && !(g.fenceWait.any fun f => f.1 == inB) && !(g.pressWait.any fun w => w.1 == inB) && g.tlbiWait.isEmpty && !s.held g.ident
    && (decide (g.launch = 0) || !s.joining)

/-- A stop asked for by DBGSTOP taken at this boundary (R371): CODE BRK, xaddr 0x100. Lanes that fail their validation leave first (R171),
and the stop is then taken at the next turn. -/
def State.takeStop (s : State) : Out :=
  match ({ s with g := { s.g with stopAsked := false } }).takeTrap { code := codeBrk, addr := 0x100 } with
  | .next t => .next (t.updGroup s.g.core s.g.slot fun g =>
      if g.status = .running then { g.setCur (g.cur.goto s.cur.runPc) with stopAsked := true } else { g with stopAsked := false })
  | o => o

/-- Whether a word is one of a run of hints (R234). -/
def isHint (w : W32) : Bool :=
  match decode w with
  | some (.hintSch ..) | some (.hintImm ..) | some (.hintOrd ..) | some (.hintMod ..) | some (.hintExt ..) => true
  | _ => false

/-- The issuing path's next word fetched, decoded and performed; a word that no form has raises IIN (R233, R253). A trap context takes a turn of its
resident routines. A stall count holds every word but a hint (R234, R240). -/
def State.issue (s : State) : Out :=
  if s.g.slot = 64 && s.resident then .next ((s.residentTurn s.g.core).getD s)
  else if s.g.stopAsked then s.takeStop
  else match s.fetch with
    | .error e => s.raise e
    | .ok (w, u) =>
      if decide (s.clock < s.cur.readyAt) && !isHint w then .next s
      else match decode w with
        | none => u.takeTrap { code := codeIIN }
        | some i => exec i u

/-- A path's turn; a path that may not issue does nothing. (DESIGN CHOICE, log entry 78, unsafe.) -/
def State.turnOf (s : State) (core slot : Nat) (inB : Bool) : Out :=
  let u := s.onPath core slot inB
  if u.g.at_ core slot && u.mayIssue u.g inB then u.issue else .next s

/-! ### Which path of a quadrant issues (R217, R218) -/

/-- A path that may issue, as R218 compares it. -/
structure Ready where
  core : Nat
  slot : Nat
  inB : Bool
  /-- Quadrant of the core in which its group stands (R200, R355). -/
  quadrant : Nat
  /-- It gives way in this clock (R240, R263). -/
  yields : Bool
  waited : Nat
  prio : Nat
  last : Nat
  born : Nat
  deriving DecidableEq, Repr

/-- The order of R218: a path that has waited 30 clocks, the longest first; then priority, the oldest issue, the oldest group, slot A. A path that gives
way comes behind the others (R240, R263). -/
def Ready.before (x y : Ready) : Bool :=
  let late := fun (r : Ready) => if 30 ≤ r.waited then r.waited else 0
  if x.yields ≠ y.yields then y.yields
  else if late x ≠ late y then decide (late y < late x)
  else if x.prio ≠ y.prio then decide (y.prio < x.prio)
  else if x.last ≠ y.last then decide (x.last < y.last)
  else if x.born ≠ y.born then decide (x.born < y.born)
  else !x.inB && y.inB

/-- A path placed among others in the order of R218. -/
def Ready.into (x : Ready) : List Ready → List Ready
  | [] => [x]
  | y :: rest => if x.before y then x :: y :: rest else y :: x.into rest

/-- Whether no stall count holds a path's next word; a trap context in its resident routines issues only where they have something to do. -/
def State.unheld (s : State) (g : Group) (inB : Bool) : Bool :=
  if g.slot = 64 && s.resident then (s.residentTurn g.core).isSome
  else decide ((if inB then g.b else g.a).readyAt ≤ s.clock) || match (s.onPath g.core g.slot inB).fetch with
    | .ok (w, _) => isHint w
    | .error _ => false

/-- The paths of a group that may issue now. -/
def State.readyOf (s : State) (g : Group) : List Ready :=
  ([false, true].filter fun b => s.mayIssue g b && s.unheld g b).map fun b =>
    let c := if b then g.b else g.a
    { core := g.core, slot := g.slot, inB := b, quadrant := if g.slot = 64 then 0 else g.gidx % 4, yields := decide (s.clock < c.giveWay)
      waited := (c.readySince.map fun t => s.clock - t).getD 0, prio := g.prio, last := c.lastIssue, born := g.born }

/-- Whether a path still stands and waits for something that its instruction needs. -/
def State.waitsAt (s : State) (r : Ready) : Bool :=
  (s.groupAt r.core r.slot).any fun g => let c := if r.inB then g.b else g.a
    c.live && c.wait.isSome

/-- Whether a path that may issue has all that its next instruction needs. -/
def State.canIssue (s : State) (r : Ready) : Bool :=
  match s.turnOf r.core r.slot r.inB with
  | .next t => !t.waitsAt r
  | _ => true

/-- Since when each of some paths has been ready (R218), noted for a path that is ready now and forgotten for one that is not. -/
def State.noteReady (s : State) (rs : List Ready) : State :=
  rs.foldl (fun t r =>
    let note := fun (c : Slot) => { c with readySince := if s.canIssue r then some (c.readySince.getD s.clock) else none }
    t.updGroup r.core r.slot fun g => if r.inB then { g with b := note g.b } else { g with a := note g.a }) s

/-- The first of some paths whose instruction waits for nothing issues; those before it go on waiting. -/
def tryPaths : List Ready → State → Out
  | [], s => .next s
  | r :: rest, s => match s.turnOf r.core r.slot r.inB with
    | .next t => if t.waitsAt r then tryPaths rest t else .next t
    | o => o

/-- Whether a path gives way: it is asked to in this clock, and another slot of its quadrant is ready (R240, R263). -/
def State.givesWay (s : State) (core slot : Nat) (inB : Bool) : Bool :=
  match s.groupAt core slot with
  | none => false
  | some g => decide (s.clock < (if inB then g.b else g.a).giveWay)
      && ((s.allGroups.filter fun x => x.core == core).flatMap s.readyOf).any fun r =>
        decide (r.quadrant = (if slot = 64 then 0 else g.gidx % 4)) && (decide (r.slot ≠ slot) || r.inB != inB) && s.canIssue r

/-- Whether an event is of the cores, their engines or the distributors, whose clocks RETAIN stops (R385). -/
def Instr.onCore : Instr → Bool
  | .unitPlacement .. | .passOverTimeout .. | .engineJobStart .. | .engineChunkArrival .. | .engineJobEnd .. | .engineJobResume .. | .collectiveStart ..
  | .subarrayGrant .. | .matrixPassDone .. | .trapEventStart .. | .sampleTimer .. | .groupStopped .. | .groupDrainDone .. | .stealRequestArrival ..
  | .stealReplyArrival .. | .countReportTimer .. | .countReportArrival .. | .mwaitTimeLimit .. | .txBackoffExpiry .. | .txPeriodicValidation .. => true
  | _ => false

/-- One agent's turn: an event that is no instruction, a path's next word, or what the host or the firmware does beside the events; a turn that cannot be
taken changes nothing. -/
def State.perform (s : State) (t : Turn) : Out :=
  match t with
  | .event i => if i.isWord || (s.retained && Instr.onCore i) then .next s else exec i s
  | .issue core slot inB => if s.givesWay core slot inB then .next s else s.turnOf core slot inB
  | .hostStore pa bs => .next (s.hostStore pa bs)
  | .hostCas pa old new => .next (s.hostCas pa old new)
  | .loadLog die line bs => .next (s.loadLog die line bs)
  | .junction die quarters => .next (s.junction die quarters)

/-- The paths of the quadrant whose turn it is, in the order of R218; quadrants with such paths take turns. -/
def State.nextPaths (s : State) (turn : Nat) : List Ready :=
  let all := s.allGroups.flatMap s.readyOf
  let quads := dedup (all.map fun r => (r.core, r.quadrant))
  match quads[turn % max 1 quads.length]? with
  | none => []
  | some q => (all.filter fun r => r.core == q.1 && r.quadrant == q.2).foldr Ready.into []

/-! ### The default policy: what is due -/

/-- What an agent does in its turn. -/
abbrev Act := State → Out

/-- The boot stage that completes next (R380). -/
def State.bootDue (s : State) : Option Act :=
  let stage := field s.ctl.bootstat 0 4
  if s.ctl.bootstat.getLsbD 12 || decide (stage = 0) then none
  else if stage < 5 then some (execBootStageDone true)
  else if stage = 5 ∧ !s.ctl.joined ∧ Config.fabricConfigured then some (execBootStageDone true)
  else none

/-- Waits of a parked entry that are over. -/
def State.entryDue (s : State) (g : Group) (e : SaveEntry) : Option Act :=
  if s.mwaitOver e && !s.isFrozen g.core then some (execMwaitTimeLimit g.core g.slot e.seq)
  else if e.backing && decide (e.deadline ≤ s.clock) && !s.isFrozen g.core then some (execTxBackoffExpiry g.core g.slot e.seq)
  else if s.yieldOver g.core g e then some (execEyieldResume g.core g.slot e.seq)
  else none

/-- Lanes whose periodic validation is due (R172). -/
def State.validationsDue (s : State) (g : Group) : List Act :=
  if g.txLanes = 0 || s.isFrozen g.core then []
  else (allLanes.filter fun l => laneOn g.openLanes l && decide ((g.laneTx l).since + 65536 ≤ s.clock)).map fun l => execTxPeriodicValidation g.core g.slot l

/-- Ordered batches whose turn has come (R168). -/
def State.batchesDue (s : State) (g : Group) : List Act :=
  if g.txLanes = 0 then []
  else
    let t := s.focus g.core g.slot
    (t.g.tokensOf (maskBy fun l => (g.laneTx l).atTend || (g.laneTx l).atTabt)).filterMap fun tok => match t.orderedBatch tok with
      | [] => none
      | l :: rest => if t.tokensFree (diesOf (g.commitPas true (l :: rest))) then some (execOrderedBatchCommit g.core g.slot (g.laneTx l).region) else none

/-- Commits of a group that go on: their next token is free, or they hold all of them (R161). -/
def State.commitsDue (s : State) (g : Group) : List Act :=
  g.commits.filterMap fun k => match k.need with
    | [] => some (execGroupCommit g.core g.slot k.region)
    | d :: _ => if (s.die d).token.isNone && (s.fallback.isNone || !k.held.isEmpty) then some (execCommitTokenGrant d g.core g.slot) else none

/-- Whether a draining group can end, or its workgroup's guards can be settled (R208). -/
def State.drainDue (s : State) (g : Group) : Bool :=
  g.slot != 64 && decide (g.status = .draining) && (s.drained g
    || ((s.groupsOfWg g.wg).all (fun x => decide (x.status = .draining))
        && (s.wgAt g.wg).any fun w => (s.core w.core).guards.any fun x => x.wg == w.key && decide (x.state = .pending)))

/-- What is due for one group. -/
def State.groupDue (s : State) (g : Group) : List Act :=
  if g.status = .frozen ∨ g.status = .saved then []
  else
    (if g.status = .stopping ∧ g.inflight.isEmpty then [execGroupStopped g.core g.slot] else [])
    ++ (if (g.saveAsked && s.saveAllowed g) || (g.stopAsked && g.parked) then [execGroupStopped g.core g.slot] else [])
    ++ (if s.drainDue g then [execGroupDrainDone g.core g.slot] else [])
    ++ (match g.inflight.find? fun r => r.await.isNone with
        | none => []
        | some r => [if r.mem then execLoadDataReturn g.core g.slot else execVariableLatencyResult g.core g.slot])
    ++ ((g.fenceWait.filter fun f => s.performedAt f.2 g).map fun f => execFenceComplete g.core g.slot f.1)
    ++ (if g.tlbiWait.isEmpty || !s.translatedDone then [] else [execTlbiComplete g.core g.slot])
    ++ g.save.filterMap (s.entryDue g) ++ s.validationsDue g ++ s.commitsDue g ++ s.batchesDue g

/-- What is due for one core (R355, R372, R375, R336). -/
def State.coreDue (s : State) (c : Nat) : List Act :=
  let k := s.core c
  (if k.serving.isNone && !k.frozenPosted && (match k.events with
      | [] => false
      | e :: _ => e.card.isSome || (s.groupAt c e.slot).any fun g => decide (g.status = .stopped)) then [execTrapEventStart c] else [])
  ++ (match k.frozen with
      | some t => if t ≤ s.tstamp.toNat then [execDumpTimeLimit c] else []
      | none => [])
  ++ (if s.sampleDue c then [execSampleTimer c] else [])
  ++ (match s.headCard c with
      | none => []
      | some x => match x.state with
        | .ready => if (s.startHead c x).isSome then [execEngineJobStart c] else []
        | .running =>
          if x.next < x.elements then (if (s.runHead c x).isSome then [execEngineChunkArrival c x.seq x.next] else [])
          else if (s.endHead c x).isSome then [execEngineJobEnd c x.seq] else []
        | .suspended => if (s.resumeCard c x.seq).isSome then [execEngineJobResume c x.seq] else []
        | .waiting => [])

/-- What is due for the memories of one cluster (R74, R106, R119). -/
def State.shareDue (s : State) (c : Nat) : List Act :=
  let k := s.cluster c
  (if k.sg.isEmpty then [] else [execServiceGroupEntryApply c])
  ++ (if s.intakeDue c then [execVatUnitIntake (c / 8) (c % 8)] else [])
  ++ (dedup (k.xbar.map fun x => (x.core, x.share))).map fun x => fun s => .next (s.xbarStep x.1 x.2)

/-- What is due for the engines of one cluster (R220, R326, R340). -/
def State.clusterDue (s : State) (c : Nat) : List Act :=
  let k := s.cluster c
  (if k.resv.isEmpty then [] else (List.range 4).filterMap fun j =>
      match (k.subs.getD j {}).busy with
      | none => if (s.winner c j).isSome then some (execSubarrayGrant c j) else none
      | some id => if k.resv.any fun r => r.id == id && decide (r.due ≤ s.clock) then some (execMatrixPassDone c j) else none)
  ++ (((List.range 4).filter fun j => ((k.subs.getD j {}).busy.isNone && (s.stamped c j).isSome)).map (execMatrixPassDone c))
  ++ (if (s.startCollective c).isSome then [execCollectiveStart c] else [])

/-- Whether a die's distributor places a unit now, or selects victims for one (R214, R216, R224). -/
def State.placeDue (s : State) (d : Nat) : Bool :=
  (s.placeFirst d s.byPriority []).isSome || (s.preemptPlan d).isSome

/-- What is due for one die's distributor (R214, R215, R224). -/
def State.placingDue (s : State) (d : Nat) : List Act :=
  (if s.launches.any fun l => !l.complete && !((l.waitingOn d).isEmpty && (l.savedOn d).isEmpty) then
    (if s.launches.any fun l => (l.mark d).any fun m => m.2 != 0 && decide (m.2 ≤ s.clock) then [execPassOverTimeout d] else [])
      ++ (if s.placeDue d then [execUnitPlacement d] else [])
   else [])
  ++ (if (s.die d).stealing.isSome then [execStealReplyArrival d]
      else if s.wantsSteal d then (s.stealFrom d).toList.map fun v => execStealRequestArrival v d else [])
  ++ (if s.reportDue d then [execCountReportTimer d] else [])

/-- What is due for one die's translation unit and gates (R55, R378). -/
def State.dieDue (s : State) (d : Nat) : List Act :=
  ((s.walks d).map fun q => execPageWalkDone d q.1 (BitVec.ofNat 64 (q.2 * 65536)))
  ++ (if s.rrMode = 2 then ((s.die d).recLines.mapIdx fun i r =>
        if r.waiting.isSome && !r.opened && decide (r.moved + 1000000 ≤ s.tstamp.toNat) then [execReplayGateTimeout d i] else []).flatten else [])

/-- What is due of the requests outside the module: answers, acknowledgements, and places that have become free (R187). -/
def State.fabricDue (s : State) : List Act :=
  ((s.fabric.filter fun r => r.sent && decide (r.status = .pending)).map fun r =>
    if r.posted then execSharerAckArrival r.pa else fun s => .next (s.answerRequest r.ident))
  ++ (if s.fabric.any fun r => !r.sent && decide (s.requestsOf (dieOf r.core) < 4096) then [fun s => .next s.promote] else [])

/-- Exchanges of a `resort` and completions of launches that nothing holds back any more (R208, R209). -/
def State.endsDue (s : State) : List Act :=
  ((dedup ((s.allGroups.filter fun g => g.save.any SaveEntry.sorting).map fun g => g.wg)).filter s.sortReady).map (fun wg => fun s => .next (s.trySort wg))
  ++ (if s.quiet then (s.launches.filter fun l => s.ended l).map fun l => fun s => .next (s.tryComplete l.handle) else [])

/-- Everything that is due, in a fixed order. In RETAIN the core clocks stand still (R385). -/
def State.due (s : State) : List Act :=
  s.msgs.map (fun m => match m.kind with
    | .invalidate => execL1InvalidateArrival m.core m.line m.tag
    | .update => execL1UpdateArrival m.core m.line m.tag)
  ++ (s.wheels.filter fun w => decide (w.state = .pressing)).map (fun w => execPressDone w.wheel)
  ++ s.fabricDue
  ++ s.stores.map (fun x => execDirStoreRequest x.core x.pa x.bytes)
  ++ (s.modAcks.map fun a => execSharerAckArrival a.2)
  ++ (match s.nextFallback with
      | some f => if s.fallback.isNone && !s.commitsHold then [execFallbackTokenGrant f.1 f.2.1 f.2.2] else []
      | none => [])
  ++ (if s.ctl.fwstat.getLsbD 2 then [execFwVerifyDone] else []) ++ (if s.ctl.attctl.getLsbD 1 then [execAttestationDone] else [])
  ++ s.reports.map (fun r => execCountReportArrival r.2.1 r.1 r.2.2)
  ++ (List.range 32).flatMap s.shareDue ++ (List.range 4).flatMap s.dieDue
  ++ (if s.retained then []
      else s.allGroups.flatMap s.groupDue ++ s.endsDue ++ (List.range 128).flatMap s.coreDue ++ (List.range 32).flatMap s.clusterDue
        ++ (List.range 4).flatMap s.placingDue)

/-! ### The default policy -/

/-- The paths of a quadrant as an agent's turn, if there are any. -/
def State.nextPath (s : State) (turn : Nat) : Option Act :=
  match s.nextPaths turn with
  | [] => none
  | [r] => some (tryPaths [r])
  | rs => some fun s =>
    let s := s.noteReady rs
    tryPaths (s.nextPaths turn) s

/-- The default choice: boot first; then events that are due and ready paths take turns. (DESIGN CHOICE, log entry 3, unsafe.)
(DESIGN CHOICE, log entry 9, safe.) (DESIGN CHOICE, log entry 17, safe.) -/
def State.choose (s : State) : Option Act :=
  match s.bootDue with
  | some i => some i
  | none =>
    let n := s.clock / max 1 s.dtCycles
    let due := s.due
    let event := due[n / 2 % max 1 due.length]?
    if n % 2 = 0 then event.or (s.nextPath (n / 2)) else (s.nextPath (n / 2)).or event

/-- One step: time passes, then the agenda's next turn is taken, or the default choice; nothing moves where nothing can. -/
def State.stepOnce (s : State) : Out :=
  let t := s.settled
  match t.agenda with
  | u :: rest => ({ t with agenda := rest }).perform u
  | [] => match t.choose with
    | none => .next t
    | some act => act t

end Sys2Proof.Machine
end

