-- ==== Sys2Proof/Machine/Step.lean ====
section
/-!
DEFINITION. The step of the module, and a state in which a given instruction is the next to issue.
-/
namespace Sys2Proof.Machine
open Sys2Proof

/-- One step of the module: time passes and one agent moves. (DESIGN CHOICE, log entry 3, unsafe.) (DESIGN CHOICE, log entry 17, safe.) -/
def step (s : State) : Host.Outcome State Fault Refusal := s.stepOnce

/-- Virtual address of the word that `withFetchWord` stores, and the page of local HBM behind its gigabyte. -/
def loaderVa : W64 := 0x1000
def loaderPage : Nat := 0x40000000

/-- The group that stands for a program loaded from outside: core 0, slot 0, supervisor code, every register allocated, slot A at the word. -/
def loaderGroup (m : Nat) : Group :=
  let start : Slot := { live := true, pc := loaderVa, exm := BitVec.allOnes 32 }
  { Group.fresh 128 64 8 8 8 8 with
    core := 0, slot := 0, sup := true, root := m * 2 ^ 43 + 0x1000, lanes := BitVec.allOnes 32, a := start }

/-- Three page-table entries that map the first gigabyte (R46): two pointers and a leaf with V, LEAF, RD, W, X and U. -/
def loaderTables (m : Nat) (mem : Cells) : Cells :=
  let base := m * 2 ^ 43
  ((mem.writeNat (base + 0x1000) 8 (base + 0x2001)).writeNat (base + 0x2000) 8 (base + 0x3001)).writeNat (base + 0x3000) 8 (base + loaderPage + 0x3F)

/-- A state with an instruction stored where the next step fetches, and its path's turn next. (DESIGN CHOICE, log entry 9, safe.) -/
def State.withFetchWord (s : State) (nbits w : Nat) : State :=
  let pa := s.module * 2 ^ 43 + loaderPage + loaderVa.toNat
  { s with
    g := loaderGroup s.module
    groups := s.allGroups.filter fun g => !g.at_ 0 0
    mem := (loaderTables s.module s.mem).writeBytes pa (wordBytes (w % 2 ^ nbits))
    cores := modifyAt (fun k => { k with icache := [], frozen := none }) 0 s.cores
    tlbs := [], walkCache := [], misses := [], defer := false
    poison := s.poison.filter fun x => decide (x.line + 64 ≤ pa) || decide (pa + 128 ≤ x.line)
    ctl := { s.ctl with pwrctl := 0, pwrstat := 0 }
    agenda := [.issue 0 0 false] }

end Sys2Proof.Machine
end

