-- ==== Sys2Proof/Safety.lean ====
section
/-!
DEFINITION. What claims are stated in terms of: when an instruction runs its own effect, where a path goes after it, and what else of the
state it may change.
-/
namespace Sys2Proof.Machine
open Sys2Proof

/-- Nothing stops an instruction of this form before its own checks: its hints and registers are admitted, no checked count falls short
(R242), no source is read early by a trusted count (R242), it is not one, nor carries a `hint.ord`, that a transaction forbids to its active lanes (R159), and the
scoreboard holds none of its sources and has room (R238). -/
def Form.runs (f : Form) (s : State) : Bool :=
  f.admits s.g s.cur.hints && (s.g.schkMode != 1 || (f.short s.cur s.cur.hints).isNone)
    && (f.earlyReads s.g s.clock s.cur.hints).isEmpty && !((f.noTx || s.cur.hints.ord.isSome) && s.g.txIn s.exm != 0) && (f.pends s.g s.cur.hints).isNone

/-- A slot without its place in the program, the hints of its run and the counts that govern its issue. -/
def Slot.still (c : Slot) : Slot :=
  { c with pc := 0, run := 0, hints := {}, cover := [], prods := [], readyAt := 0, giveWay := 0, lastIssue := 0, issuedAt := none, readySince := none,
           wait := none, wskip := false }

/-- A group without the bookkeeping of its issuing path. -/
def Group.still (g : Group) : Group :=
  { g with a := if g.inB then g.a else g.a.still, b := if g.inB then g.b.still else g.b, early := [] }

/-- The state without what every issue may change of the issuing path: its place in the program, its hints and its counts. Two states
equal in this form agree in every register, every other path, every special register, every byte of memory and all that the rest of the
module holds. -/
def State.still (s : State) : State := { s with g := s.g.still }

/-- The instruction answers a next state: the issuing path stands at `pc` with no hint collected, and all else is as in `u`. -/
def Goes (i : Instr) (s : State) (pc : W64) (u : State) : Prop :=
  ∃ t, exec i s = .next t ∧ t.cur.pc = pc ∧ t.cur.run = 0 ∧ t.cur.hints = {} ∧ t.still = u.still

/-- The instruction answers a next state at the next word, with all else as in `u`. -/
def Ends (i : Instr) (s u : State) : Prop := Goes i s (s.cur.pc + 4) u

/-- The instruction takes its whole path to a target, with all else as in `u`: a path that goes backwards after 4,096 clocks in its slot, while an entry
is ready, becomes a ready entry at the target and the oldest ready entry takes the slot, unless all 64 entries are in use (R205). -/
def Leaps (i : Instr) (s : State) (target : W64) (u : State) : Prop :=
  let back := decide (target.toNat ≤ s.cur.pc.toNat) && decide (s.cur.entered + 4096 ≤ s.clock) && s.g.save.any fun e => decide (e.state = .ready)
  let away := ({ u with g := u.g.push (readyEntry target s.exm s.cur.depth s.cur.tag) }).leave
  (back = false ∨ 64 ≤ s.g.save.length → Goes i s target u) ∧ (back = true → s.g.save.length < 64 → Goes i s away.cur.pc away)

/-- The event or instruction answers a next state, of which `P` holds. -/
def Gives (i : Instr) (s : State) (P : State → Prop) : Prop := ∃ t, exec i s = .next t ∧ P t

/-- The instruction traps: the next state is the one that the delivery of this trap gives. -/
def Traps (i : Instr) (s : State) (t : Trap) : Prop := exec i s = s.takeTrap t

/-- ReadSrc (R6, R231): what a lane gets of a vector source by its selector, when nothing is read early. -/
def Group.laneOf (g : Group) (x : VSrc) (l : Nat) : W32 := (g.readV x.reg).getD (if x.sel = 0 then l else permLane (g.permDesc x.sel) l) 0

/-- An access meets nothing but memory: the path that makes it stands in its slot, steps are not deferred, nothing is recorded or replayed (R376), no
module has failed (R193), no line is poisoned and no on-chip byte spoiled (R86), no host line is cached (R182), no message, store or request is on
its way, no active lane is in a transaction (R158), and what a `hint.ord` of the run waits for has been performed (R131, R139). -/
def State.calm (s : State) : Bool :=
  s.cur.live && !s.defer && s.rrMode == 0 && s.failed.isEmpty && s.poison.isEmpty && s.bad.isEmpty && s.hostCopies.isEmpty && s.msgs.isEmpty
    && s.stores.isEmpty && s.fabric.isEmpty && s.g.txIn s.exm == 0 && (s.ordered s.cur.hints).isOk

/-- The state with no register read early by the instruction before. -/
def State.onTime (s : State) : State := { s with g := { s.g with early := [] } }

/-- Every register of the issuing group, and all of its special registers and masks, are as before. -/
def Group.sameRegs (g h : Group) : Prop :=
  h.v = g.v ∧ h.s = g.s ∧ h.p = g.p ∧ h.t = g.t ∧ h.ac = g.ac ∧ h.bm = g.bm ∧ h.pcfg = g.pcfg ∧ h.schk = g.schk ∧ h.fmt = g.fmt ∧
  h.dsave = g.dsave ∧ h.wid = g.wid ∧ h.txst = g.txst ∧ h.lanes = g.lanes ∧ h.cur.exm = g.cur.exm

/-- A uniform result of `w32` forms is 32 bits wide, zero-extended (R270): an operation stated for every width. -/
def wide (w32 : Bool) (f : (n : Nat) → BitVec n → BitVec n → BitVec n) (a b : W64) : W64 :=
  if w32 then (f 32 (a.setWidth 32) (b.setWidth 32)).setWidth 64 else f 64 a b

end Sys2Proof.Machine
end

