-- ==== Sys2Proof/Certificates/Slice0/Obligations.lean ====
section
/-!
DEFINITION. The statements for the provers. `Ends`, `Goes`, `Leaps`, `Gives`, `Traps` and `Form.runs` are in Safety.lean.
-/
open Sys2Proof Sys2Proof.Machine

/-! ### Uniform arithmetic (R270 to R273) -/

/-- Table 14-9, major 0x07 at 64 bits and, with fn[7] = 1, at 32: sums, products and bitwise forms; shifts by b modulo the width, minimum, maximum and
comparison. The result goes to sd; a 32-bit one is zero-extended. Table 14-9, divisions: rounded towards zero, 0 for a zero divisor, the remainder of the dividend's sign and the dividend itself for a zero
divisor; and the counting forms and the bit reversal of major 0x07. -/
def Obligations.ScalarArithmetic : Prop :=
  ((∀ (s : State) (sd sa sb : Nat) (w32 : Bool),
    let res := fun (f : (n : Nat) → BitVec n → BitVec n → BitVec n) => s.putS false false sd (wide w32 f (s.g.readS sa) (s.g.readS sb))
    (Form.runs { srcs := [rs sa, rs sb], dsts := [rs sd], lat := 4 } s = true →
      Ends (.sadd sd sa sb w32) s (res fun _ a b => a + b) ∧ Ends (.ssub sd sa sb w32) s (res fun _ a b => a - b) ∧
      Ends (.sand sd sa sb w32) s (res fun _ a b => a &&& b) ∧ Ends (.sor sd sa sb w32) s (res fun _ a b => a ||| b) ∧
      Ends (.sxor sd sa sb w32) s (res fun _ a b => a ^^^ b) ∧ Ends (.sandn sd sa sb w32) s (res fun _ a b => a &&& ~~~b)) ∧
    (Form.runs { srcs := [rs sa, rs sb], dsts := [rs sd], lat := 6 } s = true →
      Ends (.smul sd sa sb w32) s (res fun _ a b => a * b) ∧
      Ends (.smulh sd sa sb w32) s (res fun n a b => BitVec.ofInt n (a.toInt * b.toInt / 2 ^ n)) ∧
      Ends (.smulhu sd sa sb w32) s (res fun n a b => BitVec.ofNat n (a.toNat * b.toNat / 2 ^ n)))) ∧
  (∀ (s : State) (sd sa sb : Nat) (w32 : Bool), Form.runs { srcs := [rs sa, rs sb], dsts := [rs sd], lat := 4 } s = true →
    let res := fun (f : (n : Nat) → BitVec n → BitVec n → BitVec n) => s.putS false false sd (wide w32 f (s.g.readS sa) (s.g.readS sb))
    Ends (.sshl sd sa sb w32) s (res fun n a b => a <<< (b.toNat % n)) ∧ Ends (.sshr sd sa sb w32) s (res fun n a b => a >>> (b.toNat % n)) ∧
    Ends (.ssra sd sa sb w32) s (res fun n a b => a.sshiftRight (b.toNat % n)) ∧
    Ends (.srot sd sa sb w32) s (res fun n a b => a.rotateLeft (b.toNat % n)) ∧
    Ends (.smin sd sa sb w32) s (res fun _ a b => if a.sle b then a else b) ∧ Ends (.sminu sd sa sb w32) s (res fun _ a b => if a ≤ b then a else b) ∧
    Ends (.smax sd sa sb w32) s (res fun _ a b => if a.sle b then b else a) ∧ Ends (.smaxu sd sa sb w32) s (res fun _ a b => if a ≤ b then b else a) ∧
    Ends (.sseq sd sa sb w32) s (res fun _ a b => if a = b then 1 else 0) ∧ Ends (.sslt sd sa sb w32) s (res fun _ a b => if a.slt b then 1 else 0) ∧
    Ends (.ssltu sd sa sb w32) s (res fun _ a b => if a < b then 1 else 0))) ∧
  ((∀ (s : State) (sd sa sb : Nat) (w32 : Bool), Form.runs { srcs := [rs sa, rs sb], dsts := [rs sd] } s = true →
    let res := fun (f : (n : Nat) → BitVec n → BitVec n → BitVec n) => s.putS true false sd (wide w32 f (s.g.readS sa) (s.g.readS sb))
    Ends (.sdiv sd sa sb w32) s (res fun _ a b => if b = 0 then 0 else a.sdiv b) ∧
    Ends (.sdivu sd sa sb w32) s (res fun _ a b => if b = 0 then 0 else a / b) ∧
    Ends (.srem sd sa sb w32) s (res fun _ a b => if b = 0 then a else a.srem b)) ∧
  (∀ (s : State) (sd sa : Nat) (w32 : Bool), Form.runs { srcs := [rs sa], dsts := [rs sd], lat := 4 } s = true →
    let res := fun (f : (n : Nat) → BitVec n → BitVec n) => s.putS false false sd (wide w32 (fun n a _ => f n a) (s.g.readS sa) 0)
    Ends (.spopc sd sa w32) s (res fun _ a => a.cpop) ∧ Ends (.sclz sd sa w32) s (res fun _ a => a.clz) ∧
    Ends (.sctz sd sa w32) s (res fun _ a => a.ctz) ∧ Ends (.sbrev sd sa w32) s (res fun _ a => a.reverse)))



/-- Tables 14-10 and 14-11: the immediate forms of majors 0x08 to 0x0C, with the immediate that a `hint.imm` widens (R235). R271: `sbfx` and `sbfi` take
their position from bits [5:0] and their length from bits [13:8] of sb; the field ends at the width of the form. -/
def Obligations.ScalarImmediates : Prop :=
  (∀ (s : State) (sd sa imm : Nat) (w32 : Bool) (amt : Nat),
    let h := s.cur.hints
    let a := s.g.readS sa
    let sx := fun w v => BitVec.ofInt 64 (sextInt (h.immNat w v) (h.immWidth w))
    (Form.runs { srcs := [rs sa], dsts := [rs sd], lat := 4, imm := true } s = true →
      Ends (.saddi sd sa imm) s (s.putS false false sd (a + sx 14 imm)) ∧
      Ends (.sandi sd sa imm) s (s.putS false false sd (a &&& sx 14 imm)) ∧
      Ends (.sori sd sa imm) s (s.putS false false sd (a ||| BitVec.ofNat 64 (h.immNat 14 imm))) ∧
      (h.imm.getD 0 = 0 → amt < (if w32 then 32 else 64) →
        let sh := fun (f : (n : Nat) → BitVec n → BitVec n) => s.putS false false sd (wide w32 (fun n x _ => f n x) a 0)
        Ends (.sshi sd sa w32 0 amt) s (sh fun _ x => x <<< amt) ∧ Ends (.sshi sd sa w32 1 amt) s (sh fun _ x => x >>> amt) ∧
        Ends (.sshi sd sa w32 2 amt) s (sh fun _ x => x.sshiftRight amt) ∧ Ends (.sshi sd sa w32 3 amt) s (sh fun _ x => x.rotateLeft amt))) ∧
    (Form.runs { dsts := [rs sd], lat := 4, imm := true } s = true → Ends (.sli sd imm) s (s.putS false false sd (sx 20 imm)))) ∧
  (∀ (s : State) (sd sa sb : Nat) (w32 : Bool),
    let c := s.g.readS sb
    let pos := (c.extractLsb' 0 6).toNat
    let len := (c.extractLsb' 8 6).toNat
    let mask := fun n => if len = 0 ∨ n ≤ pos then 0#n else (BitVec.allOnes n >>> (n - min len (n - pos))) <<< pos
    (Form.runs { srcs := [rs sa, rs sb], dsts := [rs sd], lat := 4 } s = true →
      Ends (.sbfx sd sa sb w32) s (s.putS false false sd (wide w32 (fun n a _ => (a &&& mask n) >>> pos) (s.g.readS sa) 0))) ∧
    (Form.runs { srcs := [rs sa, rs sb, rs sd], dsts := [rs sd], lat := 4 } s = true →
      Ends (.sbfi sd sa sb w32) s (s.putS false false sd
        (wide w32 (fun n a old => (old &&& ~~~mask n) ||| ((a <<< pos) &&& mask n)) (s.g.readS sa) (s.g.readS sd)))))

/-! ### What writing a register does (R198, R201, R238, R239, R281) -/

/-- R198, R201, R238, R239: a uniform result is what the register reads next, s0 discards it, and every other register keeps its value; a result of
no fixed latency may land later. An active lane of a vector register gets its value, an inactive one keeps its own or is zeroed under `.z`; a path
whose mask is empty writes nothing. -/
def Obligations.RegisterWrites : Prop :=
  (∀ (s : State) (v m : Bool) (n k : Nat) (x : W64), n < s.g.s.length →
    let t := s.putS v m n x
    t.g.readS 0 = 0 ∧ (k ≠ n → t.g.readS k = s.g.readS k) ∧ t.g.v = s.g.v ∧ t.g.p = s.g.p ∧ t.mem = s.mem ∧
    ((v && s.defer) = false → n ≠ 0 → t.g.readS n = x) ∧
    ((v && s.defer) = true → t.g.readS n = s.g.readS n ∧ (n ≠ 0 → ∃ r ∈ t.g.inflight, r.reg = rs n ∧ (t.g.land r).readS n = x))) ∧
  (∀ (s : State) (m : Bool) (n k l : Nat) (mask : W32) (z : Bool) (f : Nat → W32), n < s.g.v.length → l < 32 →
    let t := s.putV false m n mask z f
    (k ≠ n → t.g.readV k = s.g.readV k) ∧ t.g.s = s.g.s ∧ t.g.p = s.g.p ∧ t.mem = s.mem ∧
    (mask = 0 → t = s) ∧
    (mask ≠ 0 → t.g.lane n l = if laneOn mask l then f l else if z then 0 else s.g.lane n l))

/-! ### Vector integer forms (R278 to R281) -/

/-- Table 15-2, majors 0x10 to 0x1A: sums, differences and products, where `.sat` clamps `vadd` and `vsub` as signed values; bitwise forms, shifts by b
modulo 32, minimum and maximum. -/
def Obligations.VectorArithmetic : Prop :=
  (∀ (s : State) (vd : Nat) (va vb : VSrc),
    let form := fun lat (sat acc : Bool) => Form.runs { srcs := [rv va.reg, rv vb.reg] ++ (if acc then [rv vd] else []), dsts := [rv vd], sels := [va.sel, vb.sel], lat := lat, sat := sat, z := true } s = true
    let res := fun (f : W32 → W32 → W32 → W32) => s.putV false false vd s.exm s.cur.hints.mods.zero fun l =>
      f (s.g.laneOf va l) (s.g.laneOf vb l) (s.g.lane vd l)
    let sat := fun (wrapped : W32) (exact : Int) => if s.cur.hints.mods.sat then BitVec.ofInt 32 (max (-2147483648) (min 2147483647 exact)) else wrapped
    let bytes := fun (f : BitVec 8 → Int) (a b : W32) =>
      BitVec.ofInt 32 (f (a.extractLsb' 0 8) * f (b.extractLsb' 0 8) + f (a.extractLsb' 8 8) * f (b.extractLsb' 8 8)
        + f (a.extractLsb' 16 8) * f (b.extractLsb' 16 8) + f (a.extractLsb' 24 8) * f (b.extractLsb' 24 8))
    (form 6 true false →
      Ends (.vadd vd va vb) s (res fun a b _ => sat (a + b) (a.toInt + b.toInt)) ∧
      Ends (.vsub vd va vb) s (res fun a b _ => sat (a - b) (a.toInt - b.toInt))) ∧
    (form 6 false false →
      Ends (.vaddc vd va vb) s (res fun a b _ => if a.toNat + b.toNat < 2 ^ 32 then 0 else 1) ∧
      Ends (.vabsd vd va vb) s (res fun a b _ => if a.sle b then b - a else a - b)) ∧
    (form 8 false false →
      Ends (.vmul vd va vb) s (res fun a b _ => a * b) ∧
      Ends (.vmulh vd va vb) s (res fun a b _ => BitVec.ofInt 32 (a.toInt * b.toInt / 2 ^ 32)) ∧
      Ends (.vmulhu vd va vb) s (res fun a b _ => BitVec.ofNat 32 (a.toNat * b.toNat / 2 ^ 32))) ∧
    (form 8 false true →
      Ends (.vmad vd va vb) s (res fun a b c => a * b + c) ∧
      Ends (.vdot4 vd va vb) s (res fun a b c => c + bytes BitVec.toInt a b) ∧
      Ends (.vdot4u vd va vb) s (res fun a b c => c + bytes (fun x => x.toNat) a b))) ∧
  (∀ (s : State) (vd : Nat) (va vb : VSrc),
    Form.runs { srcs := [rv va.reg, rv vb.reg], dsts := [rv vd], sels := [va.sel, vb.sel], lat := 6, z := true } s = true →
    let res := fun (f : W32 → W32 → W32) => s.putV false false vd s.exm s.cur.hints.mods.zero fun l => f (s.g.laneOf va l) (s.g.laneOf vb l)
    Ends (.vand vd va vb) s (res fun a b => a &&& b) ∧ Ends (.vor vd va vb) s (res fun a b => a ||| b) ∧
    Ends (.vxor vd va vb) s (res fun a b => a ^^^ b) ∧ Ends (.vandn vd va vb) s (res fun a b => a &&& ~~~b) ∧
    Ends (.vshl vd va vb) s (res fun a b => a <<< (b.toNat % 32)) ∧ Ends (.vshr vd va vb) s (res fun a b => a >>> (b.toNat % 32)) ∧
    Ends (.vsra vd va vb) s (res fun a b => a.sshiftRight (b.toNat % 32)) ∧ Ends (.vrot vd va vb) s (res fun a b => a.rotateLeft (b.toNat % 32)) ∧
    Ends (.vmin vd va vb) s (res fun a b => if a.sle b then a else b) ∧ Ends (.vmax vd va vb) s (res fun a b => if a.sle b then b else a) ∧
    Ends (.vminu vd va vb) s (res fun a b => if a ≤ b then a else b) ∧ Ends (.vmaxu vd va vb) s (res fun a b => if a ≤ b then b else a))

/-- Tables 15-3, 15-4 and 15-5: the immediate and unary integer forms of majors 0x1D to 0x22. -/
def Obligations.VectorUnary : Prop :=
  ∀ (s : State) (vd : Nat) (va : VSrc) (imm amt : Nat),
    let h := s.cur.hints
    let sx := BitVec.ofInt 32 (sextInt (h.immNat 10 imm) (h.immWidth 10))
    let form := fun (sat im : Bool) => Form.runs { srcs := [rv va.reg], dsts := [rv vd], sels := [va.sel], lat := 6, sat := sat, imm := im, z := true } s = true
    let all := fun (f : Nat → W32) => s.putV false false vd s.exm h.mods.zero f
    let res := fun (f : W32 → W32) => all fun l => f (s.g.laneOf va l)
    let sat := fun (wrapped : W32) (exact : Int) => if h.mods.sat then BitVec.ofInt 32 (max (-2147483648) (min 2147483647 exact)) else wrapped
    (form true true → Ends (.vaddi vd va imm) s (res fun a => sat (a + sx) (a.toInt + sextInt (h.immNat 10 imm) (h.immWidth 10)))) ∧
    (form false true →
      Ends (.vandi vd va imm) s (res fun a => a &&& sx) ∧ Ends (.vori vd va imm) s (res fun a => a ||| BitVec.ofNat 32 (h.immNat 10 imm)) ∧
      (h.imm.getD 0 = 0 → amt < 32 →
        Ends (.vshi vd va 0 amt) s (res fun a => a <<< amt) ∧ Ends (.vshi vd va 1 amt) s (res fun a => a >>> amt) ∧
        Ends (.vshi vd va 2 amt) s (res fun a => a.sshiftRight amt) ∧ Ends (.vshi vd va 3 amt) s (res fun a => a.rotateLeft amt))) ∧
    (Form.runs { dsts := [rv vd], lat := 6, imm := true, z := true } s = true → Ends (.vmovi vd imm) s (all fun _ => sx)) ∧
    (Form.runs { dsts := [rv vd], lat := 6, z := true } s = true → Ends (.vlid vd) s (all fun l => BitVec.ofNat 32 l)) ∧
    (form true false →
      Ends (.vneg vd va) s (res fun a => sat (-a) (-a.toInt)) ∧ Ends (.vabs vd va) s (res fun a => sat (if a.slt 0 then -a else a) (a.toInt.natAbs))) ∧
    (form false false →
      Ends (.vmov vd va) s (res fun a => a) ∧ Ends (.vnot vd va) s (res fun a => ~~~a) ∧
      Ends (.vpopc vd va) s (res fun a => a.cpop) ∧ Ends (.vclz vd va) s (res fun a => a.clz) ∧
      Ends (.vctz vd va) s (res fun a => a.ctz) ∧ Ends (.vbrev vd va) s (res fun a => a.reverse) ∧
      Ends (.vext vd va false false) s (res fun a => (a.extractLsb' 0 8).signExtend 32) ∧ Ends (.vext vd va true false) s (res fun a => (a.extractLsb' 0 16).signExtend 32) ∧
      Ends (.vext vd va false true) s (res fun a => (a.extractLsb' 0 8).setWidth 32) ∧ Ends (.vext vd va true true) s (res fun a => (a.extractLsb' 0 16).setWidth 32))

/-- R281, Table 13-4: a comparison sets or clears the bit of each active lane in p; the other bits are kept, or cleared under `.z`; with an
empty mask nothing is written. A NaN operand satisfies only ne and unord. -/
def Obligations.VectorCompares : Prop :=
  ∀ (s : State) (p : Nat) (va vb : VSrc), p < s.g.p.length →
    Form.runs { srcs := [rv va.reg, rv vb.reg], dsts := [rp p], sels := [va.sel, vb.sel], lat := 6, z := true } s = true →
    let res := fun (f : W32 → W32 → Bool) => s.putP p s.exm s.cur.hints.mods.zero fun l => f (s.g.laneOf va l) (s.g.laneOf vb l)
    (Ends (.vcmp p 0 va vb false) s (res fun a b => a == b) ∧ Ends (.vcmp p 1 va vb false) s (res fun a b => a != b) ∧
      Ends (.vcmp p 2 va vb false) s (res fun a b => a.slt b) ∧ Ends (.vcmp p 3 va vb false) s (res fun a b => b.sle a) ∧
      Ends (.vcmp p 4 va vb false) s (res fun a b => b.slt a) ∧ Ends (.vcmp p 5 va vb false) s (res fun a b => a.sle b) ∧
      Ends (.vcmp p 2 va vb true) s (res fun a b => a.ult b) ∧ Ends (.vcmp p 3 va vb true) s (res fun a b => b.ule a) ∧
      Ends (.vcmp p 4 va vb true) s (res fun a b => b.ult a) ∧ Ends (.vcmp p 5 va vb true) s (res fun a b => a.ule b)) ∧
    (let cmp := fun (nan : Bool) (f : XReal → XReal → Bool) => res fun a b =>
        let x := decodeFmt a.toNat fp32
        let y := decodeFmt b.toNat fp32
        if x.isNan || y.isNan then nan else f x y
     Ends (.vfcmp p 0 va vb) s (cmp false XReal.eqv) ∧ Ends (.vfcmp p 1 va vb) s (cmp true fun x y => !XReal.eqv x y) ∧
      Ends (.vfcmp p 2 va vb) s (cmp false XReal.lt) ∧ Ends (.vfcmp p 3 va vb) s (cmp false fun x y => !XReal.lt x y) ∧
      Ends (.vfcmp p 4 va vb) s (cmp false fun x y => XReal.lt y x) ∧ Ends (.vfcmp p 5 va vb) s (cmp false fun x y => !XReal.lt y x) ∧
      Ends (.vfcmp p 6 va vb) s (cmp false fun _ _ => true) ∧ Ends (.vfcmp p 7 va vb) s (cmp true fun _ _ => false)) ∧
    (∀ (f : W32 → W32 → Bool) (l : Nat), l < 32 →
      (s.exm = 0 → (res f).g.p = s.g.p) ∧
      (s.exm ≠ 0 → ((res f).g.readP p).getLsbD l
        = if laneOn s.exm l then f (s.g.laneOf va l) (s.g.laneOf vb l) else !s.cur.hints.mods.zero && (s.g.readP p).getLsbD l))

/-! ### Cross-lane forms (R287 to R293) -/

/-- R287, R289, R291, Table 15-10: permutation, scattering, compaction, expansion, single-lane and broadcast writes; and the forms that write a uniform
register from the active lanes, with the value of an empty mask. -/
def Obligations.CrossLaneForms : Prop :=
  (∀ (s : State) (vd sd k : Nat) (va vb : VSrc),
    let a := s.g.laneOf va
    let b := s.g.laneOf vb
    let z := s.cur.hints.mods.zero
    let act := lanesOf s.exm
    let form := fun srcs sels => Form.runs { srcs := srcs, dsts := [rv vd], sels := sels, lat := 12, z := true } s = true
    let res := fun (f : Nat → W32) => s.putV false false vd s.exm z f
    (form [rv va.reg, rv vb.reg] [va.sel, vb.sel] →
      Ends (.vperm vd va vb) s (res fun l => if (b l).toNat < 32 then a (b l).toNat else 0)) ∧
    (form [rv va.reg, rv vb.reg, rv vd] [va.sel, vb.sel] →
      Ends (.vpermx vd va vb) s (res fun r => act.foldl (fun v l => if (b l).toNat = r then a l else v) (s.g.lane vd r))) ∧
    (form [rv va.reg] [va.sel] →
      Ends (.vcompact vd va) s (s.putV false false vd (maskBy fun l => decide (l < act.length)) z fun l => a (act.getD l 0)) ∧
      Ends (.vexpand vd va) s (res fun l => a ((act.filter fun k => decide (k < l)).length))) ∧
    (Form.runs { srcs := [rs sd], dsts := [rv vd], keeps := [rv vd], lat := 12, z := true } s = true → Ends (.vwrite sd vd k) s (res fun l => if l = k then (s.g.readS sd).setWidth 32 else s.g.lane vd l)) ∧
    (form [rs sd] [] → Ends (.vbcast sd vd) s (res fun _ => (s.g.readS sd).setWidth 32))) ∧
  (∀ (s : State) (sd k : Nat) (va : VSrc),
    let a := s.g.laneOf va
    let act := lanesOf s.exm
    let form := fun (fp : Bool) => Form.runs { srcs := [rv va.reg], dsts := [rs sd], sels := [va.sel], lat := 12, rnd := fp, sat := fp } s = true
    let res := fun (x : W64) => s.putS false false sd x
    (form false →
      Ends (.vballot sd va) s (res ((maskBy fun l => laneOn s.exm l && a l != 0).setWidth 64)) ∧
      Ends (.vredadd sd va false) s (res (act.foldl (fun x l => x + (a l).signExtend 64) 0)) ∧
      Ends (.vredadd sd va true) s (res (act.foldl (fun x l => x + (a l).setWidth 64) 0)) ∧
      Ends (.vredmin sd va false) s (res ((act.foldl (fun x l => if x.sle (a l) then x else a l) 0x7FFFFFFF#32).signExtend 64)) ∧
      Ends (.vredmin sd va true) s (res ((act.foldl (fun x l => if x ≤ a l then x else a l) 0xFFFFFFFF#32).setWidth 64)) ∧
      Ends (.vredmax sd va false) s (res ((act.foldl (fun x l => if x.sle (a l) then a l else x) 0x80000000#32).signExtend 64)) ∧
      Ends (.vredmax sd va true) s (res ((act.foldl (fun x l => if x ≤ a l then a l else x) 0#32).setWidth 64)) ∧
      Ends (.vfredmax sd va) s (res (act.head?.elim 0xFF800000 fun x =>
        let r := (act.drop 1).foldl (fun v l => fsel true v (a l).toNat fp32) (a x).toNat
        BitVec.ofNat 64 (if (decodeFmt r fp32).isNan then 0x7FC00000 else r))) ∧
      Ends (.vfirst sd va) s (res (BitVec.ofNat 64 ((act.find? fun l => a l != 0).getD 32))) ∧
      Ends (.vread sd va k) s (res ((a k).setWidth 64))) ∧
    (form true → Ends (.vfredadd sd va) s (res (
      let m := s.cur.hints.mods
      let x := allLanes.map fun l => if laneOn s.exm l then decodeFmt (a l).toNat fp32 else .zero false
      BitVec.ofNat 64 (m.round fp32 ((([1, 2, 4, 8, 16] : List Nat).foldl (butterflyStep m) x).getD 0 .nan))))))

/-- R290, Table 15-11: prefixes over the active lanes in ascending order, from the operation's identity. R292, R293: `vprune` keeps the elements that
rank among the k most salient active ones of their block of 16 and writes zero for the others; `vbmap` writes a bitmap of the nonzero active elements
of each block. Elements are lanes, or halves under `.h2` or `.b2`. -/
def Obligations.ScansAndPruning : Prop :=
  (∀ (s : State) (vd : Nat) (va : VSrc),
    let a := s.g.laneOf va
    let form := fun (fp : Bool) => Form.runs { srcs := [rv va.reg], dsts := [rv vd], sels := [va.sel], lat := 12, rnd := fp, sat := fp, z := true } s = true
    let upTo := fun (before : Nat → Nat → Bool) (f : W32 → W32 → W32) (e : W32) =>
      s.putV false false vd s.exm s.cur.hints.mods.zero fun l => ((lanesOf s.exm).filter (before l)).foldl (fun x k => f x (a k)) e
    let both := fun op f e => Ends (.vscan vd va op) s (upTo (fun l k => decide (k ≤ l)) f e) ∧ Ends (.vscanx vd va op) s (upTo (fun l k => decide (k < l)) f e)
    (form false →
      both 0 (fun x y => x + y) 0 ∧ both 1 (fun x y => if x.sle y then x else y) 0x7FFFFFFF ∧ both 2 (fun x y => if x.sle y then y else x) 0x80000000 ∧
      both 3 (fun x y => if x ≤ y then x else y) 0xFFFFFFFF ∧ both 4 (fun x y => if x ≤ y then y else x) 0) ∧
    (form true →
      let sum := fun (ls : List Nat) => ls.head?.elim (0 : W32) fun k =>
        (ls.drop 1).foldl (fun x k => BitVec.ofNat 32 (s.cur.hints.mods.roundSum fp32 [decodeFmt x.toNat fp32, decodeFmt (a k).toNat fp32])) (a k)
      Ends (.vscan vd va 5) s (s.putV false false vd s.exm s.cur.hints.mods.zero fun l => sum ((lanesOf s.exm).filter fun k => decide (k ≤ l))) ∧
      Ends (.vscanx vd va 5) s (s.putV false false vd s.exm s.cur.hints.mods.zero fun l => sum ((lanesOf s.exm).filter fun k => decide (k < l))))) ∧
  (∀ (s : State) (vd : Nat) (va vb : VSrc) (e : ExtHint), s.cur.hints.ext = some e ∨ s.cur.hints.ext = none →
    let pk := s.cur.hints.mods.pk
    let a := s.g.laneOf va
    let b := s.g.laneOf vb
    let form : Form := { srcs := [rv va.reg, rv vb.reg], dsts := [rv vd], sels := [va.sel, vb.sel], lat := 12, h2 := true, b2 := true, z := true }
    let res := fun (f : Nat → W32) => s.putV false false vd s.exm s.cur.hints.mods.zero f
    ({ form with ext := [1], extNeeded := true : Form }.runs s = true →
      let keep := kept pk ((s.g.readS e.reg).extractLsb' 0 5).toNat s.exm a b
      (pk = 0 → Ends (.vprune vd va vb) s (res fun l => if keep l then a l else 0)) ∧
      (pk ≠ 0 → Ends (.vprune vd va vb) s (res fun l =>
        (if keep (2 * l + 1) then (a l).extractLsb' 16 16 else 0) ++ (if keep (2 * l) then (a l).extractLsb' 0 16 else 0)))) ∧
    (form.runs s = true →
      let n := if pk = 0 then 2 else 4
      Ends (.vbmap vd va vb) s (res fun l =>
        if l < n then BitVec.ofNat 32 (blockBitmap pk s.exm a l) else if l < 2 * n then BitVec.ofNat 32 (blockBitmap pk s.exm b (l - n)) else 0)))

/-! ### Floating-point forms (R277, R282 to R286) -/

/-- Table 15-6: sums, products and quotients are exact values rounded once in the selected mode, on a whole lane as FP32 or on each half under
`.h2` or `.b2`; `vfmin` and `vfmax` select without rounding; the pair dot products sum three exact terms to FP32. -/
def Obligations.FloatBinary : Prop :=
  ∀ (s : State) (vd : Nat) (va vb : VSrc),
    let m := s.cur.hints.mods
    let form := fun lat (round pk acc : Bool) => Form.runs { srcs := [rv va.reg, rv vb.reg] ++ (if acc then [rv vd] else []), dsts := [rv vd], sels := [va.sel, vb.sel], lat := lat, rnd := round, sat := round, h2 := pk, b2 := pk, z := true } s = true
    let put := fun v (f : W32 → W32 → W32 → W32) => s.putV v false vd s.exm m.zero fun l => f (s.g.laneOf va l) (s.g.laneOf vb l) (s.g.lane vd l)
    let elems := fun (f : NumFmt → Nat → Nat → Nat → Nat) (a b c : W32) =>
      if m.pk = 0 then BitVec.ofNat 32 (f fp32 a.toNat b.toNat c.toNat)
      else
        let half := fun k => BitVec.ofNat 16 (f (if m.pk = 1 then fp16 else bf16) (a.extractLsb' k 16).toNat (b.extractLsb' k 16).toNat (c.extractLsb' k 16).toNat)
        half 16 ++ half 0
    let sum := fun (f : NumFmt) ts => m.round f (sumTerms (m.mode == 3) ts)
    let pair := fun (g : NumFmt) (a b c : W32) => BitVec.ofNat 32 (sum fp32 [decodeFmt c.toNat fp32,
      (decodeFmt (a.extractLsb' 0 16).toNat g).mul (decodeFmt (b.extractLsb' 0 16).toNat g),
      (decodeFmt (a.extractLsb' 16 16).toNat g).mul (decodeFmt (b.extractLsb' 16 16).toNat g)])
    (form 8 true true false →
      Ends (.vfadd vd va vb) s (put false (elems fun f a b _ => sum f [decodeFmt a f, decodeFmt b f])) ∧
      Ends (.vfsub vd va vb) s (put false (elems fun f a b _ => sum f [decodeFmt a f, (decodeFmt b f).negate])) ∧
      Ends (.vfmul vd va vb) s (put false (elems fun f a b _ => m.round f ((decodeFmt a f).mul (decodeFmt b f))))) ∧
    (form 8 true true true →
      Ends (.vfma vd va vb) s (put false (elems fun f a b c => sum f [(decodeFmt a f).mul (decodeFmt b f), decodeFmt c f])) ∧
      Ends (.vfms vd va vb) s (put false (elems fun f a b c => sum f [(decodeFmt a f).mul (decodeFmt b f), (decodeFmt c f).negate]))) ∧
    (form 8 false true false →
      Ends (.vfmin vd va vb) s (put false (elems fun f a b _ => fsel false a b f)) ∧ Ends (.vfmax vd va vb) s (put false (elems fun f a b _ => fsel true a b f))) ∧
    (form 0 true false false →
      Ends (.vfdiv vd va vb) s (put true fun a b _ => BitVec.ofNat 32 (m.round fp32 ((decodeFmt a.toNat fp32).div (decodeFmt b.toNat fp32))))) ∧
    (form 10 true false true → Ends (.vbdot2 vd va vb) s (put false (pair bf16)) ∧ Ends (.vhdot2 vd va vb) s (put false (pair fp16)))

/-- Tables 15-7 and 15-8: the unary floating-point forms. The transcendental ones give NaN for a NaN, and their special values.
Model choices that it rests on: log entry 20. -/
def Obligations.FloatUnary : Prop :=
  ∀ (s : State) (vd : Nat) (va : VSrc),
    let m := s.cur.hints.mods
    let form := fun lat (r t pk : Bool) => Form.runs { srcs := [rv va.reg], dsts := [rv vd], sels := [va.sel], lat := lat, rnd := r, sat := t, h2 := pk, b2 := pk, z := true } s = true
    let put := fun v (f : W32 → W32) => s.putV v false vd s.exm m.zero fun l => f (s.g.laneOf va l)
    let x := fun (a : W32) => decodeFmt a.toNat fp32
    let g := fp32.withSat m.sat
    let inf := fun n => BitVec.ofNat 32 (roundFmt (.inf n) g m.mode)
    let bad := fun (a r : W32) => (x a).isNan ∨ (x a).neg ∧ ¬(x a).isZero → r = 0x7FC00000
    let elems := fun (f : NumFmt → Nat → Nat) (a : W32) =>
      if m.pk = 0 then BitVec.ofNat 32 (f fp32 a.toNat)
      else
        let half := fun k => BitVec.ofNat 16 (f (if m.pk = 1 then fp16 else bf16) (a.extractLsb' k 16).toNat)
        half 16 ++ half 0
    (form 8 false false true →
      Ends (.vfabs vd va) s (put false (elems fun f a => if (decodeFmt a f).isNan then nanPattern f else a % f.magMask)) ∧
      Ends (.vfneg vd va) s (put false (elems fun f a => if (decodeFmt a f).isNan then nanPattern f else a ^^^ f.magMask))) ∧
    (form 0 true true false →
      Ends (.vfrcp vd va) s (put true fun a => BitVec.ofNat 32 (m.round fp32 ((XReal.fin false 1 1 0).div (x a)))) ∧
      (∃ f, Ends (.vfrsq vd va) s (put true f) ∧ ∀ a, bad a (f a) ∧ (∀ n, x a = .zero n → f a = inf n) ∧ (x a = .inf false → f a = 0) ∧
        (∀ n d e, x a = .fin false n d e → f a = BitVec.ofNat 32 (roundSqrt d n (-e) g m.mode))) ∧
      (∃ f, Ends (.vfsqrt vd va) s (put true f) ∧ ∀ a, bad a (f a) ∧ (∀ n, x a = .zero n → f a = a) ∧ (x a = .inf false → f a = inf false) ∧
        (∀ n d e, x a = .fin false n d e → f a = BitVec.ofNat 32 (roundSqrt n d e g m.mode))) ∧
      (∃ f, Ends (.vfexp2 vd va) s (put true f) ∧ ∀ a, ((x a).isNan → f a = 0x7FC00000) ∧ (x a = .inf true → f a = 0) ∧ (x a = .inf false → f a = inf false) ∧
        f a = BitVec.ofNat 32 (roundExp2 (x a) g m.mode)) ∧
      (∃ f, Ends (.vflog2 vd va) s (put true f) ∧ ∀ a, bad a (f a) ∧ (∀ n, x a = .zero n → f a = inf true) ∧ (x a = .inf false → f a = inf false) ∧
        (∀ n d e, x a = .fin false n d e → f a = BitVec.ofNat 32 (roundLog2 n e g m.mode))) ∧
      (∃ f, Ends (.vfsin vd va) s (put true f) ∧ ∀ a, ((x a).isNan ∨ (x a).isInf → f a = 0x7FC00000) ∧ (∀ n, x a = .zero n → f a = a) ∧
        (∀ b n d e, x a = .fin b n d e → f a = BitVec.ofNat 32 (roundTrig false b n e g m.mode))) ∧
      (∃ f, Ends (.vfcos vd va) s (put true f) ∧ ∀ a, ((x a).isNan ∨ (x a).isInf → f a = 0x7FC00000) ∧ (∀ n, x a = .zero n → f a = 0x3F800000) ∧
        (∀ b n d e, x a = .fin b n d e → f a = BitVec.ofNat 32 (roundTrig true b n e g m.mode)))) ∧
    (form 8 false false false → Ends (.vfclass vd va) s (put false fun a =>
      let v := x a
      let sub := a.extractLsb' 23 8 == 0#8
      if v.isNan then 256
      else if v.isInf then (if v.neg then 1 else 128)
      else if v.isZero then (if v.neg then 8 else 16)
      else if v.neg then (if sub then 4 else 2)
      else if sub then 32 else 64)) ∧
    (form 8 true false false → Ends (.vfrint vd va) s (put false fun a => BitVec.ofNat 32 (roundIntegral fp32 m.mode (x a))))

/-- R284 to R286: conversions, packing and block quantisation; a format register that fails R31, or whose BS bit is not what the form needs,
raises FMT_BAD. -/
def Obligations.FloatConvert : Prop :=
  ∀ (s : State) (vd n : Nat) (va vb : VSrc) (dir : Bool) (e : ExtHint), s.cur.hints.ext = some e ∨ s.cur.hints.ext = none →
    let m := s.cur.hints.mods
    let a := s.g.laneOf va
    let b := s.g.laneOf vb
    let put := fun (f : Nat → W32) => s.putV false false vd s.exm m.zero f
    let half : NumFmt := if m.pk = 1 then fp16 else bf16
    let one : Form := { srcs := [rv va.reg], dsts := [rv vd], sels := [va.sel], z := true }
    let two : Form := { srcs := [rv va.reg, rv vb.reg], dsts := [rv vd], sels := [va.sel, vb.sel], lat := 8, h2 := true, b2 := true, pkNeeded := true, z := true }
    ({ one with lat := 8, rnd := true, sat := !dir && decide (n ≤ 3) : Form }.runs s = true →
      let d := s.g.fmtReg (n - 12)
      if 12 ≤ n ∧ (!descValid d || descBs d) then Traps (.vcvt vd va dir n) s { code := codeFmt }
      else
        let f := cvtFmt s.g n
        Ends (.vcvt vd va dir n) s (put fun l => BitVec.ofNat 32 (if dir then roundFmt (decodeFmt ((a l).toNat % 2 ^ f.width) f) fp32 m.mode
          else m.round f (decodeFmt (a l).toNat fp32)))) ∧
    ({ two with rnd := true, sat := true : Form }.runs s = true →
      let pat := fun (x : W32) => BitVec.ofNat 16 (m.round half (decodeFmt x.toNat fp32))
      Ends (.vpack vd va vb) s (put fun l => pat (b l) ++ pat (a l))) ∧
    (two.runs s = true → Ends (.vunpk vd va vb) s (put fun l =>
      BitVec.ofNat 32 (roundFmt (decodeFmt ((a l).extractLsb' (if (b l).getLsbD 0 then 16 else 0) 16).toNat half) fp32 0))) ∧
    (let d := s.g.fmtReg ((s.g.readS e.reg).extractLsb' 0 3).toNat
     let bad := !descValid d || !descBs d
     ({ one with lat := 10, rnd := true, ext := [1], extNeeded := true : Form }.runs s = true →
       let block := fun k => blockScale ((List.range 16).map fun i => if laneOn s.exm (16 * k + i) then decodeFmt (a (16 * k + i)).toNat fp32 else .zero false) (descFmt d) (descMe d) m.mode
       if bad then Traps (.vqblk vd va) s { code := codeFmt } else Ends (.vqblk vd va) s (put (qblkLane (descFmt d) (block 0) (block 1)))) ∧
     ({ one with lat := 10, rnd := true, sat := true, ext := [1], extNeeded := true : Form }.runs s = true →
       if bad then Traps (.vdqblk vd va) s { code := codeFmt }
       else Ends (.vdqblk vd va) s (put fun l => BitVec.ofNat 32 (m.round fp32 (dqblkValue (descFmt d) (descMe d) a (l / 16) (l % 16))))))

/-! ### Hints, branches, calls, splits and masks (R201 to R205, R234 to R240, R254 to R269) -/

/-- R234 to R240: a hint stands for its run's target, the path goes to the next word and nothing else changes; a second hint of a kind raises
IIN, as does a hint before `nop`; `hint.sch` gives the counts and yield bits of the next four instructions unless every result is
interlocked (Table 12-6). Completes here: `hint.sch`, `hint.imm`, `hint.ord`, `hint.mod`, `hint.ext` and `nop`. -/
def Obligations.HintsAreCollected : Prop :=
  ∀ (s : State) (x y z w v o : Nat) (m : ModHint),
    let c := s.cur
    let grows := fun (h : Hints) (t : State) => t.cur.hints = h ∧ t.cur.pc = c.pc + 4 ∧ t.cur.run = c.run + 1 ∧ t.still = s.still
    Gives (.hintSch x y z w v) s (fun t => grows c.hints t ∧
      (s.g.schkMode = 2 → t.cur.cover = c.cover) ∧
      (s.g.schkMode ≠ 2 → t.cur.cover = [(v, x.testBit 0), (w, x.testBit 1), (z, x.testBit 2), (y, x.testBit 3)])) ∧
    (c.hints.imm = none → Gives (.hintImm x) s (grows { c.hints with imm := some x })) ∧ (c.hints.imm ≠ none → Traps (.hintImm x) s { code := codeIIN }) ∧
    (c.hints.mod = none → Gives (.hintMod m.upd m.sub m.zero m.pk m.sat m.rnd m.cache) s (grows { c.hints with mod := some m })) ∧
    (c.hints.mod ≠ none → Traps (.hintMod m.upd m.sub m.zero m.pk m.sat m.rnd m.cache) s { code := codeIIN }) ∧
    (c.hints.ext = none → Gives (.hintExt x y z) s (grows { c.hints with ext := some { sel := x, cls := y, reg := z } })) ∧
    (c.hints.ext ≠ none → Traps (.hintExt x y z) s { code := codeIIN }) ∧
    (c.hints.ord = none → Gives (.hintOrd x o) s (grows { c.hints with ord := some { order := o, scope := x } })) ∧
    (c.hints.ord ≠ none → Traps (.hintOrd x o) s { code := codeIIN }) ∧
    (Form.runs {} s = true → Ends .nop s s) ∧ (c.hints.imm ≠ none ∨ c.hints.ord ≠ none ∨ c.hints.ext ≠ none ∨
      c.hints.mod.any (fun m => m.cache == 0 || m.rnd != 0 || m.sat || m.pk != 0 || m.zero || m.sub != 0 || m.upd) = true → Traps .nop s { code := codeIIN })

/-- R132, R159, R198, R207, R227, R228, R233, R234, R237, R238, R242, R275: what an instruction of any form meets before its own checks, in this order:
IIN where its run's hints, a register beyond the allocation, a reserved selector or a missing privilege is not admitted; STALL_SHORT in checked mode;
TX_ILLEGAL where a transaction forbids it or its `hint.ord`; and the scoreboard, which holds it where it stands, under the code of row 6 or 7 of
Table 11-3, also for a register of which it keeps bits (log entry 84). What meets none of these does what its own rule says. R240: the count that covers an instruction holds its path until that many clocks
have passed, its yield bit makes the slot give way for one clock, and the covered counts move on; with every result interlocked no count holds.
That a `hint.mod` without any field is refused by a form that takes none is the model's reading (log entry 81). -/
def Obligations.IssueChecks : Prop :=
  (∀ (f : Form) (s : State) (k : Hints → State → Res State),
    let g := s.g
    let h := s.cur.hints
    let under := s.cur.prods.find? fun p => (f.reads h).elem p.reg && decide (p.sum < p.lat)
    let due := g.inflight.filter fun x => (f.reads h).elem x.reg || f.keeps.elem x.reg
    let full := decide (32 < g.inflight.length + f.dsts.length) && f.lat == 0 && !f.dsts.isEmpty && !g.inflight.isEmpty
    let waits := fun (w : Stall) => ∃ t, f.control s k = .next t ∧ t.cur.pc = s.cur.pc ∧ t.cur.hints = h ∧ t.cur.wait = some w ∧ t.still = s.still
    (f.admits g h = false → f.control s k = s.takeTrap { code := codeIIN }) ∧
    (f.admits g h = true → g.schk.extractLsb' 0 2 = 1#2 → ∀ p, under = some p → f.control s k = s.takeTrap { code := codeStallShort, addr := p.pc }) ∧
    (f.admits g h = true → (g.schk.extractLsb' 0 2 = 1#2 → under = none) →
      (f.noTx = true ∨ h.ord ≠ none → g.txIn s.exm ≠ 0 → f.control s k = s.takeTrap { code := codeTx }) ∧
      (f.noTx = false ∧ h.ord = none ∨ g.txIn s.exm = 0 →
        (due.any (fun x => x.mem) = true ∨ full = true → waits .memDep) ∧
        (due.any (fun x => x.mem) = false → full = false → due ≠ [] → waits .stallCount) ∧
        (due = [] → full = false → ∀ u, k h (f.begin_ s) = .ok u → ∃ t, f.control s k = .next t ∧ t.still = u.still))) ∧
    ((f.srcs ++ f.dsts).any (fun r => !g.names r) = true → f.admits g h = false) ∧
    (f.sels.any (fun n => n != 0 && permReserved (g.permDesc n)) = true → f.admits g h = false) ∧
    (h.imm.isSome = true → f.imm = false → f.admits g h = false) ∧ (f.sup = true → g.sup = false → f.admits g h = false) ∧
    (h.ord.any (fun o => !f.ords.elem o.order) = true → f.admits g h = false) ∧ (h.ext.any (fun e => !f.ext.elem e.cls || !g.names e.name) = true → f.admits g h = false) ∧
    (h.mod.any (fun m => (m.rnd != 0 && !f.rnd) || (m.sat && !f.sat) || (m.pk == 1 && !f.h2) || (m.pk == 2 && !f.b2) || (m.zero && !f.z) || (m.sub != 0 && !f.sub) || (m.upd && !f.sub) ||
      (!f.hasMod && m.cache == 0)) = true → f.admits g h = false)) ∧
  (∀ (s : State) (n : Nat) (y : Bool) (rest : List (Nat × Bool)), Form.runs {} s = true → s.cur.cover = (n, y) :: rest →
    Gives .nop s fun t => t.cur.cover = rest ∧ t.cur.lastIssue = s.clock ∧
      (s.g.schkMode ≠ 2 → t.cur.readyAt = s.clock + n ∧ (y = true → t.cur.giveWay = s.clock + 2)) ∧ (s.g.schkMode = 2 → t.cur.readyAt = s.clock))

/-- R256, R232, R205: a branch whose condition holds goes to its own address plus four times its offset, otherwise to the next word; nothing else
changes, unless a backward branch is taken by a path that has held its slot for 4,096 clocks while an entry is ready: then the path
becomes a ready entry at its target and the oldest ready entry takes the slot. (`Leaps` is in Safety.lean.) -/
def Obligations.Branches : Prop :=
  ∀ (s : State) (off sa : Nat), s.cur.live = true →
    let target := fun w => s.cur.pc + BitVec.ofInt 64 (4 * sextInt off w)
    let goes := fun (i : Instr) (c : Bool) w =>
      (c = false → Ends i s s) ∧ (c = true → Leaps i s (target w) s)
    let a := s.g.readS sa
    (Form.runs {} s = true →
      goes (.br off) true 22 ∧ goes (.bxz off) (s.exm == 0) 22 ∧ goes (.bxnz off) (s.exm != 0) 22 ∧ goes (.bxall off) (s.g.detached == 0) 22) ∧
    (Form.runs { srcs := [rs sa] } s = true →
      goes (.bs sa 0 off) (a == 0) 16 ∧ goes (.bs sa 1 off) (a != 0) 16 ∧ goes (.bs sa 2 off) (a.slt 0) 16 ∧
      goes (.bs sa 3 off) ((0 : W64).sle a) 16 ∧ goes (.bs sa 4 off) ((0 : W64).slt a) 16 ∧ goes (.bs sa 5 off) (a.sle 0) 16)

/-- R257, R258, R260: a call writes a link record (return address and tag, Table 14-3) for each active lane at the top of its slice, enters a
deeper frame with the frame counter as its tag, and goes to its target; an indirect jump goes to its register. A misaligned target, a
full depth and a slice without room trap, the last with the offset that failed (Table 19-2). R204: a join that waits only for the frame left goes
on. Completes here: `call`, `calli`, `jmpi`.
Model choices that it rests on: log entry 70 (`Leaps`: which of these are backward branches of R205). -/
def Obligations.CallsAndJumps : Prop :=
  ∀ (s : State) (off sa : Nat), s.cur.live = true →
    let c := s.cur
    let p := s.extent (.slice 0)
    let calls := fun (i : Instr) (target : W64) =>
      (c.exm = 0 → Ends i s s) ∧
      (c.exm ≠ 0 → target.toNat % 4 = 0 → c.depth < 65535 → 16 * (c.depth + 1) ≤ p →
        let w := (lanesOf c.exm).foldl (fun s l => s.chipWrite (.slice (s.position l)) (p - 16 * (c.depth + 1)) (linkRecord (c.pc + 4) c.tag)) s
        Goes i s target { w with g := ({ w.g.setCur { c with depth := c.depth + 1, tag := s.g.frameCtr } with frameCtr := s.g.frameCtr + 1 }).settle s.clock }) ∧
      (c.exm ≠ 0 → target.toNat % 4 ≠ 0 → Traps i s { code := codeMisalign, addr := target }) ∧
      (c.exm ≠ 0 → target.toNat % 4 = 0 → c.depth = 65535 → Traps i s { code := codeDivstack }) ∧
      (c.exm ≠ 0 → target.toNat % 4 = 0 → c.depth < 65535 → p < 16 * (c.depth + 1) →
        Traps i s { code := codeSpad, addr := BitVec.ofInt 64 ((p : Int) - 16 * (c.depth + 1)), info := 1 })
    (Form.runs {} s = true → calls (.call off) (c.pc + BitVec.ofInt 64 (4 * sextInt off 22))) ∧
    (Form.runs { srcs := [rs sa] } s = true → calls (.calli sa) (s.g.readS sa) ∧
      ((s.g.readS sa).toNat % 4 = 0 → Leaps (.jmpi sa) s (s.g.readS sa) s) ∧
      ((s.g.readS sa).toNat % 4 ≠ 0 → Traps (.jmpi sa) s { code := codeMisalign, addr := s.g.readS sa }))

/-- R259, R261, R262: `ret` takes each lane back to its link record's address and tag, `bdiv` parts the lanes by a predicate and `bjt` by a table of
signed word offsets; DIVSTACK_OVF is raised where the save area is too small. R203: of two paths, the one with more lanes, or with as many and the
lower address, keeps the slot; the other takes the free slot, or else becomes a ready entry. R240: a `ret` ends no count, so the paths that it leaves in
slots keep the counts in force (log entry 70).
R262: a table entry is read as an instruction is, with its traps. Completes here: `ret`, `bdiv`, `bjt`. -/
def Obligations.Splits : Prop :=
  (∀ (s : State) (p off sa sb vi : Nat) (neg : Bool), s.cur.live = true →
    let c := s.cur
    let places := fun (i : Instr) (s' : State) (ps : List Path) =>
      (∀ g, s'.g.placePaths s.clock ps = some g → Goes i s (g.settle s.clock).cur.pc { s' with g := g.settle s.clock }) ∧
      (s'.g.placePaths s.clock ps = none → Traps i s { code := codeDivstack })
    (Form.runs {} s = true →
      (c.depth = 0 → Traps .ret s { code := codeDivstack }) ∧
      (c.depth ≠ 0 → c.exm = 0 → let u := s.leave.trySort s.g.wg; Goes .ret s u.cur.pc u) ∧
      (c.depth ≠ 0 → c.exm ≠ 0 → s.extent (.slice 0) < 16 * c.depth →
        Traps .ret s { code := codeSpad, addr := BitVec.ofInt 64 ((s.extent (.slice 0) : Int) - 16 * c.depth) }) ∧
      (c.depth ≠ 0 → c.exm ≠ 0 → 16 * c.depth ≤ s.extent (.slice 0) → s.bad = [] →
        let links := (lanesOf c.exm).map fun l => (l, s.linkOf l)
        let keys := dedup (links.map fun x => x.2)
        let ps : List Path := keys.map fun k =>
          { pc := k.1, mask := maskOf ((links.filter fun x => x.2 == k).map fun x => x.1), depth := c.depth - 1, tag := k.2 }
        let kept := fun (g : Group) =>
          if s.g.other.live = true ∨ keys.length = 1 then g
          else g.setOther { g.other with cover := c.cover.drop 1, prods := (({} : Form).cover s.g s.clock).prods,
                                         readyAt := (({} : Form).cover s.g s.clock).readyAt, giveWay := (({} : Form).cover s.g s.clock).giveWay }
        (s.g.placePaths s.clock ps = none → Traps .ret s { code := codeDivstack }) ∧
        (∀ g, s.g.placePaths s.clock ps = some g →
          Gives .ret s (fun t => t.cur.cover = c.cover.drop 1) ∧ Goes .ret s (g.settle s.clock).cur.pc { s with g := kept (g.settle s.clock) }))) ∧
    (Form.runs { srcs := [rp p] } s = true →
      let taken := c.exm &&& (if neg then ~~~s.g.readP p else s.g.readP p)
      let fall := c.exm &&& ~~~taken
      let target := c.pc + BitVec.ofInt 64 (4 * sextInt off 22)
      (taken = 0 → Ends (.bdiv p neg off) s s) ∧ (taken ≠ 0 → fall = 0 → Leaps (.bdiv p neg off) s target s) ∧
      (taken ≠ 0 → fall ≠ 0 → places (.bdiv p neg off) s [{ pc := target, mask := taken, depth := c.depth, tag := c.tag },
        { pc := c.pc + 4, mask := fall, depth := c.depth, tag := c.tag }])) ∧
    (Form.runs { srcs := [rs sa, rs sb, rv vi] } s = true →
      let idx := s.g.lane vi
      let n := (s.g.readS sb).toNat % 2 ^ 32
      let bad := (lanesOf c.exm).filter fun l => decide (n ≤ (idx l).toNat)
      let base := c.pc + s.g.readS sa
      (c.exm = 0 → Ends (.bjt sa sb vi) s s) ∧
      (c.exm ≠ 0 → ∀ l ∈ bad.head?, Traps (.bjt sa sb vi) s { code := codeJtab, addr := BitVec.ofNat 64 l, mask := some (maskOf bad) }) ∧
      (c.exm ≠ 0 → bad = [] → (s.g.readS sa).toNat % 4 ≠ 0 → Traps (.bjt sa sb vi) s { code := codeMisalign, addr := base }) ∧
      (c.exm ≠ 0 → bad = [] → (s.g.readS sa).toNat % 4 = 0 →
        let checks := s.checkLanes s.who .fetch false 4 ((lanesOf c.exm).map fun l => (l, base + 4 * (idx l).setWidth 64))
        (∀ t, checks = .error (.trap t) → Traps (.bjt sa sb vi) s t) ∧
        (∀ ps t, checks = .ok ps → ps.foldlM (fun (t : State) q => t.instrRead q.va q.pa) (s.fillAll s.who .fetch ps) = .error (.trap t) →
          Traps (.bjt sa sb vi) s t) ∧
        (∀ ps u, checks = .ok ps → ps.foldlM (fun (t : State) q => t.instrRead q.va q.pa) (s.fillAll s.who .fetch ps) = .ok u →
          let lanes := ps.map fun q => (q.lane, base + BitVec.ofInt 64 (4 * (u.fetchWord q.pa).toInt))
          let targets := dedup (lanes.map fun x => x.2)
          (∀ one, targets = [one] → Leaps (.bjt sa sb vi) s one u) ∧
          (2 ≤ targets.length → places (.bjt sa sb vi) u (targets.map fun a =>
            { pc := a, mask := maskOf ((lanes.filter fun x => x.2 == a).map fun x => x.1), depth := c.depth, tag := c.tag })))))) ∧
  (∀ (g : Group) (clock : Nat) (p q : Path),
    popMask q.mask < popMask p.mask ∨ popMask q.mask = popMask p.mask ∧ p.pc.toNat < q.pc.toNat →
    let kept := g.setCur { p.slot clock with entered := g.cur.entered }
    let want := if g.other.live = false then some (kept.setOther (q.slot clock))
      else if g.save.length < 64 then some (kept.push (readyEntry q.pc q.mask q.depth q.tag)) else none
    g.placePaths clock [p, q] = want ∧ g.placePaths clock [q, p] = want)

/-- R204, R205, R208, R254, R263: `join` waits as an entry, one for each address, depth and tag; `yield` becomes a ready entry where another is ready and
otherwise gives way for one clock; `exit` ends its active lanes. The path leaves its slot, joins that nothing can reach any more are
released and the oldest ready entry takes the slot. R269, R254: a mask form writes the old mask to sd and puts the new one in force; `xm.set` keeps only lanes that no other path holds;
`xm.get` and `xm.pop` change no mask. -/
def Obligations.JoinsExitsAndMasks : Prop :=
  (∀ (s : State),
    let c := s.cur
    let same := fun (e : SaveEntry) => decide (e.state = .waitJoin) && e.pc == c.pc && e.depth == c.depth && e.frame == c.tag
    let leaves := fun (i : Instr) (u : State) => Goes i s u.cur.pc u
    (Form.runs {} s = true →
      (s.g.save.any same = true →
        leaves .join ({ s with g := { s.g with save := s.g.save.map fun e => if same e then { e with mask := e.mask ||| c.exm } else e } }).leave) ∧
      (s.g.save.any same = false → s.g.save.length < 64 →
        leaves .join ({ s with g := s.g.push { state := .waitJoin, pc := c.pc, mask := c.exm, depth := c.depth, frame := c.tag, seq := 0 } }).leave) ∧
      (s.g.save.any same = false → 64 ≤ s.g.save.length → Traps .join s { code := codeDivstack }) ∧
      (s.g.anyReady = false → Gives .yield s fun t => t.cur.pc = c.pc + 4 ∧ t.cur.giveWay = s.clock + 2 ∧ t.still = s.still) ∧
      (s.g.anyReady = true → s.g.save.length < 64 → leaves .yield ({ s with g := s.g.push (readyEntry (c.pc + 4) c.exm c.depth c.tag) }).leave) ∧
      (s.g.anyReady = true → 64 ≤ s.g.save.length → Gives .yield s fun t => t.cur.pc = c.pc + 4 ∧ t.cur.giveWay = s.clock + 2 ∧ t.still = s.still)) ∧
    (Form.runs { noTx := true } s = true →
      leaves .exit ((({ s with g := { s.g with lanes := s.g.lanes &&& ~~~c.exm, lastExit := c.runPc, lastMask := c.exm } }).leave).trySort s.g.wg))) ∧
  (∀ (s : State) (sd sa p : Nat),
    let old := s.exm.setWidth 64
    let sets := fun (m : W32) => let u := s.putS false false sd old; u.setCur { u.cur with exm := m }
    let free := s.g.lanes &&& ~~~((if s.g.other.live then s.g.other.exm else 0) ||| s.g.save.foldl (fun m e => m ||| e.mask) 0)
    (Form.runs { dsts := [rs sd], lat := 4 } s = true →
      Ends (.xmGet sd) s (s.putS false false sd old) ∧ Ends (.xmPop sd) s (s.putS false false sd (s.exm.cpop.setWidth 64))) ∧
    (Form.runs { srcs := [rs sa], dsts := [rs sd], lat := 4 } s = true →
      let a := (s.g.readS sa).setWidth 32
      Ends (.xmSet sd sa) s (sets (a &&& free)) ∧ Ends (.xmAnd sd sa) s (sets (s.exm &&& a)) ∧ Ends (.xmAndn sd sa) s (sets (s.exm &&& ~~~a))) ∧
    (Form.runs { srcs := [rp p], dsts := [rs sd], lat := 4 } s = true → Ends (.xmFromp sd p) s (sets (s.exm &&& s.g.readP p))))



/-! ### Special registers (R72, R199, R243, R274, R357) -/

/-- Table 10-3, R274: what `smfs` and `vmfs` read. Registers 32 to 35 are the trap registers of the core, for its trap context only. Tables 10-3, 10-6, 12-7 and 19-1: what `smts` writes, and which bits it keeps or drops; supervisor-only registers raise IIN elsewhere, and
so does a MODE of 3 for `schk` (R243). Completes here: `smfs`, `vmfs` and `smts`. -/
def Obligations.SpecialRegisters : Prop :=
  (∀ (s : State) (sd n k lo : Nat) (hi : Bool),
    let core := s.cores.getD s.g.core {}
    let reads := fun num (x : W64) => Form.runs { srcs := if 16 ≤ num ∧ num ≤ 23 then [rb (num - 16)] else [], dsts := [rs sd] } s = true → Ends (.smfs sd num) s (s.putS true false sd x)
    reads 1 (s.g.pcfg.setWidth 64) ∧ reads 2 (s.g.schk.setWidth 64) ∧ reads 3 s.tstamp ∧ reads 7 s.g.dsave ∧
    (n < 8 → reads (8 + n) ((s.g.fmt.getD n 0).setWidth 64) ∧ reads (16 + n) (s.g.bm.getD n 0)) ∧
    (s.g.slot = 64 → s.g.sup = true →
      reads 32 core.xcause ∧ reads 33 core.xpc ∧ reads 34 core.xaddr ∧ reads 35 (core.xmask.setWidth 64)) ∧
    (s.g.slot ≠ 64 → k < 4 → Traps (.smfs sd (32 + k)) s { code := codeIIN }) ∧
    (let vd := lo + (if hi then 64 else 0)
     let each := fun num (f : Nat → W32) => Form.runs { dsts := [rv vd], z := true } s = true →
       Ends (.vmfs lo num hi) s (s.putV true false vd s.exm s.cur.hints.mods.zero f)
     each 4 (fun l => (s.g.wid.getD l 0).setWidth 32) ∧ each 5 (fun l => ((s.g.wid.getD l 0).extractLsb' 32 32)) ∧ each 6 (fun l => s.g.txst.getD l 0))) ∧
  (∀ (s : State) (sa n : Nat), n < 8 →
    let x := s.g.readS sa
    let runs := fun (f : Form) => { f with srcs := [rs sa] : Form }.runs s = true
    let core := fun (f : Core → Core) => s.updCore s.g.core f
    (runs {} →
      Ends (.smts sa 1) s { s with g := { s.g with pcfg := (x.extractLsb' 0 24).setWidth 32 } } ∧
      (x.extractLsb' 0 2 ≠ 3#2 → Ends (.smts sa 2) s (if s.g.schk.getLsbD 2 then s
        else { s with g := { s.g with schk := (s.g.schk.extractLsb' 2 30) ++ (x.extractLsb' 0 2) } })) ∧
      (x.extractLsb' 0 2 = 3#2 → Traps (.smts sa 2) s { code := codeIIN }) ∧
      Ends (.smts sa (8 + n)) s { s with g := { s.g with fmt := s.g.fmt.set n ((x.extractLsb' 0 17).setWidth 32) } } ∧
      (s.g.sup = true → Ends (.smts sa 7) s { s with g := { s.g with dsave := x.extractLsb' 11 53 ++ 0#11 } })) ∧
    (runs { dsts := [rb n] } → Ends (.smts sa (16 + n)) s { s with g := { s.g with bm := s.g.bm.set n ((x.extractLsb' 0 63).setWidth 64) } }) ∧
    (s.g.sup = false → Traps (.smts sa 7) s { code := codeIIN }) ∧
    (s.g.slot ≠ 64 → n < 4 → Traps (.smts sa (32 + n)) s { code := codeIIN }) ∧
    (runs {} → s.g.sup = true → s.g.slot = 64 →
      Ends (.smts sa 32) s (core fun k => { k with xcause := (k.xcause &&& ~~~0xE0FE003F) ||| (x &&& 0xE0FE003F) }) ∧
      Ends (.smts sa 33) s (core fun k => { k with xpc := (x.extractLsb' 0 57).setWidth 64 }) ∧
      Ends (.smts sa 34) s (core fun k => { k with xaddr := x }) ∧
      Ends (.smts sa 35) s (core fun k => { k with xmask := x.setWidth 32 })))


/-! ### Traps (R171, R355 to R359) -/

/-- R356, R358, Table 19-1: a trap of a group outside transactions stops it before its hint run and, with the core's trap context idle, starts
the context at the vector base + 64 × CODE with the trap registers written; nothing else changes. R268: `trap` and `brk` always complete so, in
any state of the core: their group stops or is stopping and their event waits or is served. R171: a trap inside a transaction first validates
the logs of the lanes that reached the trap (the state so prepared is s1). Where all are valid, every open transaction of the group aborts with cause
TRAP and the trap's code, its lanes restart when the group resumes, and the trap's event, with TXAB set, waits or is served; each lane that is not valid
aborts with VALIDATE and parks in back-off, and no event is raised. Model choices that it rests on: log entries 25, 26 and 86. Completes here: `trap`, `brk`. -/
def Obligations.TrapsAreDelivered : Prop :=
  (∀ (s : State) (t : Trap) (n : Nat), s.g.slot < 64 → s.g.txIn s.exm &&& s.g.openLanes = 0 → s.defer = false →
    ∀ k, s.cores[s.g.core]? = some k → k.serving = none → k.events = [] → k.frozenPosted = false → s.groups.any (fun g => g.at_ s.g.core 64) = true →
    let goes := fun (t : Trap) (u : State) =>
      (∃ k', u.cores[s.g.core]? = some k' ∧ k'.serving = some s.g.slot ∧ k'.events = [] ∧ k'.xpc = s.cur.runPc &&& 0x01FFFFFFFFFFFFFF ∧ k'.xaddr = t.addr ∧
        k'.xmask = t.mask.getD s.exm ∧
        k'.xcause = BitVec.ofNat 64 (t.code + (if t.async then 128 else 0) + 256 * t.info + (if s.g.inB then 2 ^ 17 else 0) + 2 ^ 18 * s.g.slot) ∧
        (∃ e, k'.served = some e ∧ e.code = t.code ∧ e.addr = t.addr ∧ e.pc = s.cur.runPc) ∧
        { k' with serving := none, served := k.served, xpc := k.xpc, xaddr := k.xaddr, xmask := k.xmask, xcause := k.xcause } = k) ∧
      (∀ c, c ≠ s.g.core → u.cores[c]? = s.cores[c]?) ∧
      u.g = { ({ s.g with a := s.g.a.rewind, b := s.g.b.rewind } : Group).landAll with status := .stopped, early := [] } ∧
      u.groups = s.groups.map (fun g => if g.at_ s.g.core 64 then startContext (k.vbase + BitVec.ofNat 64 (64 * t.code)) s.clock g else g) ∧
      { u with g := s.g, groups := s.groups, cores := s.cores } = s
    (∃ u, s.takeTrap t = .next u ∧ goes t u) ∧
    (Form.runs {} s = true → Gives (.trap n) s (goes { code := codeTrapi, addr := BitVec.ofNat 64 n }) ∧
      Gives (.brk n) s (goes { code := codeBrk, addr := BitVec.ofNat 64 n }))) ∧
  (∀ (s : State) (n : Nat), s.g.slot < 64 → s.g.txIn s.exm = 0 → s.g.core < s.cores.length → Form.runs {} s = true →
    let stops := fun code (u : State) =>
      let e : TrapEvent := { slot := s.g.slot, inB := s.g.inB, code := code, pc := s.cur.runPc, addr := BitVec.ofNat 64 n, mask := s.exm, stamp := s.tstamp }
      (∃ k, u.cores[s.g.core]? = some k ∧ (k.served = some e ∨ e ∈ k.events)) ∧ (u.g.status = .stopped ∨ u.g.status = .stopping) ∧ u.mem = s.mem
    Gives (.trap n) s (stops codeTrapi) ∧ Gives (.brk n) s (stops codeBrk)) ∧
  (∀ (s : State) (t : Trap), s.g.slot < 64 → s.g.txIn s.exm &&& s.g.openLanes ≠ 0 →
    let m := t.mask.getD s.exm &&& s.g.openLanes
    let s1 := (lanesOf m).foldl (fun s' l => s'.prepareLane (s.g.laneTx l)) s
    let bad := (lanesOf m).filter fun l => !s1.laneValid (s.g.laneTx l)
    let e : TrapEvent := { slot := s1.g.slot, inB := s1.g.inB, code := t.code, info := t.info, txab := true, async := t.async, pc := s1.cur.runPc,
                           addr := t.addr, mask := t.mask.getD s1.cur.exm, stamp := s1.tstamp, vas := t.vas }
    s1.g.slot < 64 → s1.g.txst.length = 32 → s1.g.tx.length = 32 → s1.g.core < s1.cores.length →
    (bad = [] → ∃ u, s.takeTrap t = .next u ∧ u.mem = s1.mem ∧ (u.g.status = .stopped ∨ u.g.status = .stopping) ∧
      (∃ k, u.cores[s1.g.core]? = some k ∧ (e ∈ k.events ∨ k.served = some e ∧ k.serving = some e.slot ∧ k.xaddr = t.addr ∧ k.xmask = e.mask ∧
        k.xpc = e.pc &&& 0x01FFFFFFFFFFFFFF ∧ k.xcause = BitVec.ofNat 64
          (t.code + (if t.async then 128 else 0) + 256 * t.info + 2 ^ 16 + (if e.inB then 2 ^ 17 else 0) + 2 ^ 18 * e.slot))) ∧
      (∀ k, s1.cores[s1.g.core]? = some k → k.serving = none → k.events = [] → k.frozenPosted = false → s1.defer = false →
        ∃ k', u.cores[s1.g.core]? = some k' ∧ k'.served = some e) ∧
      ∀ l, l < 32 →
        (laneOn s.g.openLanes l = true → txCause (u.g.txWord l) = causeTrap ∧ field (u.g.txWord l) 18 6 = t.code % 64 ∧ u.g.inTx l = s1.g.inTx l ∧
          (u.g.laneTx l).retry = true ∧ (u.g.laneTx l).restarts = true ∧ (u.g.laneTx l).reads = [] ∧ (u.g.laneTx l).writes = []) ∧
        (laneOn s.g.openLanes l = false → u.g.txWord l = s1.g.txWord l ∧ u.g.laneTx l = s1.g.laneTx l)) ∧
    (bad ≠ [] → bad.length ≤ s1.g.freeEntries → ∃ u, s.takeTrap t = .next u ∧ u.mem = s1.mem ∧ u.cores = s1.cores ∧
      ∀ l ∈ bad, txCause (u.g.txWord l) = causeValidate ∧ txAborts (u.g.txWord l) = min 15 (txAborts (s1.g.txWord l) + 1) ∧ laneOn u.exm l = false ∧
        (u.g.laneTx l).retry = true ∧ (u.g.laneTx l).reads = [] ∧ (u.g.laneTx l).writes = []))

/-- R349, R359: `rfe` is for trap contexts and supervisor groups. With ACTION 0 the group in SLOT goes on at `xpc` on the path that PATH names, with no count in force, and
with ACTION 3 it is held, unless the routine serves its save request; ACTION and WSKIP are cleared, and the context goes on to its next event, or to vector
base + 64 × 63; a supervisor group outside the context goes on at the next word. R365: ACTION 1 ends the group's launch as faulted, with FREC naming the
page of its record, and ACTION 2 as killed: nothing of it is placed any more and its groups drain. R366: the fields of the record's 256 bytes (Table 19-3).
Completes here: `rfe`. Model choices that it rests on: log entries 23 to 25 and 67. -/
def Obligations.ReturnFromTrap : Prop :=
  (∀ (s : State),
    (s.g.slot ≠ 64 → s.g.sup = false → Traps .rfe s { code := codeIIN }) ∧
    (Form.runs { sup := true } s = true → ∀ k, s.cores[s.g.core]? = some k → k.events = [] →
      s.allGroups.all (fun h => !h.save.any SaveEntry.sorting) = true →
      let slot := (k.xcause.extractLsb' 18 6).toNat
      let c := s.g.core
      ∀ g, s.groups.find? (Group.at_ c slot) = some g → slot < 64 → slot ≠ s.g.slot → g.status = .stopped →
      let action := (k.xcause.extractLsb' 30 2).toNat
      let inB := k.xcause.getLsbD 17
      let done := fun (t : State) => ∃ k', t.cores[c]? = some k' ∧ k'.serving = none ∧ k'.xcause = k.xcause &&& ~~~0xE0000000 ∧ k'.xpc = k.xpc
      let saves := k.served.any fun e => decide (e.code = 0) && e.slot == slot
      (∀ l, s.launchOf g.launch = some l → l.complete = false → l.killed = false → l.faulted = false → s.g.slot = 64 → action = 1 ∨ action = 2 →
        Gives .rfe s fun t => done t ∧
          (t.launchOf g.launch).any (fun l' => l'.faulted == decide (action = 1) && l'.killed == decide (action = 2) && l'.unplaced.all List.isEmpty
            && (action == 2 || l'.frec == Config.recordPage l.handle)) = true ∧
          (t.allGroups.all fun h => h.launch != g.launch || h.slot == 64 || decide (h.status = .draining)) = true) ∧
      ((action = 0 ∨ action = 3 ∧ saves = false) →
      Gives .rfe s fun t =>
        done t ∧
        (s.g.slot = 64 → t.g.slot = 64 ∧ t.g.cur.pc = k.vbase + 4032 ∧ t.g.cur.live = true) ∧ (s.g.slot ≠ 64 → t.cur.pc = s.cur.pc + 4) ∧
        t.groupAt c slot = some (if action = 0 then Group.resume s.clock inB k.xpc (k.xcause.getLsbD 29) g else { g with status := .held }) ∧ t.mem = s.mem))) ∧
  (∀ (g : Group) (clock : Nat) (inB w : Bool) (pc : W64), g.txLanes = 0 → g.a.live = true → g.b.live = true →
    let r := Group.resume clock inB pc w g
    r.status = .running ∧ r.a.live = true ∧ r.b.live = true ∧ (if inB then r.b.pc else r.a.pc) = pc ∧ (if inB then r.a.pc else r.b.pc) = (if inB then g.a.pc else g.b.pc) ∧
    r.a.cover = [] ∧ r.b.cover = [] ∧ r.a.exm = g.a.exm ∧ r.b.exm = g.b.exm ∧ r.v = g.v ∧ r.s = g.s ∧ r.p = g.p) ∧
  (∀ (s : State) (core : Nat) (g : Group) (l : Launch), s.launchOf g.launch = some l →
    let k := s.core core
    let record := s.recordBytes core g
    let part := fun lo n => fromBytes ((record.drop lo).take n)
    let lane := if k.xmask = 0 then 0 else ((lanesOf k.xmask).head?).getD 0
    let written := if Config.recordPage l.handle = 0 then s else s.agentWrite core (Config.recordPhys l.handle) record
    (l.faulted = true ∨ l.killed = true ∨ l.complete = true → s.faultLaunch core g = s) ∧
    (l.faulted = false → l.killed = false → l.complete = false → s.faultLaunch core g =
      ({ written with launches := modifyFirst (fun l' => l'.handle == l.handle) (fun l' => { l' with frec := Config.recordPage l.handle }) written.launches }).endLaunch l.handle false) ∧
    record.length = 256 ∧ part 0 8 = ((k.served.map fun e => e.stamp).getD s.tstamp).toNat ∧ part 8 8 = k.xcause.toNat ∧ part 16 8 = k.xpc.toNat ∧
    part 24 8 = k.xaddr.toNat ∧ part 32 4 = k.xmask.toNat ∧ part 36 4 = (s.module * 2 ^ 11 + core / 32 * 2 ^ 9 + core % 32) % 2 ^ 32 ∧
    part 40 8 = (g.wid.getD lane 0).toNat ∧ part 48 8 = g.launch % 2 ^ 64 ∧ part 56 8 = 0 ∧ ∀ n, n < 24 → part (64 + 8 * n) 8 = (g.readS (n + 1)).toNat)


/-! ### Loads and stores (R50, R73, R295 to R301) -/

/-- R296, R298: how a loaded element of 1 to 16 bytes fills its registers: an active lane's words, a byte or half replacing only its own bits; an
inactive lane keeps its value or is zeroed under `.z`; no other register changes. R297, R298, R50: vector loads from and stores to the core scratchpad, the lanes' slices, cluster memory and the Cave, in modes 0, 1, 3 and 4: each
active lane reads or writes its element at its offset, stores in ascending lane order (mode 2: `ModuloBuffers`). A misaligned offset traps before one that
is beyond the extent. R86: a load of a spoiled word traps (its address: log entry 62). Completes here: `vlds`, `vsts`, `vldc`, `vstc`, `vldk`, `vstk`. -/
def Obligations.VectorChipAccess : Prop :=
  (∀ (s : State) (vdata size l k : Nat) (z : Bool) (bytes : Nat → List Byte),
    s.g.early = [] → s.defer = false → size ≤ 4 → (∀ l, l < 32 → (bytes l).length = 2 ^ size) → l < 32 → vdata + elemRegs size ≤ s.g.v.length → s.exm ≠ 0 →
    let t := s.writeElems vdata size s.exm z ((lanesOf s.exm).map fun l => (l, bytes l))
    let old := (s.g.lane (vdata + k) l)
    (k < elemRegs size → t.g.lane (vdata + k) l =
      if laneOn s.exm l then
        (if size = 0 then old.extractLsb' 8 24 ++ (bytes l).getD 0 0
         else if size = 1 then old.extractLsb' 16 16 ++ ((bytes l).getD 1 0 ++ (bytes l).getD 0 0)
         else (bytes l).getD (4 * k + 3) 0 ++ ((bytes l).getD (4 * k + 2) 0 ++ ((bytes l).getD (4 * k + 1) 0 ++ (bytes l).getD (4 * k) 0)))
      else if z then 0 else old) ∧
    (∀ n, n < vdata ∨ vdata + elemRegs size ≤ n → t.g.readV n = s.g.readV n) ∧ t.g.s = s.g.s ∧ t.g.p = s.g.p ∧ t.mem = s.mem ∧ t.wgs = s.wgs) ∧
  (∀ (s : State) (vdata vaddr sbase size mode : Nat), s.defer = false → s.rrMode = 0 → s.ordered s.cur.hints = .ok () → size ≤ 4 → mode = 0 ∨ mode = 1 ∨ mode = 3 ∨ mode = 4 →
    let base := s.g.readS sbase
    let at_ := fun l => if mode = 1 then base + BitVec.ofNat 64 (l * 2 ^ size) else if mode = 3 then base else base + (s.g.lane vaddr l).signExtend 64
    let act := lanesOf s.exm
    let data := fun l => (((List.range (elemRegs size)).flatMap fun k => toBytes 4 (s.g.lane (vdata + k) l).toNat).take (2 ^ size))
    let ends := fun (load : Bool) (i : Instr) (space : Space) =>
      let sp := if mode = 4 then .slice 0 else space
      let here := fun l => if mode = 4 then Space.slice (32 * s.g.gidx + l) else space
      let skew := act.filter fun l => (at_ l).toNat % 2 ^ size != 0
      let out := act.filter fun l => decide (s.extent sp < (at_ l).toNat + 2 ^ size)
      let info := if load then 0 else 1
      let lost := act.filter fun l => load && (s.chipAt (here l) (at_ l).toNat).any fun p => s.spoiled p.1 p.2 (2 ^ size)
      { mvForm load vdata vaddr sbase size mode with noTx := mode != 4 : Form }.runs s = true →
      (act = [] → Ends i s s) ∧
      (∀ l ∈ skew.head?, Traps i s { code := codeMisalign, addr := at_ l, mask := some (maskOf skew), info := info }) ∧
      (skew = [] → ∀ l ∈ out.head?, Traps i s { code := codeSpad, addr := at_ l, mask := some (maskOf out), info := info }) ∧
      (skew = [] → out = [] → ∀ l ∈ lost.head?, Traps i s
        { code := codeEcc, addr := ((s.chipAt (here l) (at_ l).toNat).map fun p => p.1.addr p.2).getD 0, mask := some (maskOf lost), info := info }) ∧
      (act ≠ [] → skew = [] → out = [] → lost = [] → Ends i s
        (if load then s.onTime.writeElems vdata size s.exm s.cur.hints.mods.zero (act.map fun l => (l, s.chipRead (here l) (at_ l).toNat (2 ^ size)))
         else act.foldl (fun u l => u.chipWrite (here l) (at_ l).toNat (data l)) s))
    ends true (.vlds vdata vaddr sbase size mode) .scratch ∧ ends false (.vsts vdata vaddr sbase size mode) .scratch ∧
    (mode ≠ 4 → ends true (.vldc vdata vaddr sbase size mode) .cluster ∧ ends false (.vstc vdata vaddr sbase size mode) .cluster ∧
      ends true (.vldk vdata vaddr sbase size mode) .cave ∧ ends false (.vstk vdata vaddr sbase size mode) .cave))


/-- R72, R73: the offset of each lane in a modulo buffer and the pointer after the access; a buffer that is empty, misplaced or beyond the extent, and a
pointer outside its buffer, raise SPAD_BOUNDS before a misaligned pointer raises MISALIGN. R298: vector accesses to the core scratchpad and
to cluster memory in mode 2 use the buffer that their field names and write its next pointer; with no lane active nothing is accessed and the pointer
stays. -/
def Obligations.ModuloBuffers : Prop :=
  (∀ (extent es info l : Nat) (ptr b : W64),
    let base := (b.extractLsb' 0 22).toNat
    let size := 16 * (b.extractLsb' 22 19).toNat
    let inc := (b.extractLsb' 41 22).toInt
    let bad := size = 0 ∨ 16 * 262144 < size ∨ base % 16 ≠ 0 ∨ extent < base + size ∨ ptr.toNat < base ∨ base + size ≤ ptr.toNat
    let at_ := fun (o : Res (Nat → W64)) => o.map fun f => f l
    (bad → at_ (modAccess extent ptr b es info) = .error (.trap { code := codeSpad, addr := ptr, info := info })) ∧
    (¬bad → ptr.toNat % es ≠ 0 → at_ (modAccess extent ptr b es info) = .error (.trap { code := codeMisalign, addr := ptr, info := info })) ∧
    (¬bad → ptr.toNat % es = 0 →
      at_ (modAccess extent ptr b es info) = .ok (BitVec.ofNat 64 (base + (ptr.toNat - base + l * es) % size)) ∧
      base ≤ (modNext ptr b).toNat ∧ (modNext ptr b).toNat < base + size ∧
      ((modNext ptr b).toNat : Int) % size = (base + ((ptr.toNat - base : Nat) + inc)) % size % size)) ∧
  (∀ (s : State) (vdata b sbase size : Nat), s.defer = false → s.rrMode = 0 → s.ordered s.cur.hints = .ok () → size ≤ 4 →
    let ptr := s.g.readS sbase
    let buf := s.g.bm.getD b 0
    let act := lanesOf s.exm
    let data := fun l => (((List.range (elemRegs size)).flatMap fun k => toBytes 4 (s.g.lane (vdata + k) l).toNat).take (2 ^ size))
    let next := fun (u : State) => u.putS true true sbase (modNext ptr buf)
    let acts := fun (load : Bool) (i : Instr) (sp : Space) =>
      let at_ := modAccess (s.extent sp) ptr buf (2 ^ size) (if load then 0 else 1)
      { mvForm load vdata b sbase size 2 with noTx := true : Form }.runs s = true →
      (act = [] → Ends i s s) ∧ (∀ t, act ≠ [] → at_ = .error (.trap t) → Traps i s t) ∧
      (∀ f, act ≠ [] → at_ = .ok f → load = false ∨ s.bad = [] → Ends i s (next (
        if load then s.onTime.writeElems vdata size s.exm s.cur.hints.mods.zero (act.map fun l => (l, s.chipRead sp (f l).toNat (2 ^ size)))
        else act.foldl (fun u l => u.chipWrite sp (f l).toNat (data l)) s)))
    acts true (.vlds vdata b sbase size 2) .scratch ∧ acts false (.vsts vdata b sbase size 2) .scratch ∧
    acts true (.vldc vdata b sbase size 2) .cluster ∧ acts false (.vstc vdata b sbase size 2) .cluster)

/-- R300: scalar loads and stores of the core scratchpad, of 1 to 16 bytes, whatever the mask holds: mode 0 adds its offset to the base, mode 1 uses the base and adds
the offset to it after, and mode 2 uses the modulo buffer that the offset field names (R73; with an empty mask, log entry 76). R86: a load of a
spoiled word traps (its address: log entry 62). R1, R50, R51: bytes
written to an on-chip space of a workgroup are what the same place reads as afterwards, and no other byte of it changes. Completes here: `slds`,
`ssts`, in every mode. -/
def Obligations.ScalarChipAccess : Prop :=
  (∀ (s : State) (sd sbase size mode off : Nat), s.defer = false → s.rrMode = 0 → s.ordered s.cur.hints = .ok () → size ≤ 4 → mode < 3 →
    let h := s.cur.hints
    let base := s.g.readS sbase
    let o := BitVec.ofInt 64 (sextInt (h.immNat 8 off) (h.immWidth 8))
    let n := 2 ^ size
    let buf := s.g.bm.getD off 0
    let data := ((toBytes 8 (s.g.readS sd).toNat ++ toBytes 8 (s.g.readS (sd + 1)).toNat).take n)
    let last := fun (u : State) => if mode = 0 then u else u.putS true true sbase (if mode = 1 then base + o else modNext base buf)
    let loads := { soForm true sd sbase size mode off h with noTx := true : Form }.runs s
    let stores := { soForm false sd sbase size mode off h with noTx := true : Form }.runs s
    let fails := fun t (at_ : W64) (info : Nat) => (if mode = 2 then modAccess (s.extent .scratch) base buf n info = .error (.trap t)
      else if at_.toNat % n ≠ 0 then t = { code := codeMisalign, addr := at_, info := info }
      else s.extent .scratch < at_.toNat + n ∧ t = { code := codeSpad, addr := at_, info := info })
    let at_ := if mode = 0 then base + o else base
    (∀ t, (fails t at_ 0 → loads = true → Traps (.slds sd sbase size mode off) s t) ∧
      (fails t at_ 1 → stores = true → Traps (.ssts sd sbase size mode off) s t)) ∧
    (∀ a, (if mode = 2 then ∃ f, modAccess (s.extent .scratch) base buf n 0 = .ok f ∧ f 0 = a
        else a = at_ ∧ a.toNat % n = 0 ∧ a.toNat + n ≤ s.extent .scratch) →
      let bytes := s.chipRead .scratch a.toNat n
      (loads = true → s.spoiled (.wg s.g.wg) a.toNat n = true →
        Traps (.slds sd sbase size mode off) s { code := codeEcc, addr := Config.chipAddr false s.g.wg a.toNat, info := 0 }) ∧
      (loads = true → s.spoiled (.wg s.g.wg) a.toNat n = false → Ends (.slds sd sbase size mode off) s (last (
        let u := s.putS true true sd (BitVec.ofNat 64 (fromBytes (bytes.take 8)))
        if size = 4 then u.putS true true (sd + 1) (BitVec.ofNat 64 (fromBytes (bytes.drop 8))) else u))) ∧
      (stores = true → Ends (.ssts sd sbase size mode off) s (last (s.chipWrite .scratch a.toNat data))))) ∧
  (∀ (s : State) (off a : Nat) (bs : List Byte), (s.wgs.find? (fun w => w.key == s.g.wg)).any (fun w => Memory.wf w.cells) = true →
    let t := s.chipWrite .scratch off bs
    t.chipRead .scratch off bs.length = bs ∧ (a < off ∨ off + bs.length ≤ a → t.chipRead .scratch a 1 = s.chipRead .scratch a 1) ∧
    t.g = s.g ∧ t.mem = s.mem ∧ t.insts = s.insts)

/-- R42, R46, R58, R297 to R301: a plain global load that passes the checks of Table 03-7, of cacheable memory of this module of which no stale copy
stands, reads the little-endian bytes of memory at the translated address; memory and every other register stay as they are. To whatever place the address
goes, such a load completes. R91 to R93, R299: `vldsub` reads the bytes of each aligned word widened again from the format that its code names, but for
the coherent window and a page with NOSUB, where it reads as `vld` does; a format register that R91 refuses raises FMT_BAD, whatever the mask holds,
and before the lanes are checked (log entry 85). Completes here: `sld`, `vld` and `vldsub`. -/
def Obligations.GlobalLoads : Prop :=
  ∀ (s : State) (sd vdata vaddr sbase size mode off : Nat) (leaf : Nat → Leaf), s.calm = true → size ≤ 4 → (∀ c ∈ s.l1, c.stale = none) → (∀ w ∈ s.wheels, w.bad = []) →
    let h := s.cur.hints
    let n := 2 ^ size
    let base := s.g.readS sbase
    let o := BitVec.ofInt 64 (sextInt (h.immNat 8 off) (h.immWidth 8))
    let a := if mode = 0 then base + o else base
    let plain := fun (f : Leaf) (va : W64) => s.route f.pte (f.pa va) = .plain ∨ s.route f.pte (f.pa va) = .window
    (∀ f, s.check s.who .load true n a = .passes f → mode < 2 → (soForm true sd sbase size mode off h).runs s = true →
      Gives (.sld sd sbase size mode off) s fun t => t.cur.pc = s.cur.pc + 4 ∧ (plain f a →
        let bytes := s.mem.readBytes (f.pa a) n
        let u := s.putS true true sd (BitVec.ofNat 64 (fromBytes (bytes.take 8)))
        let u := if size = 4 then u.putS true true (sd + 1) (BitVec.ofNat 64 (fromBytes (bytes.drop 8))) else u
        let u := if mode = 1 then u.putS true true sbase (base + o) else u
        u.g.sameRegs t.g ∧ t.mem = s.mem ∧ t.wgs = s.wgs)) ∧
    (let at_ := fun l => if mode = 1 then base + BitVec.ofNat 64 (l * n) else if mode = 3 then base else base + (s.g.lane vaddr l).signExtend 64
     (mode = 0 ∨ mode = 1 ∨ mode = 3) → (∀ l ∈ lanesOf s.exm, s.check s.who .load false n (at_ l) = .passes (leaf l)) →
     let fmt := match h.mods.sub with
       | 1 => bf16
       | 2 => fp16
       | 3 => descFmt 0x13B9
       | 4 => descFmt 0x27AB
       | k => descFmt (s.g.fmtReg (k - 3))
     let d := s.g.fmtReg (h.mods.sub - 3)
     let bad := 5 ≤ h.mods.sub ∧ (descValid d = false ∨ d.getLsbD 14 = true ∨ d.extractLsb' 1 3 = 0#3)
     let word := fun (w : Nat) => roundFmt (decodeFmt (roundFmt (decodeFmt w fp32) fmt 0) fmt) fp32 0
     let bytes := fun l =>
       let pa := (leaf l).pa (at_ l)
       if h.mods.sub = 0 ∨ s.route (leaf l).pte pa = .window ∨ (leaf l).pte.getLsbD 8 = true then s.mem.readBytes pa n
       else (List.range n).map fun k => BitVec.ofNat 8 (word (s.mem.readNat ((pa + k) / 4 * 4) 4) / 2 ^ (8 * ((pa + k) % 4)))
     let loaded := fun (t : State) => t.cur.pc = s.cur.pc + 4 ∧ ((∀ l ∈ lanesOf s.exm, plain (leaf l) (at_ l)) →
       t.mem = s.mem ∧ t.wgs = s.wgs ∧
       (s.onTime.writeElems vdata size s.exm h.mods.zero ((lanesOf s.exm).map fun l => (l, bytes l))).g.sameRegs t.g)
     ((mvForm true vdata vaddr sbase size mode).runs s = true → Gives (.vld vdata vaddr sbase size mode) s loaded) ∧
     ({ mvForm true vdata vaddr sbase size mode with sub := true : Form }.runs s = true → ¬bad → Gives (.vldsub vdata vaddr sbase size mode) s loaded)) ∧
    (let d := s.g.fmtReg (h.mods.sub - 3)
     { mvForm true vdata vaddr sbase size mode with sub := true : Form }.runs s = true → 5 ≤ h.mods.sub →
       descValid d = false ∨ d.getLsbD 14 = true ∨ d.extractLsb' 1 3 = 0#3 → Traps (.vldsub vdata vaddr sbase size mode) s { code := codeFmt })

/-- R298, R300, R136: a plain global store that passes the checks of Table 03-7, to cacheable memory of this module outside vats, writes its bytes at
the translated address, lanes in ascending order; every other byte and every register stays as it is. To whatever place the address goes, such a
store completes. Completes here: `sst`, `vst`. -/
def Obligations.GlobalStores : Prop :=
  ∀ (s : State) (sd vdata vaddr sbase size mode off : Nat) (leaf : Nat → Leaf), s.calm = true → size ≤ 4 →
    let h := s.cur.hints
    let n := 2 ^ size
    let base := s.g.readS sbase
    let o := BitVec.ofInt 64 (sextInt (h.immNat 8 off) (h.immWidth 8))
    let a := if mode = 0 then base + o else base
    let plain := fun (f : Leaf) (va : W64) => s.route f.pte (f.pa va) = .plain ∨ s.route f.pte (f.pa va) = .window
    (∀ f, s.check s.who .store true n a = .passes f → mode < 2 → (soForm false sd sbase size mode off h).runs s = true →
      Gives (.sst sd sbase size mode off) s fun t =>
        let u := if mode = 1 then s.putS true true sbase (base + o) else s
        (s.route f.pte (f.pa a) ≠ .control → t.cur.pc = s.cur.pc + 4 ∧ u.g.sameRegs t.g ∧ t.wgs = s.wgs) ∧ (plain f a →
        t.mem = s.mem.writeBytes (f.pa a) ((toBytes 8 (s.g.readS sd).toNat ++ toBytes 8 (s.g.readS (sd + 1)).toNat).take n) ∧
        (Memory.wf s.mem = true → ∀ x, x < f.pa a ∨ f.pa a + n ≤ x → t.mem.read x = s.mem.read x))) ∧
    (let at_ := fun l => if mode = 1 then base + BitVec.ofNat 64 (l * n) else if mode = 3 then base else base + (s.g.lane vaddr l).signExtend 64
     let pa := fun l => (leaf l).pa (at_ l)
     (mode = 0 ∨ mode = 1 ∨ mode = 3) → (∀ l ∈ lanesOf s.exm, s.check s.who .store false n (at_ l) = .passes (leaf l)) →
     (mvForm false vdata vaddr sbase size mode).runs s = true →
     Gives (.vst vdata vaddr sbase size mode) s fun t =>
       ((∀ l ∈ lanesOf s.exm, s.route (leaf l).pte (pa l) ≠ .control) → t.cur.pc = s.cur.pc + 4 ∧ s.g.sameRegs t.g ∧ t.wgs = s.wgs) ∧
       ((∀ l ∈ lanesOf s.exm, plain (leaf l) (at_ l)) →
       t.mem = (lanesOf s.exm).foldl (fun m l =>
         m.writeBytes (pa l) (((List.range (elemRegs size)).flatMap fun k => toBytes 4 (s.g.lane (vdata + k) l).toNat).take n)) s.mem ∧
       (Memory.wf s.mem = true → ∀ x, (∀ l ∈ lanesOf s.exm, x < pa l ∨ pa l + n ≤ x) → t.mem.read x = s.mem.read x)))

/-- Table 03-7, R58: the checks of a global access in order: alignment, canonical form, presence, entry form, permission (R301 for MT = 1) and filters (R373,
R374); the earliest check that any lane fails decides the code, and xmask and xaddr name the lanes that reached it and the lowest of them. R46 to R49,
Tables 03-1 to 03-5: a walk that no TLB answers reads one entry a level from the root down, stops at the first that is not valid, malformed or a leaf,
and never leaves local HBM. A load or store with a lane that fails traps, and none of its lanes performs its access (atomics: `GlobalAtomics`).
Model choices that it rests on: log entries 15, 16, 56 and 82. -/
def Obligations.AccessChecks : Prop :=
  (∀ (s : State) (w : Who) (k : Kind) (scalar : Bool) (size : Nat) (va : W64) (ls : List (Nat × W64)),
    let row := fun (va : W64) => (s.check w k scalar size va).row
    (va.toNat % size ≠ 0 → row va = 1) ∧
    (va.toNat % size = 0 → ¬((va.extractLsb' 56 8 = 0#8) ∨ va.extractLsb' 56 8 = 0xFF#8) → row va = 2) ∧
    (va.toNat % size = 0 → va.extractLsb' 56 8 = 0#8 ∨ va.extractLsb' 56 8 = 0xFF#8 →
      (s.translate w.core w.asid w.root k va = .absent → row va = 3) ∧ (s.translate w.core w.asid w.root k va = .bad → row va = 4) ∧
      ∀ f, s.translate w.core w.asid w.root k va = .leaf f →
        let e := f.pte
        let may := (k = .load ∨ k = .atomic → e.getLsbD 2 = true) ∧ (k = .store ∨ k = .reduction ∨ k = .atomic → e.getLsbD 3 = true) ∧
          (k = .fetch → e.getLsbD 4 = true) ∧ (w.sup = false → e.getLsbD 5 = true) ∧
          (e.extractLsb' 52 2 = 1#2 → scalar = true ∧ w.sup = true ∧ (size = 4 ∨ size = 8))
        let a := (va.extractLsb' 0 57).toNat
        let bit := if k = .load then 111 else if k = .store then 112 else if k = .fetch then 114 else 113
        let seen := fun (x : BitVec 128) => x.getLsbD 110 = true ∧ (x.getLsbD 115 = true ∨ (x.extractLsb' 116 12).toNat = w.asid) ∧ x.getLsbD bit = true ∧
          (x.extractLsb' 0 57).toNat < a + size ∧ a < (x.extractLsb' 0 57).toNat + (x.extractLsb' 64 25).toNat + 1
        let watched := e.getLsbD 9 = true ∧ w.watched = true ∧ w.wskip = false ∧ ∃ x ∈ (s.die (w.core / 32)).filters, seen x
        (¬may → row va = 5) ∧ (may → watched → row va = 6) ∧ (may → ¬watched → s.check w k scalar size va = .passes f)) ∧
    (s.defer = false → ls.all (fun x => row x.2 == 7) = true → ∃ ps, s.checkLanes w k scalar size ls = .ok ps ∧ ps.map (fun p => (p.lane, p.va)) = ls) ∧
    (∀ m, s.defer = false → (ls.map fun x => row x.2).min? = some m → m < 7 →
      let bad := ls.filter fun x => row x.2 == m
      s.checkLanes w k scalar size ls = .error (.trap { code := rowCode m, addr := (bad.head?.map fun x => x.2).getD 0, mask := some (maskOf (bad.map fun x => x.1)), info := k.info, vas := bad.map fun x => x.2 }))) ∧
  (∀ (s : State) (core asid root lv : Nat) (k : Kind) (va : W64) (table : Nat → Nat),
    let a := va.toNat % 2 ^ 57
    let entry := fun n => BitVec.ofNat 64 (s.mem.readNat (table n + 8 * (if n = 0 then a / 2 ^ 16 % 32 else a / 2 ^ (12 + 9 * n) % 512)) 8)
    let pa := fun (e : W64) => (e.extractLsb' 12 40).toNat * 4096
    let inHbm := fun x => x / 2 ^ 43 = s.module ∧ x % 2 ^ 43 < 0x14000000000
    let leaf := fun (e : W64) => e.getLsbD 1 = true
    let mt := fun (e : W64) => (e.extractLsb' 52 2).toNat
    let user := fun (e : W64) => e.getLsbD 5 = true
    let none_ := fun (e : W64) ks => ∀ b ∈ (ks : List Nat), e.getLsbD b = false
    let placed := fun (e : W64) (size : Nat) =>
      let l := pa e % 2 ^ 43
      let cave := (l - 0x68000000000) / 0x2000000 * 0x2000000 + 0x68000000000
      (l + size ≤ 0x14000000000 ∧ mt e ≠ 1 ∧ none_ e [10]) ∨
      (0x68000000000 ≤ l ∧ l < 0x68008000000 ∧ l + size ≤ (if user e then cave + 0x100000 else cave + 0x2000000) ∧ mt e ≠ 1 ∧ none_ e [4, 7, 10]) ∨
      (0x6C000000000 ≤ l ∧ l + size ≤ 0x6C040000000 ∧ mt e = 1 ∧ none_ e [4, 5, 7, 10]) ∨ (0x70000000000 ≤ l ∧ pa e / 2 ^ 43 = s.module ∧ mt e ≠ 1 ∧ none_ e [4, 7])
    let size := fun n => if n = 0 then 0x10000 else if n = 1 then 0x200000 else 0x40000000
    let bad := fun n e => e.extractLsb' 54 10 ≠ 0#10 ∨ 2 ≤ mt e ∨ (leaf e ∧ 3 ≤ n) ∨ (¬leaf e ∧ n = 0) ∨
      (¬leaf e ∧ (e.extractLsb' 2 10 ≠ 0#10 ∨ e.extractLsb' 52 12 ≠ 0#12 ∨ ¬inHbm (pa e))) ∨
      (leaf e ∧ (pa e % size n ≠ 0 ∨ (e.getLsbD 3 = true ∧ e.getLsbD 2 = false) ∨ ¬placed e (size n)))
    s.tlbs = [] → s.walkCache = [] → s.wheels = [] → table 4 = root → lv ≤ 4 →
    (¬inHbm root → s.translate core asid root k va = .bad) ∧
    (inHbm root → (∀ n, lv < n → n ≤ 4 → (entry n).getLsbD 0 = true ∧ ¬bad n (entry n) ∧ ¬leaf (entry n) ∧ table (n - 1) = pa (entry n)) →
      let e := entry lv
      (e.getLsbD 0 = false → s.translate core asid root k va = .absent) ∧
      (e.getLsbD 0 = true → bad lv e → s.translate core asid root k va = .bad) ∧
      (e.getLsbD 0 = true → ¬bad lv e → leaf e → s.translate core asid root k va = .leaf { pte := e, level := lv }))) ∧
  (∀ (s : State) (sd vdata vaddr sbase size mode off : Nat) (tr : Trap), s.calm = true → size ≤ 4 →
    let h := s.cur.hints
    let n := 2 ^ size
    let base := s.g.readS sbase
    let o := BitVec.ofInt 64 (sextInt (h.immNat 8 off) (h.immWidth 8))
    let a := if mode = 0 then base + o else base
    let at_ := fun l => if mode = 1 then base + BitVec.ofNat 64 (l * n) else if mode = 3 then base else base + (s.g.lane vaddr l).signExtend 64
    let fails := fun k => s.checkLanes s.who k false n ((lanesOf s.exm).map fun l => (l, at_ l)) = .error (.trap tr)
    (mode = 0 ∨ mode = 1 ∨ mode = 3 → s.exm ≠ 0 →
      ((mvForm true vdata vaddr sbase size mode).runs s = true → fails .load → Traps (.vld vdata vaddr sbase size mode) s tr) ∧
      ((mvForm false vdata vaddr sbase size mode).runs s = true → fails .store → Traps (.vst vdata vaddr sbase size mode) s tr)) ∧
    (mode < 2 → ∀ r,
      ((soForm true sd sbase size mode off h).runs s = true → s.check s.who .load true n a = .fails r → Traps (.sld sd sbase size mode off) s { code := rowCode r, addr := a }) ∧
      ((soForm false sd sbase size mode off h).runs s = true → s.check s.who .store true n a = .fails r → Traps (.sst sd sbase size mode off) s { code := rowCode r, addr := a, info := 1 })))


/-! ### Atomics (R302 to R307) -/

/-- Table 16-3, R306: the new value of each operation on an old value and an operand, packed halves (PK 1 FP16, 2 BF16) apart; a compare-and-swap
keeps the old value unless it is the expected one. -/
def Obligations.AtomicOperations : Prop :=
  ∀ (o d : W32) (e f : W64) (a b : Byte) (x y z : BitVec 128) (pk : Nat), pk < 3 →
    let w := fun op => BitVec.ofNat 32 (atomNew op o.toNat d.toNat 0)
    let halves := fun (g : NumFmt → Nat → Nat → Nat) =>
      if pk = 0 then BitVec.ofNat 32 (g fp32 o.toNat d.toNat)
      else
        let half := fun k => BitVec.ofNat 16 (g (if pk = 1 then fp16 else bf16) (o.extractLsb' k 16).toNat (d.extractLsb' k 16).toNat)
        half 16 ++ half 0
    w 0 = o + d ∧ w 1 = o &&& d ∧ w 2 = o ||| d ∧ w 3 = o ^^^ d ∧ w 8 = d ∧
    w 4 = (if o.slt d then o else d) ∧ w 5 = (if o.slt d then d else o) ∧ w 6 = (if o.ult d then o else d) ∧ w 7 = (if o.ult d then d else o) ∧
    w (9 + 32 * pk) = halves (fun g p q => roundFmt (sumTerms false [decodeFmt p g, decodeFmt q g]) g 0) ∧
    w (10 + 32 * pk) = halves (fun g p q => fsel false p q g) ∧ w (11 + 32 * pk) = halves (fun g p q => fsel true p q g) ∧
    atomNew 12 e.toNat f.toNat 0 = (e + f).toNat ∧ atomNew 13 e.toNat f.toNat 0 = f.toNat ∧ atomNew 14 a.toNat b.toNat 0 = (a + b).toNat ∧
    atomNew opCas x.toNat y.toNat z.toNat = (if x = z then y else x).toNat

/-- R303 to R306 in the core scratchpad (space 1) and cluster memory (space 2): every lane in ascending order reads the old value of its target and
writes the new one; old values go to the return register, where there is one. A misaligned target traps before one beyond the extent,
and an empty mask does nothing; the scalar forms act whatever the mask. R108: old values pass through the group's return slots. Completes here:
`vatom`, `vred`, `vcas.w`, `vcas.d`, `vcas2`, `satom`, `scas` in these spaces.
Model choices that it rests on: log entries 51 and 62. -/
def Obligations.ChipAtomics : Prop :=
  ∀ (s : State) (vdata vaddr sbase sd sa sb space op size : Nat), space = 1 ∨ space = 2 → s.defer = false → s.rrMode = 0 → s.ordered s.cur.hints = .ok () →
    op < 15 → size < 3 →
    let h := s.cur.hints
    let sp := if space = 1 then Space.scratch else Space.cluster
    let n := if op = 12 ∨ op = 13 then 8 else if op = 14 then 1 else 4
    let pk := h.mods.pk
    let lanes := (lanesOf s.exm).map fun l => (l, s.g.readS sbase + (s.g.lane vaddr l).signExtend 64)
    let opnd := fun v n l => fromBytes ((((List.range ((n + 3) / 4)).flatMap fun k => toBytes 4 (s.g.lane (v + k) l).toNat)).take n)
    let regs := fun v n => (List.range ((n + 3) / 4)).map fun k => rv (v + k)
    let turns := fun n (new : Nat → Nat → Nat) (ls : List (Nat × W64)) => ls.foldl (fun (acc : List (Nat × Nat) × State) x =>
      let o := fromBytes (acc.2.chipRead sp x.2.toNat n)
      (acc.1 ++ [(x.1, o)], acc.2.chipWrite sp x.2.toNat (toBytes n (new x.1 o)))) (([] : List (Nat × Nat)), s)
    let acts := fun (i : Instr) (f : Form) (info n : Nat) (ls : List (Nat × W64)) (mask : Option W32) (new : Nat → Nat → Nat) (put : List (Nat × Nat) → State → State) =>
      let skew := ls.filter fun x => x.2.toNat % n != 0
      let out := ls.filter fun x => decide (s.extent sp < x.2.toNat + n)
      let lost := ls.filter fun x => (s.chipAt sp x.2.toNat).any fun p => s.spoiled p.1 p.2 n
      let trap := fun code (bad : List (Nat × W64)) a => Traps i s { code := code, addr := a, mask := mask.map fun _ => maskOf (bad.map fun x => x.1), info := info }
      f.runs s = true →
      (ls = [] → Ends i s s) ∧ (∀ x ∈ skew.head?, trap codeMisalign skew x.2) ∧ (skew = [] → ∀ x ∈ out.head?, trap codeSpad out x.2) ∧
      (skew = [] → out = [] → ∀ x ∈ lost.head?, trap codeEcc lost (((s.chipAt sp x.2.toNat).map fun p => p.1.addr p.2).getD 0)) ∧
      (ls ≠ [] → skew = [] → out = [] → lost = [] → Ends i s (let r := turns n new ls; put r.1 (if info = 2 then
        { r.2 with g := { r.2.g with retSlots := r.1.foldl (fun q o => q.set o.1 (BitVec.ofNat 128 o.2)) r.2.g.retSlots } } else r.2)))
    let olds := fun v n (r : List (Nat × Nat)) (u : State) => (List.range ((n + 3) / 4)).foldl (fun u k => u.putV true true (v + k) s.exm false fun l =>
      let x : W32 := BitVec.ofNat 32 (((r.find? fun o => o.1 == l).map fun o => o.2).getD 0 / 2 ^ (32 * k))
      if n = 1 then (u.g.lane (v + k) l).extractLsb' 8 24 ++ x.extractLsb' 0 8 else x) u
    let plainOp := decide (op = 9 ∨ op = 10 ∨ op = 11)
    let form : Form := { srcs := rs sbase :: rv vaddr :: regs vdata n, ords := [0, 2, 4], h2 := plainOp, b2 := plainOp, ext := [0], extDst := true, noTx := true }
    let one := fun l o => atomNew (op + 32 * pk) o (opnd vdata n l) 0
    (h.ext = none → acts (.vatom vdata vaddr sbase space op) form 3 n lanes (some 0) one (fun _ u => u)) ∧
    (∀ e, h.ext = some e → e.sel = 0 → (n = 8 → e.reg % 2 = 0) →
      acts (.vatom vdata vaddr sbase space op) { form with ords := [0, 1, 2, 3, 4], dsts := regs e.reg n, keeps := if n = 1 then regs e.reg n else [] } 2 n lanes (some 0) one (olds e.reg n)) ∧
    (∀ k, (if k ≤ 10 then k - 3 else if k ≤ 13 then k - 2 else if k = 14 then 12 else 14) = op → 3 ≤ k → k < 16 →
      acts (.vred vdata vaddr sbase space k) { form with ext := [] } 3 n lanes (some 0) one (fun _ u => u)) ∧
    (let cas := fun (i : Instr) n =>
       acts i { srcs := rs sbase :: rv vaddr :: (regs vdata n ++ regs (vdata + (n + 3) / 4) n), dsts := regs vdata n, ords := [0, 1, 2, 3, 4], noTx := true } 2 n lanes (some 0)
         (fun l o => atomNew opCas o (opnd (vdata + (n + 3) / 4) n l) (opnd vdata n l)) (olds vdata n)
     cas (.vcasW vdata vaddr sbase space) 4 ∧ cas (.vcasD vdata vaddr sbase space) 8 ∧ cas (.vcas2 vdata vaddr sbase space) 16) ∧
    (let old := fun (r : List (Nat × Nat)) => ((r.head?).map fun o => o.2).getD 0
     acts (.satom sd sa sb space op) { srcs := [rs sa, rs sb], dsts := [rs sd], ords := [0, 1, 2, 3, 4], h2 := plainOp, b2 := plainOp, noTx := true } 2 n [(0, s.g.readS sa)] none
       (fun _ o => atomNew (op + 32 * pk) o ((s.g.readS sb).toNat % 2 ^ (8 * n)) 0) (fun r u => u.putS true true sd (BitVec.ofNat 64 (old r))) ∧
     (let n := 4 * 2 ^ size
      let pair := fun r => rs r :: (if size = 2 then [rs (r + 1)] else [])
      let val := fun r => ((s.g.readS r).toNat + (if size = 2 then (s.g.readS (r + 1)).toNat * 2 ^ 64 else 0)) % 2 ^ (8 * n)
      acts (.scas sd sa sb space size) { srcs := rs sa :: (pair sb ++ pair sd), dsts := pair sd, ords := [0, 1, 2, 3, 4], noTx := true } 2 n [(0, s.g.readS sa)] none
        (fun _ o => atomNew opCas o (val sb) (val sd)) (fun r u =>
          let u := u.putS true true sd (BitVec.ofNat 64 (old r))
          if size = 2 then u.putS true true (sd + 1) (BitVec.ofNat 64 (old r / 2 ^ 64)) else u)))

/-- R303 to R307 in global memory: atomics that pass the checks of Table 03-7, of cacheable memory of this module outside vats, act lane by lane in
ascending order on the little-endian values at their physical addresses; old values go to the return register, and every other byte and
register stays as it is. R58: a lane that fails a check makes the form trap, with no lane performed. `.add.b` in an MMIO window and a 16-byte swap on a
page with NOATOM128 raise ATOM_UNSUP for its lanes. At any place for which
Table 16-5 names no such lane the form completes. Completes here: `vatom`, `vred`, `vcas.w`, `vcas.d`, `vcas2`, `satom`, `scas` in global memory.
Model choices that it rests on: log entries 15, 53 and 69. -/
def Obligations.GlobalAtomics : Prop :=
  ∀ (s : State) (vdata vaddr sbase sd sa sb op size : Nat) (leaf : Nat → Leaf), s.calm = true → op < 15 → size < 3 → (∀ w ∈ s.wheels, w.bad = []) →
    let h := s.cur.hints
    let n := if op = 12 ∨ op = 13 then 8 else if op = 14 then 1 else 4
    let lanes := (lanesOf s.exm).map fun l => (l, s.g.readS sbase + (s.g.lane vaddr l).signExtend 64)
    let opnd := fun v n l => fromBytes ((((List.range ((n + 3) / 4)).flatMap fun k => toBytes 4 (s.g.lane (v + k) l).toNat)).take n)
    let regs := fun v n => (List.range ((n + 3) / 4)).map fun k => rv (v + k)
    let pa := fun (x : Nat × W64) => (leaf x.1).pa x.2
    let turns := fun n (new : Nat → Nat → Nat) (ls : List (Nat × W64)) => ls.foldl (fun (acc : List (Nat × Nat) × Cells) x =>
      let o := acc.2.readNat (pa x) n
      (acc.1 ++ [(x.1, o)], acc.2.writeNat (pa x) n (new x.1 o))) (([] : List (Nat × Nat)), s.mem)
    let acts := fun (i : Instr) (f : Form) (k : Kind) (cas : Bool) n (ls : List (Nat × W64)) (mask : Option W32) (new : Nat → Nat → Nat) (put : List (Nat × Nat) → State → State) =>
      let bad := ls.filter fun x => (decide (s.route (leaf x.1).pte (pa x) = .window) && n == 1) || (cas && n == 16 && (leaf x.1).pte.getLsbD 11)
      let unsup := fun (x : Nat × W64) => s.atomUnsup h.sysScope mask.isNone (if cas then opCas else op + 32 * h.mods.pk) n { lane := x.1, va := x.2, pa := pa x, leaf := leaf x.1 }
      f.runs s = true → (ls = [] → Ends i s s) ∧
      (∀ tr, s.checkLanes s.who k false n ls = .error (.trap tr) → Traps i s { tr with mask := mask.bind fun _ => tr.mask }) ∧
      (ls ≠ [] → (∀ x ∈ ls, s.check s.who k false n x.2 = .passes (leaf x.1)) →
      ((∀ x ∈ ls, unsup x = false) → Gives i s fun t => t.cur.pc = s.cur.pc + 4) ∧
      ((∀ x ∈ ls, s.route (leaf x.1).pte (pa x) = .plain ∨ s.route (leaf x.1).pte (pa x) = .window) → (∀ x ∈ bad.head?, Traps i s { code := codeAtom, addr := x.2, mask := mask.map fun _ => maskOf (bad.map fun x => x.1), info := k.info }) ∧
      (bad = [] → Gives i s fun t =>
        let r := turns n new ls
        t.cur.pc = s.cur.pc + 4 ∧ t.mem = r.2 ∧ (put r.1 s).g.sameRegs t.g ∧ t.wgs = s.wgs ∧ t.insts = s.insts ∧
        (Memory.wf s.mem = true → ∀ y, (∀ x ∈ ls, y < pa x ∨ pa x + n ≤ y) → t.mem.read y = s.mem.read y))))
    let olds := fun v n (r : List (Nat × Nat)) (u : State) => (List.range ((n + 3) / 4)).foldl (fun u k => u.putV true true (v + k) s.exm false fun l =>
      let x : W32 := BitVec.ofNat 32 (((r.find? fun o => o.1 == l).map fun o => o.2).getD 0 / 2 ^ (32 * k))
      if n = 1 then (u.g.lane (v + k) l).extractLsb' 8 24 ++ x.extractLsb' 0 8 else x) u
    let plainOp := decide (op = 9 ∨ op = 10 ∨ op = 11)
    let form : Form := { srcs := rs sbase :: rv vaddr :: regs vdata n, ords := [0, 2, 4], h2 := plainOp, b2 := plainOp, ext := [0], extDst := true, noTx := true }
    let one := fun l o => atomNew (op + 32 * h.mods.pk) o (opnd vdata n l) 0
    (h.ext = none → acts (.vatom vdata vaddr sbase 0 op) form .reduction false n lanes (some 0) one (fun _ u => u)) ∧
    (∀ e, h.ext = some e → e.sel = 0 → (n = 8 → e.reg % 2 = 0) →
      acts (.vatom vdata vaddr sbase 0 op) { form with ords := [0, 1, 2, 3, 4], dsts := regs e.reg n, keeps := if n = 1 then regs e.reg n else [] } .atomic false n lanes (some 0) one (olds e.reg n)) ∧
    (∀ k, (if k ≤ 10 then k - 3 else if k ≤ 13 then k - 2 else if k = 14 then 12 else 14) = op → 3 ≤ k → k < 16 →
      acts (.vred vdata vaddr sbase 0 k) { form with ext := [] } .reduction false n lanes (some 0) one (fun _ u => u)) ∧
    (let cas := fun (i : Instr) n =>
       acts i { srcs := rs sbase :: rv vaddr :: (regs vdata n ++ regs (vdata + (n + 3) / 4) n), dsts := regs vdata n, ords := [0, 1, 2, 3, 4], noTx := true } .atomic true n lanes (some 0)
         (fun l o => atomNew opCas o (opnd (vdata + (n + 3) / 4) n l) (opnd vdata n l)) (olds vdata n)
     cas (.vcasW vdata vaddr sbase 0) 4 ∧ cas (.vcasD vdata vaddr sbase 0) 8 ∧ cas (.vcas2 vdata vaddr sbase 0) 16) ∧
    (let old := fun (r : List (Nat × Nat)) => ((r.head?).map fun o => o.2).getD 0
     acts (.satom sd sa sb 0 op) { srcs := [rs sa, rs sb], dsts := [rs sd], ords := [0, 1, 2, 3, 4], h2 := plainOp, b2 := plainOp, noTx := true } .atomic false n [(0, s.g.readS sa)] none
       (fun _ o => atomNew (op + 32 * h.mods.pk) o ((s.g.readS sb).toNat % 2 ^ (8 * n)) 0) (fun r u => u.putS true true sd (BitVec.ofNat 64 (old r))) ∧
     (let n := 4 * 2 ^ size
      let pair := fun r => rs r :: (if size = 2 then [rs (r + 1)] else [])
      let val := fun r => ((s.g.readS r).toNat + (if size = 2 then (s.g.readS (r + 1)).toNat * 2 ^ 64 else 0)) % 2 ^ (8 * n)
      acts (.scas sd sa sb 0 size) { srcs := rs sa :: (pair sb ++ pair sd), dsts := pair sd, ords := [0, 1, 2, 3, 4], noTx := true } .atomic true n [(0, s.g.readS sa)] none
        (fun _ o => atomNew opCas o (val sb) (val sd)) (fun r u =>
          let u := u.putS true true sd (BitVec.ofNat 64 (old r))
          if size = 2 then u.putS true true (sd + 1) (BitVec.ofNat 64 (old r / 2 ^ 64)) else u)))

/-! ### Waiting, launches and barriers (R206, R264 to R267, R310 to R313) -/

/-- R206, R264: `mwait` loads its word once, as an ordinary load, and compares it with sb or, with a `hint.ext`, with each lane's element. The lanes
whose comparison holds go on; the others leave as one parked entry that names the line and 65,536 clocks. With a save-area entry free it completes
wherever its word lies. Completes here: `mwait`. -/
def Obligations.MonitorWaits : Prop :=
  ∀ (s : State) (sa sb cond : Nat) (dbl uns : Bool) (f : Leaf), s.calm = true → (∀ c ∈ s.l1, c.stale = none) → cond < 6 →
    let i := Instr.mwait sa sb dbl uns cond
    let c := s.cur
    let size := if dbl then 8 else 4
    let a := s.g.readS sa
    let m := s.mem.readNat (f.pa a) size
    let k := fun l => c.hints.ext.elim (s.g.readS sb).toNat fun e => (s.g.laneOf { sel := e.sel, reg := e.reg } l).toNat
    let v := fun (n : Nat) => if uns then ((n % 2 ^ (8 * size) : Nat) : Int) else (BitVec.ofNat (8 * size) n).toInt
    let holds := fun l =>
      let x := v m
      let y := v (k l)
      if cond = 0 then decide (x = y) else if cond = 1 then decide (x ≠ y) else if cond = 2 then decide (x < y) else if cond = 3 then decide (y ≤ x)
      else if cond = 4 then decide (y < x) else decide (x ≤ y)
    let fails := c.exm &&& maskOf ((lanesOf c.exm).filter fun l => !holds l)
    let parked : SaveEntry := { state := .parked .mwait, pc := c.runPc, mask := fails, depth := c.depth, frame := c.tag, seq := s.g.seqNext, maddr := BitVec.ofNat 64 (lineOf (f.pa a)), deadline := s.clock + 65536, begun := s.clock, next := c.pc + 4 }
    let same := fun (t : State) => t.mem = s.mem ∧ t.g.v = s.g.v ∧ t.g.s = s.g.s ∧ t.g.p = s.g.p ∧ t.wgs = s.wgs
    { srcs := [rs sa, rs sb], ords := [0, 1], ext := [0], noTx := true, iin := dbl && c.hints.ext.isSome : Form }.runs s = true →
    (c.exm = 0 → Ends i s s) ∧
    (∀ r, s.check s.who .load false size a = .fails r → c.exm ≠ 0 → Traps i s { code := rowCode r, addr := a }) ∧
    (c.exm ≠ 0 → s.check s.who .load false size a = .passes f → s.g.save.length < 64 → (∀ w ∈ s.wheels, w.bad = []) → Gives i s fun _ => True) ∧
    (c.exm ≠ 0 → s.check s.who .load false size a = .passes f → s.route f.pte (f.pa a) = .plain ∨ s.route f.pte (f.pa a) = .window →
      (fails = 0 → Gives i s fun t => same t ∧ t.cur.pc = c.pc + 4 ∧ t.cur.exm = c.exm ∧ t.g.save = s.g.save) ∧
      (fails ≠ 0 → 64 ≤ s.g.save.length → Traps i s { code := codeDivstack }) ∧
      (fails ≠ 0 → s.g.save.length < 64 → fails ≠ c.exm → Gives i s fun t => same t ∧ t.cur.pc = c.pc + 4 ∧ t.cur.exm = c.exm &&& ~~~fails ∧ t.g.save = s.g.save ++ [parked]) ∧
      (s.g.save.length < 64 → fails ≠ 0 → fails = c.exm → Gives i s fun t => same t ∧ parked ∈ t.g.save))

/-- R265 to R267, Tables 10-8 and 14-6: `spawn` reads the header's 128 bytes and answers a refusal, or makes a launch that is the child of the issuing one;
`waitc` gives the status of a child that has ended and 2 for a handle of no child, and otherwise waits. The supervisor form of `spawn` works in the
address space that it names and refuses where its header cannot be read. Completes here: `spawn`, `waitc`.
Model choices that it rests on: log entries 21 and 88. -/
def Obligations.SpawnAndWait : Prop :=
  ∀ (s : State) (sa sb : Nat) (f : Leaf), s.calm = true → s.performed s.g = true → s.g.lateFault = none → (∀ c ∈ s.l1, c.stale = none) →
    let va := s.g.readS sa
    let puts := fun (i : Instr) (x : W64) => Ends i s (s.putS true true sb x)
    let refused := fun (n : Nat) => BitVec.ofNat 64 (2 ^ 63 + n)
    let named := ((s.g.readS (sa + 1)).extractLsb' 0 12).toNat
    (∀ (u : Bool) (asid root : Nat), (if u then asid = named ∧ (s.roots.find? fun r => r.1 == asid).map (fun r => r.2) = some root else asid = s.g.asid ∧ root = s.g.root) →
      { srcs := rs sa :: (if u then [rs (sa + 1)] else []), dsts := [rs sb], sup := u, noTx := true : Form }.runs s = true →
      let who := { s.who with asid := asid, root := root }
      let spawns := Gives (.spawn sa sb u) s
      (va.toNat % 64 ≠ 0 → puts (.spawn sa sb u) (refused 1)) ∧
      (va.toNat % 64 = 0 → ∀ r, s.check who .load false 64 va = .fails r →
        if u then puts (.spawn sa sb u) (refused 1) else Traps (.spawn sa sb u) s { code := rowCode r, addr := va }) ∧
      (va.toNat % 2048 = 0 → s.check who .load false 64 va = .passes f → s.check who .load false 64 (va + 64) = .passes f → s.route f.pte (f.pa va) = .plain →
        let bytes := s.mem.readBytes (f.pa va) 64 ++ s.mem.readBytes (f.pa (va + 64)) 64
        (parseHeader bytes = none → spawns fun t => (s.putS true true sb (refused 1)).g.sameRegs t.g ∧ t.launches = s.launches ∧ t.mem = s.mem) ∧
        (∀ l, parseHeader bytes = some l → l.done = 0 → l.placeable = false →
          spawns fun t => (s.putS true true sb (refused 2)).g.sameRegs t.g ∧ t.launches = s.launches ∧ t.mem = s.mem) ∧
        (∀ l, parseHeader bytes = some l → l.done = 0 → l.placeable = true → (s.launches.filter fun l => !l.complete).length < 1024 →
          let h := (s.nextHandle - 1) % (2 ^ 32 - 1) + 1
          spawns fun t => (s.putS true true sb (BitVec.ofNat 64 h)).g.sameRegs t.g ∧ t.mem = s.mem ∧ t.cur.pc = s.cur.pc + 4 ∧
            t.launches = s.launches ++ [{ l with handle := h, parent := s.g.launch, asid := asid, root := root, order := s.nextId, unplaced := (List.range 4).map fun d => (List.range l.units).filter fun u => u % 4 == d, toResume := [[], [], [], []], passed := [none, none, none, none] }]))) ∧
    ({ srcs := [rs sa, rs (sa + 1)], dsts := [rs sb], sup := true, noTx := true : Form }.runs s = true → s.g.sup = true → s.roots.all (fun r => r.1 != named) = true →
      puts (.spawn sa sb true) (refused 4)) ∧
    ({ srcs := [rs sa], dsts := [rs sb], noTx := true : Form }.runs s = true →
      let child := s.launches.find? fun l => l.handle == (va.extractLsb' 0 32).toNat && l.parent == s.g.launch
      (child = none → puts (.waitc sa sb) 2) ∧
      (∀ l, child = some l → l.complete = true → puts (.waitc sa sb) (if l.killed then 2 else if l.faulted then (l.frec.extractLsb' 8 49).setWidth 64 <<< 8 ||| 1 else 0)) ∧
      (∀ l, child = some l → l.complete = false → Gives (.waitc sa sb) s fun t => t.cur.pc = s.cur.pc ∧ t.g.s = s.g.s))

/-- R310 to R313: the fields of a barrier object and each form's step on it: an arrival of as many lanes, or of one with `.g`; a count owed; a test that
counts an observation once the phase has moved on; p takes 1 for every active lane where the form succeeded. Every completion flips
PHASE and clears ARR and OBS. A `bar.wait` that is not done parks. An accepted arrival releases at scope `wg` (R145). Completes here: `bar.init`,
`bar.arr`, `bar.exp`, `bar.try`, `bar.wait`, `bar.inval`. -/
def Obligations.Barriers : Prop :=
  ∀ (s : State) (sa sb p : Nat) (grp : Bool) (w : Workgroup), s.wgs.find? (fun w => w.key == s.g.wg) = some w → s.cur.live = true → s.defer = false → s.g.lateFault = none → s.performedAt 1 s.g = true →
    let off := (s.g.readS sa).toNat
    let b := s.g.readS sb
    let n := fromBytes (w.cells.readBytes off 16)
    let fld := fun lo len => natField n lo len
    let exp := fld 32 16
    let put := fun (x : BarObj) => s.barSet s.g.wg off (x.toNat n)
    let o : BarObj := { exp := exp, wait := fld 64 16, obs := fld 80 16, arr := fld 16 16, pend := fld 96 24, phase := n % 2 == 1 }
    let done := fun (x : BarObj) => if x.exp ≠ 0 ∧ x.arr = x.exp ∧ x.pend = 0 then { x with phase := !x.phase, arr := 0, obs := 0 } else x
    let forms := fun (srcs dsts : List RegName) (i : Instr) (u : State) =>
      ({ srcs := rs sa :: srcs, dsts := dsts, noTx := true : Form }).runs s = true →
      (s.exm = 0 → Ends i s s) ∧
      (s.exm ≠ 0 → off % 16 ≠ 0 → Traps i s { code := codeMisalign, addr := s.g.readS sa }) ∧
      (s.exm ≠ 0 → off % 16 = 0 → w.spad < off + 16 → Traps i s { code := codeSpad, addr := s.g.readS sa }) ∧
      (s.exm ≠ 0 → off % 16 = 0 → off + 16 ≤ w.spad → s.bad = [] → Ends i s u)
    let pred := fun (r : Bool) (u : State) => u.putP p s.exm false fun _ => r
    let lanes := if grp then 1 else (lanesOf s.exm).length
    let takes := exp ≠ 0 ∧ o.wait ≤ o.obs ∧ o.arr + lanes ≤ exp
    let owed := (b.extractLsb' 0 24).toNat
    let moved := exp = 0 ∨ o.phase ≠ b.getLsbD 0
    let seen := put (if exp ≠ 0 ∧ o.obs < o.wait then { o with obs := o.obs + 1 } else o)
    forms [rs sb] [] (.barInit sa sb) (s.barSet s.g.wg off ((b.extractLsb' 0 16).toNat * 2 ^ 32 + (b.extractLsb' 16 16).toNat * 2 ^ 64 + (b.extractLsb' 16 16).toNat * 2 ^ 80)) ∧
    forms [rp p] [rp p] (.barArr sa grp p) (if takes then pred true (put (done { o with arr := o.arr + lanes })) else pred false s) ∧
    forms [rs sb, rp p] [rp p] (.barExp sa sb p) (if exp ≠ 0 ∧ o.pend + owed < 2 ^ 24 then pred true (put { o with pend := o.pend + owed }) else pred false (put o)) ∧
    forms [rs sb, rp p] [rp p] (.barTry sa sb p) (if moved then pred true seen else pred false (put o)) ∧
    forms [] [] (.barInval sa) (s.barSet s.g.wg off 0) ∧
    (moved → forms [rs sb] [] (.barWait sa sb) seen) ∧
    (¬moved → { srcs := [rs sa, rs sb], noTx := true : Form }.runs s = true → s.exm ≠ 0 → off % 16 = 0 → off + 16 ≤ w.spad → s.bad = [] → s.g.save.length < 64 →
      Gives (.barWait sa sb) s fun t => t.wgs = s.wgs ∧ t.mem = s.mem ∧ t.g.v = s.g.v ∧ t.g.s = s.g.s ∧ t.g.p = s.g.p ∧
        t.g.save.any fun e => e.state = .parked (.barWait off (b.getLsbD 0)) && e.pc == s.cur.runPc && e.mask == s.exm && e.maddr == BitVec.ofNat 64 (2 ^ 63 + off)) ∧
    (¬moved → { srcs := [rs sa, rs sb], noTx := true : Form }.runs s = true → s.exm ≠ 0 → off % 16 = 0 → off + 16 ≤ w.spad → s.bad = [] → 64 ≤ s.g.save.length →
      Traps (.barWait sa sb) s { code := codeDivstack }) ∧
    (let t := put o
     Memory.wf w.cells = true → BarObj.ofNat (t.barBytes s.g.wg off) = o ∧ t.barBytes s.g.wg off = n)

/-! ### Prefetch, flush, invalidate, fences and wheels (R111 to R124, R143, R308, R309) -/

/-- R143, R308, R309: a fence with nothing outstanding, a prefetch, a flush and an invalidation complete; none of them changes a register or any
coherent byte of this module's memory. A range is taken page by page: a page that is not valid is passed over, the first that may not be accessed makes the
form trap with PAGE_PERM; after `fls` no core holds a line of the range in M, and after `inv` none holds a copy of it. R111, R112, R121, R122, R123, Table 06-2: `wfetch`, `wevict` and `wpress` check the
wheel's address as a one-byte store, move it between IDLE, VATTED, RESIDENT-S and, with `.c` and `.k`, RESIDENT-F, a press writing the entries of
the vat in log order and an eviction from a frame writing the frame's bytes to the wheel; they do nothing where Table 06-2 says so or on a page with VAT 0;
no register changes. Completes here: `prf`, `fence`,
`fls`, `inv`, `wfetch` of each kind, `wevict`, `wpress`.
Model choices that it rests on: log entry 54. -/
def Obligations.CacheAndWheelForms : Prop :=
  (∀ (s : State) (sa sb scope lvl order : Nat), s.calm = true → s.performed s.g = true → s.modAcks = [] → s.g.lateFault = none →
    let ends := fun (i : Instr) => Gives i s fun t => t.cur.pc = s.cur.pc + 4 ∧ s.g.sameRegs t.g ∧ t.mem = s.mem ∧ t.wgs = s.wgs ∧ t.insts = s.insts
    let va := s.g.readS sa
    let one := (s.g.readS sb).extractLsb' 0 32 = 1#32
    ({ srcs := [rs sa] : Form }.runs s = true → ends (.prf sa lvl)) ∧
    ({ noTx := true : Form }.runs s = true → Ends (.fence scope order) s s) ∧
    ({ srcs := [rs sa, rs sb], noTx := true : Form }.runs s = true →
      ((s.g.readS sb).extractLsb' 0 32 = 0#32 → Ends (.fls sa sb scope) s s ∧ Ends (.inv sa sb scope) s s) ∧
      (one → canonical va = false → Traps (.fls sa sb scope) s { code := codePagePerm, addr := va } ∧ Traps (.inv sa sb scope) s { code := codePagePerm, addr := va }) ∧
      (one → canonical va = true → s.translate s.g.core s.g.asid s.g.root .load va = .absent → Ends (.fls sa sb scope) s s ∧ Ends (.inv sa sb scope) s s) ∧
      (one → canonical va = true → ∀ f, s.translate s.g.core s.g.asid s.g.root .load va = .leaf f →
        (s.g.sup = false → f.pte.getLsbD 5 = false → Traps (.fls sa sb scope) s { code := codePagePerm, addr := va }) ∧
        (s.g.sup = true ∨ f.pte.getLsbD 5 = true → ends (.fls sa sb scope) ∧ ends (.inv sa sb scope) ∧
          ((s.route f.pte (lineOf (f.pa va)) = .plain → Gives (.inv sa sb scope) s fun t => t.l1.all fun c => c.line != lineOf (f.pa va)))))) ∧
    (let parts := pageParts va ((s.g.readS sb).extractLsb' 0 32).toNat
     let leaf := fun (x : W64 × Nat) (f : Leaf) => s.translate s.g.core s.g.asid s.g.root .load x.1 = .leaf f
     let fine := fun (x : W64 × Nat) => canonical x.1 = true ∧ (s.translate s.g.core s.g.asid s.g.root .load x.1 = .absent ∨
       ∃ f, leaf x f ∧ (s.g.sup = true ∨ f.pte.getLsbD 5 = true))
     { srcs := [rs sa, rs sb], noTx := true : Form }.runs s = true →
     (∀ pre x post, parts = pre ++ x :: post → (∀ y ∈ pre, fine y) → ¬fine x →
       Traps (.fls sa sb scope) s { code := codePagePerm, addr := x.1 } ∧ Traps (.inv sa sb scope) s { code := codePagePerm, addr := x.1 }) ∧
     ((∀ x ∈ parts, fine x) → ends (.fls sa sb scope) ∧ ends (.inv sa sb scope) ∧
       ∀ x ∈ parts, ∀ f k, leaf x f → k < x.2 → s.route f.pte (lineOf (f.pa x.1 + k)) = .plain →
         let line := lineOf (f.pa x.1 + k)
         let clean := fun (t : State) => (t.dirOf line).all (fun d => match d.state with
           | .modified _ => false
           | _ => true) = true
         Gives (.fls sa sb scope) s clean ∧ Gives (.inv sa sb scope) s fun t => clean t ∧ t.l1.all (fun c => c.line != line) = true))) ∧
  (∀ (va : W64) (n : Nat),
    (pageParts va n).flatMap (fun x => (List.range x.2).map fun k => x.1 + BitVec.ofNat 64 k) = (List.range n).map (fun k => va + BitVec.ofNat 64 k) ∧
    ∀ x ∈ pageParts va n, 0 < x.2 ∧ x.1.toNat % 65536 + x.2 ≤ 65536) ∧
  (∀ (s : State) (sa sb : Nat), s.calm = true → s.performed s.g = true →
    let va := (s.g.readS sa) &&& ~~~2047#64
    let same := fun (t : State) => t.cur.pc = s.cur.pc + 4 ∧ s.g.sameRegs t.g ∧ t.wgs = s.wgs ∧ t.insts = s.insts
    let stateOf := fun (t : State) (w : Nat) => (t.wheels.find? fun x => x.wheel == w).map fun x => x.state
    let is := [Instr.wfetch sa sb 0, .wevict sa, .wpress sa]
    { srcs := [rs sa], noTx := true : Form }.runs s = true →
    (∀ r, s.check s.who .store false 1 va = .fails r → ∀ i ∈ is, Traps i s { code := rowCode r, addr := va, info := 1 }) ∧
    (∀ f, s.check s.who .store false 1 va = .passes f →
      let w := f.pa va
      (f.pte.getLsbD 7 = false ∨ moduleOf w ≠ s.module → ∀ i ∈ is, Gives i s fun t => same t ∧ t.mem = s.mem ∧ t.wheels = s.wheels) ∧
      (f.pte.getLsbD 7 = true → moduleOf w = s.module →
        (stateOf s w = none →
          (Gives (.wfetch sa sb 0) s fun t => same t ∧ t.mem = s.mem ∧ stateOf t w = some .residentS) ∧
          (Gives (.wevict sa) s fun t => same t ∧ t.mem = s.mem ∧ t.wheels = s.wheels) ∧ (Gives (.wpress sa) s fun t => same t ∧ t.mem = s.mem ∧ t.wheels = s.wheels)) ∧
        (stateOf s w = some .residentS →
          (Gives (.wfetch sa sb 0) s fun t => same t ∧ t.mem = s.mem ∧ t.wheels = s.wheels) ∧
          (Gives (.wevict sa) s fun t => same t ∧ t.mem = s.mem ∧ stateOf t w = none) ∧ (Gives (.wpress sa) s fun t => same t ∧ t.mem = s.mem ∧ t.wheels = s.wheels)) ∧
        (∀ x, s.wheels.find? (fun x => x.wheel == w) = some x → x.state = .vatted → x.forced = false →
          let pressed := fun (t : State) => same t ∧ (Memory.wf s.mem = true → t.mem.readBytes w 2048 = (x.vat.foldl (applyEntry w) s.mem).readBytes w 2048)
          (Gives (.wfetch sa sb 0) s fun t => pressed t ∧ stateOf t w = some .residentS) ∧
          (Gives (.wevict sa) s fun t => pressed t ∧ stateOf t w = none) ∧ (Gives (.wpress sa) s fun t => pressed t ∧ stateOf t w = none)) ∧
        (∀ cave place off, stateOf s w = some (.residentF cave place off) →
          (Gives (.wfetch sa sb 0) s fun t => same t ∧ t.wheels = s.wheels) ∧ (Gives (.wpress sa) s fun t => same t ∧ t.wheels = s.wheels) ∧
          (Gives (.wevict sa) s fun t => t.cur.pc = s.cur.pc + 4 ∧ s.g.sameRegs t.g ∧ stateOf t w = none ∧
            (Memory.wf s.mem = true → t.mem.readBytes w 2048 = s.frameRead cave place off 2048 ∧ ∀ a, a < w ∨ w + 2048 ≤ a → t.mem.read a = s.mem.read a))) ∧
        (∀ kind, kind = 1 ∨ kind = 2 → { srcs := [rs sa, rs sb], noTx := true : Form }.runs s = true →
          (∀ e, s.frameOf kind w (s.g.readS sb) = .error (.trap e) → Traps (.wfetch sa sb kind) s e) ∧
          (∀ cave place off, s.frameOf kind w (s.g.readS sb) = .ok (cave, place, off) →
            stateOf s w = none ∨ stateOf s w = some .residentS ∨ stateOf s w = some .vatted →
            Gives (.wfetch sa sb kind) s fun t => t.cur.pc = s.cur.pc + 4 ∧ s.g.sameRegs t.g ∧ stateOf t w = some (.residentF cave place off))))))



/-! ### Transactions (R153 to R170, R314, R315) -/

/-- R153 to R156, R170, R315, Table 08-1: `tbeg.val`, `tbeg.ts` and `tord` open a region instance for the active lanes: TXST gets ACT, the way of
validation and, for `tord`, ORD with the lane's rank, and the lane's record starts empty; nothing else changes. A lane that is transactional
already raises TX_ILLEGAL. `tstat` collects one bit of TXST from every lane. Completes here: `tbeg.val`, `tbeg.ts`, `tord`, `tstat`.
Model choices that it rests on: log entry 44. -/
def Obligations.TransactionsOpen : Prop :=
  ∀ (s : State) (sa sb n : Nat), s.g.txst.length = 32 → s.g.tx.length = 32 →
    let c := s.cur
    let a := s.g.readS sa
    let retrying := maskBy fun l => (s.g.laneTx l).retry
    let opens := fun (i : Instr) (word : Nat → W32) (iter token : Nat → W64) (out : Option W64) => Gives i s fun t =>
      t.cur.pc = c.pc + 4 ∧ t.cur.exm = c.exm ∧ t.mem = s.mem ∧ t.g.v = s.g.v ∧ t.g.s = s.g.s ∧ t.g.p = s.g.p ∧ t.g.lanes = s.g.lanes ∧ t.wgs = s.wgs ∧ t.g.save = s.g.save ∧
      t.g.slab = true ∧ t.g.regionNext = s.g.regionNext + 1 ∧
      ∀ l, l < 32 → t.g.txWord l = (if laneOn c.exm l then word l else s.g.txWord l) ∧
        t.g.laneTx l = (if laneOn c.exm l then
          { region := s.g.regionNext, restart := c.runPc, abortTo := out, iter := iter l, token := token l, thresh := n, depth := c.depth, tag := c.tag, since := s.clock }
          else s.g.laneTx l)
    let before := fun l => ((lanesOf c.exm).filter fun k => decide (k < l)).length
    let is := [Instr.tbegVal sa n, .tbegTs sa n]
    let room := s.g.slab = true ∨ (s.allGroups.filter fun g => g.core == s.g.core && g.slab).length < 16
    (Form.runs { srcs := [rs sa] } s = true →
      (c.exm = 0 → ∀ i ∈ is, Ends i s s) ∧
      (c.exm ≠ 0 → s.g.txIn c.exm &&& ~~~retrying ≠ 0 → ∀ i ∈ is, Traps i s { code := codeTx }) ∧
      (c.exm ≠ 0 → s.g.txIn c.exm = 0 → sa ≠ 0 → a.toNat % 4 ≠ 0 → ∀ i ∈ is, Traps i s { code := codeMisalign, addr := a }) ∧
      (c.exm ≠ 0 → s.g.txIn c.exm = 0 → sa = 0 ∨ a.toNat % 4 = 0 → room →
        let out := if sa = 0 then none else some a
        opens (.tbegVal sa n) (fun _ => 1) (fun l => BitVec.ofNat 64 (before l)) (fun _ => 0) out ∧
        opens (.tbegTs sa n) (fun _ => 3) (fun l => BitVec.ofNat 64 (before l)) (fun _ => 0) out)) ∧
    (Form.runs { srcs := [rs sa, rs sb] } s = true →
      (c.exm = 0 → Ends (.tord sa sb n) s s) ∧
      (c.exm ≠ 0 → s.g.txIn c.exm &&& ~~~retrying ≠ 0 → Traps (.tord sa sb n) s { code := codeTx }) ∧
      (c.exm ≠ 0 → s.g.txIn c.exm = 0 → s.defer = false →
        (∀ r, s.check s.who .atomic false 8 (s.g.readS sb) = .fails r → Traps (.tord sa sb n) s { code := rowCode r, addr := s.g.readS sb, info := 2 }) ∧
        (∀ f, s.check s.who .atomic false 8 (s.g.readS sb) = .passes f → s.route f.pte (f.pa (s.g.readS sb)) = .plain → placeOf (localOf (f.pa (s.g.readS sb))) = .hbm → room →
          opens (.tord sa sb n) (fun l => 0x10003 ||| BitVec.ofNat 32 (8 * (before l % 32))) (fun l => a + BitVec.ofNat 64 (before l))
            (fun _ => BitVec.ofNat 64 (f.pa (s.g.readS sb))) none))) ∧
    (Form.runs { dsts := [rs sa] } s = true →
      let status := fun sel (f : W32 → Bool) => Ends (.tstat sa sel) s (s.putS true true sa ((maskBy fun l => f (s.g.txWord l)).setWidth 64))
      status 0 (fun x => x.getLsbD 0) ∧ status 1 (fun x => x.getLsbD 17) ∧ status 2 (fun x => !x.getLsbD 0 && x.extractLsb' 8 4 == 4#4) ∧ status 3 (fun x => x.getLsbD 2))

/-- R161, R164, R165, R170: a lane alone at the `tend` of an unordered region commits if every value its reads by value logged still stands: its
writes reach memory in log order, ACT goes and DONE is set, and it goes on. Otherwise nothing is written and it backs off with cause VALIDATE
to begin again. `tabt` leaves for the abort address, with nothing written and its code in TXST. Lanes in no transaction pass by. Completes here: `tend`, `tabt`.
Model choices that it rests on: log entry 44. -/
def Obligations.TransactionsEnd : Prop :=
  ∀ (s : State) (l code : Nat), s.defer = false → s.rrMode = 0 → s.performed s.g = true → s.wheels = [] → s.hostCopies = [] → s.g.txst.length = 32 → s.g.tx.length = 32 → l < 32 → s.fallback = none →
    s.dies.all (fun d => d.token.isNone) = true → Form.runs {} s = true →
    let x := s.g.laneTx l
    let w := s.g.txWord l
    let alone := s.exm = BitVec.ofNat 32 (2 ^ l) ∧ s.cur.live = true ∧ s.g.txLanes = s.exm ∧ w.getLsbD 2 = false ∧ w.getLsbD 16 = false ∧ x.retry = false ∧ x.atTend = false ∧ x.atTabt = false ∧ s.g.save = [] ∧ s.g.other.live = false ∧ s.g.commits = []
    let stands := x.reads.all fun e => e.kind == 0 && decide (s.mem.readNat e.pa e.size = e.data.toNat)
    let same := fun (t : State) => t.g.v = s.g.v ∧ t.g.s = s.g.s ∧ t.g.p = s.g.p ∧ t.wgs = s.wgs
    (s.g.txIn s.exm = 0 → (∀ k, k < 32 → (s.g.laneTx k).atTend = false) → Ends .tend s s ∧ Ends (.tabt code) s s) ∧
    (alone →
      (stands = true → Gives .tend s fun t => same t ∧ t.cur.pc = s.cur.pc + 4 ∧ t.cur.exm = s.exm ∧
        t.mem = x.writes.foldl (fun m e => m.writeBytes e.pa (toBytes e.size e.data.toNat)) s.mem ∧
        t.g.txWord l = (w &&& ~~~5) ||| 0x20000 ∧ (t.g.laneTx l).writes = [] ∧ (t.g.laneTx l).reads = []) ∧
      (x.reads.all (fun e => e.kind == 0) = true → stands = false → Gives .tend s fun t => same t ∧ t.mem = s.mem ∧ (t.g.txWord l).extractLsb' 8 4 = 2#4 ∧ t.g.inTx l = true ∧
        (t.g.laneTx l).retry = true ∧ (t.g.laneTx l).writes = [] ∧ t.g.save.any fun e => e.state = .parked .backoff && e.mask == s.exm && e.pc == x.restart) ∧
      (code < 256 → Gives (.tabt code) s fun t => same t ∧ t.mem = s.mem ∧ t.cur.pc = x.abortTo.getD (s.cur.pc + 4) ∧ t.cur.exm = s.exm ∧ t.g.inTx l = false ∧
        (t.g.txWord l).extractLsb' 8 4 = 4#4 ∧ (t.g.txWord l).extractLsb' 24 8 = BitVec.ofNat 8 code ∧ (t.g.laneTx l).writes = []))

/-- R157 to R160: inside a transaction by value, a store to memory that may be logged appends to the lane's write log and changes no byte of memory, and a
load that no entry of the lane's own log meets appends what memory holds to its read log. -/
def Obligations.LoggedAccesses : Prop :=
  ∀ (s : State) (vdata vaddr sbase l size : Nat) (f : Leaf), s.defer = false → s.rrMode = 0 → s.cur.hints.ord = none → s.failed = [] → s.poison = [] → s.bad = [] → s.wheels = [] → s.hostCopies = [] → s.stores = [] → s.msgs = [] → s.g.tx.length = 32 → l < 32 → s.exm = BitVec.ofNat 32 (2 ^ l) →
    (∀ c ∈ s.l1, c.stale = none) → s.g.openLanes = s.exm → (s.g.txWord l).getLsbD 1 = false → (s.g.laneTx l).reads.length < 16 → (s.g.laneTx l).writes = [] → 2 ≤ size → size ≤ 3 →
    let n := 2 ^ size
    let a := s.g.readS sbase
    let x := s.g.laneTx l
    let data := fromBytes (((List.range (elemRegs size)).flatMap fun k => toBytes 4 (s.g.lane (vdata + k) l).toNat).take n)
    (s.check s.who .store false n a = .passes f → s.route f.pte (f.pa a) = .plain → placeOf (localOf (f.pa a)) = .hbm → (mvForm false vdata vaddr sbase size 3).runs s = true →
      Gives (.vst vdata vaddr sbase size 3) s fun t => t.mem = s.mem ∧ s.g.v = t.g.v ∧ s.g.s = t.g.s ∧ t.cur.pc = s.cur.pc + 4 ∧
        (t.g.laneTx l).reads = x.reads ∧ (t.g.laneTx l).writes.map (fun e => (e.pa, e.size, e.data.toNat)) = [(f.pa a, n, data)]) ∧
    (s.check s.who .load false n a = .passes f → s.route f.pte (f.pa a) = .plain → placeOf (localOf (f.pa a)) = .hbm → (mvForm true vdata vaddr sbase size 3).runs s = true →
      Gives (.vld vdata vaddr sbase size 3) s fun t => t.mem = s.mem ∧ s.g.s = t.g.s ∧ t.cur.pc = s.cur.pc + 4 ∧ (t.g.laneTx l).writes = [] ∧
        t.g.v = (s.onTime.writeElems vdata size s.exm s.cur.hints.mods.zero [(l, s.mem.readBytes (f.pa a) n)]).g.v ∧
        ((x.reads.all fun e => decide (e.pa + e.size ≤ f.pa a) || decide (f.pa a + n ≤ e.pa)) = true →
          (t.g.laneTx l).reads.map (fun e => (e.kind, e.pa, e.size, e.data.toNat)) = x.reads.map (fun e => (e.kind, e.pa, e.size, e.data.toNat)) ++ [(0, f.pa a, n, s.mem.readNat (f.pa a) n)]))

/-! ### Engines, guards, and lanes that move (R221 to R223, R331 to R344) -/

/-- R221, R222, R331 to R335, R340 to R342: a posting form whose words, status place, footprints and guard pass their checks, in this order, hands the
core a card that holds them, with an edge from every held card whose footprint conflicts with it, and answers the card's handle (Table 18-5);
with 64 cards held it waits. A card without edges enters the queue at once; with nothing deferred the engine's own work follows in the same step. A
card releases at scope `wg` (R144). Completes here: `ecopy`, `ecmd`, `rrot`, `ecoll`.
Model choices that it rests on: log entry 46. -/
def Obligations.PostingForms : Prop :=
  ∀ (s : State) (sa sn k : Nat) (guard : Bool), s.performedAt 1 s.g = true → s.g.lateFault = none → ∀ core, s.cores[s.g.core]? = some core → (∀ c ∈ core.cards, c.state ≠ .waiting ∨ c.edges ≠ []) →
    let e := core.guards.getD k {}
    let unbound := guard = true ∧ (e.state = .free ∨ e.wg ≠ s.g.wg)
    let w := fun j => s.g.readS (sn + j)
    let posts := fun (i : Instr) (c : Card) (again : Workgroup → Workgroup) =>
      let seq := core.cardNext
      let cslot := ((List.range 64).find? fun n => !(core.cards.any fun d => d.cslot == n)).getD 0
      let edges := (core.cards.filter fun d => s.edge c d).map fun d => d.seq
      let c := { c with seq := seq, cslot := cslot, guard := if guard then some k else none, edges := edges, state := if edges = [] then .ready else .waiting }
      let handle := BitVec.ofNat 64 (c.seq * 2 ^ 32 + c.stat / 8 * 2 ^ 12 + c.cslot)
      (unbound → Traps i s { code := codeGuard, addr := BitVec.ofNat 64 k }) ∧
      (¬unbound → 64 ≤ core.cards.length → Gives i s fun t => t.cur.pc = s.cur.pc ∧ t.cur.wait = some .engineWait ∧ t.cores = s.cores ∧ t.still = s.still) ∧
      (¬unbound → core.cards.length < 64 → Gives i s fun t => s.defer = true →
        t.cur.pc = s.cur.pc + 4 ∧ t.mem = s.mem ∧ t.g.v = s.g.v ∧ t.g.p = s.g.p ∧ t.g.s = s.g.s ∧ t.wgs = modifyFirst (fun x => x.key == s.g.wg) again s.wgs ∧
        t.g.inflight.getLast? = some { mem := true, reg := rs sa, mask := BitVec.allOnes 32, val := .word handle } ∧
        t.cores[s.g.core]? = some { core with cards := core.cards ++ [c], cardNext := if seq + 1 = 2 ^ 32 then 1 else seq + 1, queue := core.queue ++ (if edges = [] then [seq] else []) })
    let stands := fun (i : Instr) (c : Card) again => (∀ t, s.checkCard c = .error (.trap t) → Traps i s t) ∧ (s.checkCard c = .ok () → posts i c again)
    let blank := fun (stat : Nat) (kind : CardKind) =>
      ({ seq := 0, cslot := 0, kind := kind, wg := s.g.wg, gidx := s.g.gidx, launch := s.g.launch, asid := s.g.asid, root := s.g.root, sup := s.g.sup, stat := stat, slot := s.g.slot,
         inB := s.g.inB, pc := s.cur.runPc, mask := s.exm } : Card)
    let job := fun (dst src ctl idx : W64) => { blank (8 * (ctl.extractLsb' 20 17).toNat) .job with dst := dst, src := src, ctl := ctl, idx := idx }
    let reads := fun (f : List RegName) => { srcs := f, dsts := [rs sa], noTx := true : Form }.runs s = true
    let at_ := (s.g.readS sn).toNat
    let here := fun o => BitVec.ofNat 64 (fromBytes (s.chipRead .scratch (at_ + o) 8))
    (reads ((List.range 4).map fun j => rs (sn + j)) →
      let c := job (w 0) (w 1) (w 2) (w 3)
      (c.badWords = true → Traps (.ecopy sa sn guard k) s { code := codeFmt }) ∧
      (c.badWords = false → stands (.ecopy sa sn guard k) { c with foot := derivedFoot c } id)) ∧
    (reads [rs sn] →
      let c := job (here 0) (here 8) (here 16) (here 24)
      (at_ % 16 ≠ 0 → Traps (.ecmd sa sn guard k) s { code := codeMisalign, addr := s.g.readS sn }) ∧
      (at_ % 16 = 0 → s.extent .scratch < at_ + 128 → Traps (.ecmd sa sn guard k) s { code := codeSpad, addr := s.g.readS sn }) ∧
      (at_ % 16 = 0 → at_ + 128 ≤ s.extent .scratch → s.bad = [] → s.chipBusy .load .scratch 128 [at_] = false →
        let foot := (List.range 6).map fun f =>
          let x := here (0x28 + 16 * f)
          ({ space := (x.extractLsb' 32 2).toNat, base := (here (0x20 + 16 * f)).toNat, extent := (x.extractLsb' 0 32).toNat, write := decide (4 ≤ f) } : Footprint)
        let bad := c.badWords || (List.range 6).any fun f => (here (0x28 + 16 * f)).extractLsb' 34 30 != 0
        (bad = true → Traps (.ecmd sa sn guard k) s { code := codeFmt }) ∧
        (bad = false → stands (.ecmd sa sn guard k) { c with foot := foot, declared := true } id))) ∧
    (∀ e, s.party = .error (.trap e) → (reads [rs sn] → Traps (.rrot sa sn guard k) s e) ∧
      (sn % 2 = 0 → reads [rs sn, rs (sn + 1)] → Traps (.ecoll sa sn guard k) s e)) ∧
    (∀ p, s.party = .ok p →
      (reads [rs sn] →
        let x := w 0
        let len := 512 * (x.extractLsb' 32 11).toNat
        let c := { blank (8 * (x.extractLsb' 43 17).toNat) (.rotate p.rotations) with src := x, foot := [
          { space := 1, base := 16 * (x.extractLsb' 0 16).toNat, extent := len, write := false }, { space := 1, base := 16 * (x.extractLsb' 16 16).toNat, extent := len, write := true }] }
        (x.extractLsb' 60 4 ≠ 0 → Traps (.rrot sa sn guard k) s { code := codeFmt }) ∧
        (x.extractLsb' 60 4 = 0 → stands (.rrot sa sn guard k) c fun w => { w with rotations := w.rotations + 1 })) ∧
      (sn % 2 = 0 → reads [rs sn, rs (sn + 1)] →
        let x := w 0
        let y := w 1
        let op := (y.extractLsb' 0 3).toNat
        let len := 16 * (x.extractLsb' 32 16).toNat
        let c := { blank (8 * (y.extractLsb' 8 17).toNat) (.collective p.collectives) with src := x, dst := y, foot := [
          { space := 1, base := 16 * (x.extractLsb' 0 16).toNat, extent := len, write := false },
          { space := 1, base := 16 * (x.extractLsb' 16 16).toNat, extent := if op = 3 then 4 * len else len, write := true }] }
        let bad := x.extractLsb' 48 16 ≠ 0 ∨ y.extractLsb' 25 39 ≠ 0 ∨ y.extractLsb' 5 3 ≠ 0 ∨ 4 ≤ op
        (bad → Traps (.ecoll sa sn guard k) s { code := codeFmt }) ∧
        (¬bad → stands (.ecoll sa sn guard k) c fun w => { w with collectives := w.collectives + 1 })))

/-- R337 to R339, R348, Table 11-5: `ewait` answers the status word of a card that has ended, or for handle 0 whether a matrix request failed; `eyield`
goes on, or parks on what is held; `eguard` takes a free guard slot and `gres` resolves a pending one of its workgroup, which is free again
at once when no card is bound to it. Any other guard state raises GUARD_STATE. Completes here: `ewait`, `eyield`, `eguard`, `gres`.
Model choices that it rests on: log entries 47 and 48. -/
def Obligations.WaitsAndGuards : Prop :=
  ∀ (s : State) (sa sb k : Nat), ∀ core, s.cores[s.g.core]? = some core → k < core.guards.length →
    let h := s.g.readS sb
    let find := fun (h : W64) => core.cards.find? fun c => c.cslot == (h.extractLsb' 0 6).toNat && c.seq == (h.extractLsb' 32 32).toNat
    let reqs := (s.cluster (s.g.core / 4)).resv.filter fun r => r.wg == s.g.wg && r.gidx == s.g.gidx
    let waits := fun (t : State) => t.cur.pc = s.cur.pc ∧ t.g.v = s.g.v ∧ t.g.s = s.g.s ∧ t.g.p = s.g.p ∧ t.mem = s.mem ∧ t.cores = s.cores
    let off := 8 * (h.extractLsb' 12 17).toNat
    ({ srcs := [rs sb], dsts := [rs sa], noTx := true : Form }.runs s = true →
      (h = 0 → reqs = [] →
        let u := { s with g := { s.g with matWait := s.g.matWait.filter fun x => x.1 != s.g.inB } }
        let bound := ((s.g.matWait.find? fun x => x.1 == s.g.inB).map fun x => x.2).getD s.nextId
        Ends (.ewait sa sb) s (u.putS true true sa (if s.g.matFailed.any fun id => decide (id < bound) then 1 else 0))) ∧
      (h = 0 → reqs ≠ [] → s.g.matWait = [] → (∀ r ∈ reqs, r.id < s.nextId) → Gives (.ewait sa sb) s waits) ∧
      (h ≠ 0 → (find h).isSome = true → Gives (.ewait sa sb) s waits) ∧
      (h ≠ 0 → find h = none → s.extent .scratch < off + 8 → Traps (.ewait sa sb) s { code := codeSpad, addr := BitVec.ofNat 64 off }) ∧
      (h ≠ 0 → find h = none → off + 8 ≤ s.extent .scratch → s.bad = [] → s.chipBusy .load .scratch 8 [off] = false →
        Ends (.ewait sa sb) s (s.putS true true sa (BitVec.ofNat 64 (fromBytes (s.chipRead .scratch off 8)))))) ∧
    ({ srcs := [rs sa, rs sb], noTx := true : Form }.runs s = true →
      let i := Instr.eyield sa sb
      let x := s.g.readS sa
      let held := if x = 0 then reqs ≠ [] else (find x).isSome = true
      (h.toNat % 4 ≠ 0 → Traps i s { code := codeMisalign, addr := h }) ∧
      (h.toNat % 4 = 0 → ¬held → Goes i s h s) ∧
      (h.toNat % 4 = 0 → held → 64 ≤ s.g.save.length → Traps i s { code := codeDivstack }) ∧
      (h.toNat % 4 = 0 → held → s.g.save.length < 64 → Gives i s fun t => t.mem = s.mem ∧ t.g.v = s.g.v ∧ t.g.s = s.g.s ∧
        t.g.save.any fun e => e.state != .ready && e.pc == h && e.mask == s.exm && e.maddr == BitVec.ofNat 64 (2 ^ 62 + 64 * (x.extractLsb' 32 32).toNat + (x.extractLsb' 0 6).toNat))) ∧
    ({ noTx := true : Form }.runs s = true →
      let e := core.guards.getD k {}
      (e.state ≠ .free → Traps (.eguard k) s { code := codeGuard, addr := BitVec.ofNat 64 k }) ∧
      (e.state = .free → Gives (.eguard k) s fun _ => True) ∧
      (e.state = .free → s.defer = true → Ends (.eguard k) s (s.updCore s.g.core fun c => { c with guards := c.guards.set k { state := .pending, wg := s.g.wg } }))) ∧
    ({ srcs := [rs sa], noTx := true : Form }.runs s = true →
      let e := core.guards.getD k {}
      let mine := e.state = .pending ∧ e.wg = s.g.wg
      let new := { e with state := if s.g.readS sa ≠ 0 then .isTrue else .isFalse }
      (¬mine → Traps (.gres sa k) s { code := codeGuard, addr := BitVec.ofNat 64 k }) ∧
      (mine → Gives (.gres sa k) s fun _ => True) ∧
      (mine → s.defer = true → Ends (.gres sa k) s (s.updCore s.g.core fun c => { c with guards := c.guards.set k (if core.cards.any fun d => d.guard == some k then new else {}) })))

/-- R343: `rebal` gives lane i the item sa + i of a list of rows: its row, its place in it and, with `.p`, every row's first item; lanes beyond the
total are detached. R209, R344: with every thread of the workgroup's only group at the `resort`, the live registers, the work identifiers and
TXST move so that the threads stand in the order of their keys, equal keys as they stood; the group goes on with its lanes packed. Completes here:
`rebal`, `resort`.
Model choices that it rests on: log entry 33. -/
def Obligations.LanesMove : Prop :=
  ∀ (s : State) (sa sb vs vk : Nat) (ptrs : Bool),
    (∀ e, s.cur.hints.ext = some e →
     let x := fun r => if laneOn s.exm r then (s.g.lane vs r).toNat else 0
     let ptr := fun r => ((List.range r).map x).sum
     let total := ptr 32
     let item := fun i => (s.g.readS sa).toNat + i
     let keep := s.exm &&& maskBy fun i => decide (item i < total)
     let row := fun i => ((List.range 32).find? fun r => decide (ptr r ≤ item i) && decide (item i < ptr r + x r)).getD 0
     let zero := fun (u : State) v => if s.cur.hints.mods.zero then u.putV true true v (~~~s.exm) false fun _ => 0 else u
     let i := Instr.rebal sa sb ptrs vs
     { srcs := [rv vs, rs sa], dsts := [rv e.reg, rv (e.reg + 1)] ++ (if ptrs then [rv (e.reg + 2)] else []) ++ [rs sb], z := true, ext := [0], extNeeded := true, extDst := true, noTx := true : Form }.runs s = true →
     e.sel = 0 → e.reg % (if ptrs then 4 else 2) = 0 →
     (s.exm = 0 → Ends i s (s.putS true true sb 0)) ∧
     (s.exm ≠ 0 →
       let u := (zero s e.reg).putV true true e.reg keep false fun i => BitVec.ofNat 32 (row i)
       let u := (zero u (e.reg + 1)).putV true true (e.reg + 1) keep false fun i => BitVec.ofNat 32 (item i - ptr (row i))
       let u := if ptrs then (zero u (e.reg + 2)).putV true true (e.reg + 2) s.exm false fun i => BitVec.ofNat 32 (ptr i) else u
       let u := u.putS true true sb (BitVec.ofNat 64 total)
       Ends i s (u.setCur { u.cur with exm := keep }))) ∧
    ({ srcs := [rv vk, rs sa, rs (sa + 1)], noTx := true : Form }.runs s = true → sa % 2 = 0 → s.groups.all (fun g => g.wg != s.g.wg) = true → s.g.launch ≠ 0 → s.g.slot < 64 →
     s.g.status = .running → s.g.save = [] → s.g.other.live = false → s.exm = s.g.lanes → s.exm ≠ 0 → s.g.gidx = 0 → s.g.core < 128 → s.g.early = [] → s.g.inflight = [] →
     let order := sortByKey (fun l => (s.g.lane vk l).toNat) (lanesOf s.exm)
     let live := fun k => if k < 64 then (s.g.readS sa).getLsbD k else (s.g.readS (sa + 1)).getLsbD (k - 64)
     Gives (.resort sa vk) s fun t => t.mem = s.mem ∧ t.g.s = s.g.s ∧ t.g.p = s.g.p ∧ t.g.a.live = true ∧ t.g.b.live = false ∧ t.g.save = [] ∧ t.g.a.pc = s.cur.pc + 4 ∧
       t.g.a.exm = maskBy (fun l => decide (l < order.length)) ∧ t.g.lanes = t.g.a.exm ∧
       (∀ j, j < s.g.v.length → ∀ l, l < 32 → t.g.lane j l = if live j ∧ l < order.length then s.g.lane j (order.getD l 0) else s.g.lane j l) ∧
       (∀ l, l < order.length → t.g.wid.getD l 0 = s.g.wid.getD (order.getD l 0) 0 ∧ t.g.txWord l = s.g.txWord (order.getD l 0)))

/-! ### Tile registers and matrix requests (R219, R220, R317 to R330, R345 to R348) -/

/-- R345: `tdesc` writes and reads tile and accumulator registers. R219, R346 to R348: a matrix request whose accumulator handle, descriptors, planes and
stamp address pass their checks, in this order, takes an entry of the cluster's reservation table, which keeps all it needs; without a free
entry it waits, as it does while a walk of its stamp's page is to come back; an `mloop` of no steps retires at once. No register and no memory changes.
Said of deferred steps: the passes come after. R348: the pass of `mput` writes the rows of the memory tile into the accumulator tile, that of `mget` the
tile's elements as they are into the rows, and that of `mstore` their values rounded to the format, block-scaled ones by R40; nothing else changes.
Completes here: the four forms of `tdesc`, `mwld`, `mloop`, `mzero`, `mget`, `mput`, `mstore`.
Model choices that it rests on: log entries 32 and 49. -/
def Obligations.TilesAndRequests : Prop :=
  ∀ (s : State) (sa sb sub a b acc : Nat), s.cur.live = true → s.g.early = [] →
    let g := s.g
    (({ srcs := [rs sa, rs sb], dsts := [rt a], noTx := true : Form }.runs s = true →
      Ends (.tdescTWrite sa sb a) s { s with g := { g with t := g.t.set a (g.readS sb ++ g.readS sa) } }) ∧
     ({ srcs := [rt a], dsts := [rs sa, rs sb], noTx := true : Form }.runs s = true →
      let d := g.t.getD a 0
      Ends (.tdescTRead sa sb a) s ((s.putS true true sa (d.extractLsb' 0 64)).putS true true sb (d.extractLsb' 64 64))) ∧
     ({ srcs := [rs sa], dsts := [ra acc], noTx := true : Form }.runs s = true →
      Ends (.tdescAWrite sa acc) s { s with g := { g with ac := g.ac.set acc (((g.readS sa).extractLsb' 0 6).setWidth 64) } }) ∧
     ({ srcs := [ra acc], dsts := [rs sa], noTx := true : Form }.runs s = true → Ends (.tdescARead sa acc) s (s.putS true true sa (g.ac.getD acc 0)))) ∧
    (s.defer = true → s.clusters.all (fun c => c.sg.isEmpty && c.xbar.isEmpty) = true → (∀ w ∈ s.wheels, w.state ≠ .pressing) → ∀ c, s.clusters[g.core / 4]? = some c →
      let held := fun k => (c.resv.filter fun r => r.core == k).length
      let room := held g.core < 4 ∨ (((List.range 4).map fun k => held (4 * (g.core / 4) + k) - 4).sum < 16)
      let stamped := fun (i : Instr) (k : Option (W64 × Nat) → Prop) =>
        (sa = 0 → k none) ∧
        (sa ≠ 0 → preChecks 64 (g.readS sa) = true → s.missing g.core g.slot g.inB g.asid .store [g.readS sa] ≠ [] →
          Gives i s fun t => t.cur.pc = s.cur.pc ∧ t.cur.wait = some .memDep ∧ t.mem = s.mem ∧ g.sameRegs t.g ∧ t.clusters = s.clusters) ∧
        (sa ≠ 0 → (preChecks 64 (g.readS sa) = true → s.missing g.core g.slot g.inB g.asid .store [g.readS sa] = []) → (∀ r, s.check s.who .store false 64 (g.readS sa) = .fails r → Traps i s { code := rowCode r, addr := g.readS sa, info := 1 }) ∧
          ∀ f, s.check s.who .store false 64 (g.readS sa) = .passes f → k (some (f.pte, f.pa (g.readS sa))))
      let takes := fun (i : Instr) (r : MatReq) (st : Option (W64 × Nat)) =>
        let r := { r with id := s.nextId, core := g.core, wg := g.wg, gidx := g.gidx, slot := g.slot, pc := s.cur.pc, launch := g.launch, prio := g.prio, accepted := s.clock, tacc := s.tstamp, stamp := st, stampVa := if sa = 0 then 0 else g.readS sa, asid := g.asid, root := g.root, sup := g.sup }
        (room → r.steps ≠ 0 → Gives i s fun t => t.cur.pc = s.cur.pc + 4 ∧ t.mem = s.mem ∧ t.wgs = s.wgs ∧ g.sameRegs t.g ∧ t.clusters[g.core / 4]? = some { c with resv := c.resv ++ [r] }) ∧
        (room → r.steps = 0 → st = none → Gives i s fun t => t.cur.pc = s.cur.pc + 4 ∧ t.mem = s.mem ∧ t.wgs = s.wgs ∧ t.g.v = g.v ∧ t.g.s = g.s) ∧
        (¬room → Gives i s fun t => t.cur.pc = s.cur.pc ∧ t.cur.wait = some .matrixResv ∧ t.mem = s.mem ∧ g.sameRegs t.g ∧ t.clusters = s.clusters)
      let asks := fun (i : Instr) (good : Bool) (rs : List Region) (r : MatReq) =>
        (good = false → Traps i s { code := codeFmt }) ∧
        (good = true → (∀ t, s.checkRegions rs = .error (.trap t) → Traps i s t) ∧ (s.checkRegions rs = .ok () →
          stamped i fun st => (r.fn = 22 ∨ r.fn = 24 ∨ r.fn = 26 ∨ c.poisoned.elem r.tile = false) → takes i r st))
      let onTile := fun (i : Instr) acc (k : Nat → Prop) =>
        let h := g.ac.getD acc 0
        let n := (h.extractLsb' 0 5).toNat
        let owned := h.getLsbD 5 = true ∧ (s.ctl.tilemask.getD (g.core / 4) 0).getLsbD n = true
        (¬owned → Traps i s { code := codeSpad }) ∧ (owned → k n)
      let req := fun fn tile => ({ id := 0, core := 0, wg := 0, gidx := 0, slot := 0, pc := 0, launch := 0, prio := 0, fn := fn, sub := sub, tile := tile } : MatReq)
      let da : Desc := g.t.getD a 0
      let db : Desc := g.t.getD b 0
      let fa := matFmt da.fmt (g.fmtFor da)
      let fb := matFmt db.fmt (g.fmtFor db)
      let plain := fun (d : Desc) most => d.kind = 0 ∧ d.space ≤ 1 ∧ d.bmp ≤ 1 ∧ d.vecs ≤ most ∧ d.stride % 16 = 0 ∧ d.inc % 16 = 0
      let memory := plain db 128 ∧ db.bmp = 0 ∧ db.len ≤ 384
      let f := fb.getD { num := fp32 }
      let form := fun (f : Form) => { f with noTx := true : Form }.runs s = true
      (form { srcs := [rs sa, ra acc] } → onTile (.mzero sa sub acc) acc fun n => stamped (.mzero sa sub acc) (takes (.mzero sa sub acc) (req 24 n))) ∧
      (form { srcs := [rs sa, rt b] } → asks (.mwld sa sub b) (fb.isSome && decide (plain db 384 ∧ db.len ≤ (stepClass f.num.width).2)) (db.regions f 0) { req 22 0 with tb := db, db := g.fmtFor db }) ∧
      (form { srcs := [rs sa, rt b, ra acc] } →
        let bytes := (db.vecs - 1) * db.stride + 4 * db.len
        let rs : List Region := [{ space := db.space, off := db.base, len := bytes }]
        onTile (.mget sa sub b acc) acc (fun n => asks (.mget sa sub b acc) (decide (memory ∧ db.fmt = 0)) rs { req 25 n with tb := db }) ∧
        onTile (.mput sa sub b acc) acc (fun n => asks (.mput sa sub b acc) (decide (memory ∧ db.fmt = 0)) rs { req 26 n with tb := db })) ∧
      (form { srcs := [rs sa, rt b, ra acc], rnd := true, sat := true } →
        let m := s.cur.hints.mods
        onTile (.mstore sa sub b acc) acc fun n => asks (.mstore sa sub b acc) (fb.isSome && decide (memory ∧ (db.fmt < 16 ∨ m.sat = false))) (db.memRegions f)
          { req 27 n with tb := db, db := g.fmtFor db, mode := m.mode, sat := m.sat }) ∧
      (∀ e, s.cur.hints.ext = some e → form { srcs := [rs sa, rs sb, rt a, rt b], ext := [4], extNeeded := true } →
        let steps := ((g.readS sb).extractLsb' 0 16).toNat
        let fa' := fa.getD { num := fp32 }
        onTile (.mloop sa sb sub a b) e.reg fun n => asks (.mloop sa sb sub a b) (fa.isSome && fb.isSome && loopOk da db fa' f)
          (if steps = 0 then [] else da.regions fa' 0 ++ db.regions f 0 ++ (da.regions fa' (steps - 1) ++ db.regions f (steps - 1)))
          { req 23 n with ta := da, tb := db, da := g.fmtFor da, db := g.fmtFor db, steps := steps })) ∧
    (∀ (r : MatReq) (cluster m n b i : Nat), s.defer = false → cluster < s.clusters.length →
      let d : Desc := r.tb
      (if d.space = 0 then (s.wgAt r.wg).isSome else ((s.wgAt r.wg).bind s.instOf).isSome) = true →
      let u := (s.pass cluster r).1
      let ts := (s.cluster cluster).tiles
      let elem := fun m n => (tileRead ts (tileIndex r.tile m n)).toNat
      let cells := s.matCells r.wg d.space
      let now := u.matCells r.wg d.space
      let row := fun m => d.base + m * d.stride
      let f := r.fb
      let num := f.num.withSat r.sat
      let part := fun (x k w : Nat) => x / 2 ^ (k * f.bits) % 2 ^ w
      let kept := fun (runs : List (Nat × Nat)) => ∀ a, (∀ x ∈ runs, a < x.1 ∨ x.1 + x.2 ≤ a) → now.read a = cells.read a
      let rows := fun len => (List.range d.vecs).map fun k => (row k, len)
      (ts.map fun x => x.1).Pairwise (· < ·) → d.vecs ≤ 128 → d.len ≤ 384 → Memory.wf cells = true →
      (r.fn = 26 → m < 128 → n < 384 → u.wgs = s.wgs ∧ u.insts = s.insts ∧ ∀ k, tileRead (u.cluster cluster).tiles (tileIndex k m n) =
        if k = r.tile ∧ m < d.vecs ∧ n < d.len then BitVec.ofNat 32 (cells.readNat (row m + 4 * n) 4) else tileRead ts (tileIndex k m n)) ∧
      (r.fn = 25 → d.vecs = 1 ∨ 4 * d.len ≤ d.stride → kept (rows (4 * d.len)) ∧ (m < d.vecs → n < d.len → now.readNat (row m + 4 * n) 4 = elem m n)) ∧
      (r.fn = 27 → f.bs = false → d.vecs = 1 ∨ rowBytes f d.len ≤ d.stride →
        kept (rows (rowBytes f d.len)) ∧ (m < d.vecs → n < d.len →
          part (now.readNat (row m) (rowBytes f d.len)) n f.bits = roundFmt (decodeFmt (elem m n) fp32) num r.mode % 2 ^ f.num.width)) ∧
      (r.fn = 27 → f.bs = true → let wide := d.blocks * rowBytes f 16
        let planes := d.vecs * d.blocks * f.scaleBytes
        d.vecs = 1 ∨ wide ≤ d.stride → (∀ k, k < d.vecs → row k + wide ≤ d.aux ∨ d.aux + planes ≤ row k) →
        kept (rows wide ++ [(d.aux, planes)]) ∧ (m < d.vecs → b < d.blocks → i < 16 →
          let q := blockScale ((List.range 16).map fun k => decodeFmt (if 16 * b + k < d.len then elem m (16 * b + k) else 0) fp32) num f.me r.mode
          let at_ := d.aux + (m * d.blocks + b) * f.scaleBytes
          now.readNat at_ 1 = q.x % 256 ∧ (f.me = true → now.readNat (at_ + 1) 1 = (q.mu.zipIdx.map fun x => x.1 * 2 ^ x.2).sum % 256) ∧
          part (now.readNat (row m + b * rowBytes f 16) (rowBytes f 16)) i f.bits = q.codes.getD i 0 % 2 ^ f.num.width)))

/-- R325: a step adds to each element of its tile the rounded sum of the products of each panel of 16, panels in ascending order; a panel without
products, or whose sum is zero, adds nothing; elements outside the step's rows and columns stay. R220, R325 to R330, R347, R348: a grant gives a
free sub-array to the winner and performs its pass, which ends no earlier than 64 clocks later; the end of a pass frees the sub-array, and
the last one retires the request, or writes its stamp record, and the request retires once that is performed. With steps deferred, a pass
that stores a tile writes some of its bytes at the grant and the others at its end (log entry 51). Completes here: `subarrayGrant`, `matrixPassDone`.
Model choices that it rests on: log entries 50, 51 and 79. -/
def Obligations.MatrixPasses : Prop :=
  (∀ (ts : List (Nat × W32)) (tile m n : Nat) (a b : List MVec), (ts.map fun x => x.1).Pairwise (· < ·) → a.length ≤ 128 → b.length ≤ 384 → m < 128 → n < 384 →
    let after := accumulate ts tile a b
    tileRead after (tileIndex tile m n) =
      (if m < a.length ∧ n < b.length then
        ((panelsOf (a.getD m [])).zip (panelsOf (b.getD n []))).foldl (fun t p =>
          let xs := (p.1.zip p.2).filterMap fun q => q.1.bind fun u => q.2.map fun w => u.mul w
          let x := sumTerms false xs
          if xs = [] ∨ x.isZero = true then t
          else BitVec.ofNat 32 (roundFmt (sumTerms false [decodeFmt t.toNat fp32, decodeFmt (roundFmt x fp32 0) fp32]) fp32 0)) (tileRead ts (tileIndex tile m n))
      else tileRead ts (tileIndex tile m n)) ∧
    (∀ k, k ≠ tile → tileRead after (tileIndex k m n) = tileRead ts (tileIndex k m n))) ∧
  (∀ (s : State) (cluster sub m n : Nat), m < 128 → n < 384 → ∀ c, s.clusters[cluster]? = some c → ∀ x, c.subs[sub]? = some x →
    (x.busy.isSome = true → exec (.subarrayGrant cluster sub) s = .next s) ∧
    (x.busy = none → s.winner cluster sub = none → exec (.subarrayGrant cluster sub) s = .next s) ∧
    (x.busy = none → ∀ r, s.winner cluster sub = some r → r.sub = sub → c.resv.all (fun q => decide (q.id = r.id → q = r)) = true → r ∈ c.resv →
      Gives (.subarrayGrant cluster sub) s fun t => t.g = s.g ∧ t.mem = s.mem ∧
        ((t.cluster cluster).subs.getD sub {}).busy = some r.id ∧
        (((t.cluster cluster).resv.find? fun q => q.id == r.id).any fun q => q.granted && decide (s.clock + 64 ≤ q.due)) = true ∧
        (r.fn = 24 → tileRead (t.cluster cluster).tiles (tileIndex r.tile m n) = 0) ∧
        (r.fn = 23 → (t.cluster cluster).tiles =
          accumulate c.tiles r.tile (aVecs (s.matCells r.wg (Desc.space r.ta)) r.ta r.fa r.done (Desc.len r.tb)) ((s.latching cluster { r with mix := s.free }).1.front.getD (s.blockOf r r.done)).vecs) ∧
        (r.fn ≠ 23 → r.fn ≠ 24 → r.fn ≠ 26 → (t.cluster cluster).tiles = c.tiles) ∧ (r.fn = 22 ∨ r.fn = 23 ∨ r.fn = 24 ∨ r.fn = 26 → t.wgs = s.wgs) ∧
        (let p := (s.pass cluster { r with mix := s.free }).1
         t.wgs = p.wgs ∧ t.insts = p.insts ∧ (t.cluster cluster).tiles = (p.cluster cluster).tiles)) ∧
    (∀ id, x.busy = some id → ∀ r, c.resv.find? (fun q => q.id == id) = some r → r.granted = true → r.sub = sub → r.due ≤ s.clock → r.stamp = none →
      Gives (.matrixPassDone cluster sub) s fun t => t.mem = s.mem ∧ (t.wgs = if s.defer && (r.fn == 25 || r.fn == 27) then (s.storeTile cluster r fun k => !r.early k).wgs else s.wgs) ∧
        t.g.v = s.g.v ∧ t.g.s = s.g.s ∧ ((t.cluster cluster).subs.getD sub {}).busy = none ∧ (t.cluster cluster).tiles = c.tiles ∧
        (r.done + 1 < r.steps → r.status ≠ 1 →
          (t.cluster cluster).resv = c.resv.map fun q => if q.id == id then { r with granted := false, done := r.done + 1 } else q) ∧
        (r.steps ≤ r.done + 1 ∨ r.status = 1 → (t.cluster cluster).resv = c.resv.filter fun q => q.id != id)) ∧
    ((c.resv.all fun q => !(q.granted && q.sub == sub && decide (q.due ≤ s.clock))) = true → ∀ r, c.resv.find? (fun q => q.sub == sub && q.ended && !s.engineWaits q.core) = some r →
      Gives (.matrixPassDone cluster sub) s fun t => t.mem = s.mem ∧ t.wgs = s.wgs ∧ t.g.v = s.g.v ∧ t.g.s = s.g.s ∧
        (t.cluster cluster).resv = c.resv.filter fun q => q.id != r.id))

/-! ### Supervisor forms (R61, R62, R211, R350 to R352, R372) -/

/-- R61, R62, R211, R349 to R352, R372: `tlbi` clears the page-walk caches and the entries that its kind selects, and the translations held for stamp records are made again; `ctxsv` writes a stopped group's
context and `ctxld` reads one back; `sysc` puts a line of mail into a die's ring, or waits while it is full; `dump` freezes the cores of its mask
until the later of two limits. All are supervisor-only. Completes here: `tlbi`, `ctxsv`, `ctxld`, `sysc`, `dump`.
Model choices that it rests on: log entries 30, 31 and 80. -/
def Obligations.SupervisorForms : Prop :=
  (∀ (s : State) (sa sb kind cls : Nat), s.g.sup = false →
    ∀ i ∈ [Instr.rfe, .tlbi sa sb kind, .ctxsv sa sb, .ctxld sa sb, .sysc sa sb cls, .dump sa sb, .spawn sa sb true], Traps i s { code := codeIIN }) ∧
  (∀ (s : State) (sa sb kind cls : Nat), s.calm = true → s.performed s.g = true → s.g.lateFault = none → (∀ c ∈ s.l1, c.stale = none) →
    (∀ w ∈ s.wheels, w.bad = []) → s.modAcks = [] → (∀ g ∈ s.groups, g.at_ s.g.core s.g.slot = false) →
    let a := s.g.readS sa
    let b := s.g.readS sb
    ({ srcs := [rs sa, rs sb], sup := true : Form }.runs s = true →
      (kind < 4 →
        let asid := (b.extractLsb' 0 12).toNat
        let va := (a.extractLsb' 0 57).toNat
        let page := fun (e : TlbEntry) => e.base == va / pageSize e.level * pageSize e.level
        let global := fun (e : TlbEntry) => e.pte.getLsbD 6
        let gone := fun e => if kind = 0 then !global e && e.asid == asid else if kind = 1 then (global e || e.asid == asid) && page e else if kind = 2 then !global e else true
        Ends (.tlbi sa sb kind) s ({ s with tlbs := s.tlbs.filter fun e => !gone e, walkCache := [] } : State).restamp) ∧
      (let slot := (b.extractLsb' 0 6).toNat
       let stopped := fun (g : Group) => g.status = .stopped ∨ g.status = .held
       (a.toNat % 64 ≠ 0 → Traps (.ctxsv sa sb) s { code := codeMisalign, addr := a, info := 1 } ∧ Traps (.ctxld sa sb) s { code := codeMisalign, addr := a }) ∧
       (a.toNat % 64 = 0 → (∀ g, s.groupAt s.g.core slot = some g → ¬stopped g) → Ends (.ctxsv sa sb) s s ∧ Ends (.ctxld sa sb) s s) ∧
       (a.toNat % 64 = 0 → ∀ g, s.groupAt s.g.core slot = some g → stopped g → a.toNat % 65536 + g.imageSize ≤ 65536 →
         (∀ r, s.check s.who .store false 1 a = .fails r → Traps (.ctxsv sa sb) s { code := rowCode r, addr := a, info := 1 }) ∧
         (∀ f, s.check s.who .store false 1 a = .passes f → (∀ x, x < g.imageSize → s.route f.pte (f.pa a + x) = .plain) → g.imageSize = g.image.length →
           canonical g.dsave = false → s.wheels = [] → Gives (.ctxsv sa sb) s fun t => t.cur.pc = s.cur.pc + 4 ∧ t.mem = s.mem.writeBytes (f.pa a) g.image ∧ t.wgs = s.wgs ∧ s.g.sameRegs t.g) ∧
         (∀ r, s.check s.who .load false 1 a = .fails r → Traps (.ctxld sa sb) s { code := rowCode r, addr := a }) ∧
         (∀ ps, s.area s.who .store a g.imageSize = .ok ps → Gives (.ctxsv sa sb) s fun t => t.cur.pc = s.cur.pc + 4 ∧ t.g.v = s.g.v ∧ t.g.s = s.g.s) ∧
         (∀ f, s.check s.who .load false 1 a = .passes f → (∀ x, x < g.imageSize → s.route f.pte (f.pa a + x) = .plain) → s.wheels = [] → g.slot ≠ s.g.slot →
           Gives (.ctxld sa sb) s fun t => t.cur.pc = s.cur.pc + 4 ∧ t.mem = s.mem ∧ t.wgs = s.wgs ∧
             t.groupAt s.g.core slot = some (Group.loadImage s.clock (s.mem.readBytes (f.pa a) g.imageSize) g)))) ∧
      (let die := (b.extractLsb' 9 2).toNat
       let cave := fun off => s.module * 2 ^ 43 + 0x68000000000 + die * 0x2000000 + off
       let tail := s.mem.readNat (cave 0x944000) 8
       let head := s.mem.readNat (cave 0x944008) 8
       let full := 256 ≤ (tail + 2 ^ 64 - head) % 2 ^ 64
       ((b.extractLsb' 0 9).toNat ≠ s.module → ∀ f, s.check s.who .load false 64 a = .passes f → s.route f.pte (f.pa a) = .plain →
         Gives (.sysc sa sb cls) s fun t => t.cur.pc = s.cur.pc + 4 ∧ t.mem = s.mem ∧ s.g.sameRegs t.g ∧
           t.mailOut = s.mailOut ++ [{ dst := (b.extractLsb' 0 11).toNat, cls := cls, body := s.mem.readBytes (f.pa a) 64 }]) ∧
       ((b.extractLsb' 0 9).toNat = s.module → cls < 256 →
       (∀ r, s.check s.who .load false 64 a = .fails r → Traps (.sysc sa sb cls) s { code := rowCode r, addr := a }) ∧
       (∀ f, s.check s.who .load false 64 a = .passes f → s.route f.pte (f.pa a) = .plain →
         (full → Gives (.sysc sa sb cls) s fun t => t.cur.pc = s.cur.pc ∧ t.mem = s.mem ∧ s.g.sameRegs t.g) ∧
         (¬full → Gives (.sysc sa sb cls) s fun t => t.cur.pc = s.cur.pc + 4 ∧ t.g.v = s.g.v ∧ t.g.s = s.g.s ∧
           t.mem = (s.mem.writeBytes (cave (0x940000 + 64 * (tail % 256)))
             (toBytes 8 (s.coreSource s.g.core % 2 ^ 20 + cls * 2 ^ 20) ++ (s.mem.readBytes (f.pa a + 8) 56))).writeNat (cave 0x944000) 8 ((tail + 1) % 2 ^ 64)))))) ∧
    (sa % 2 = 0 → { srcs := [rs sa, rs (sa + 1), rs sb], sup := true : Form }.runs s = true →
      let ms := (b.extractLsb' 0 32).toNat
      let limit := s.tstamp.toNat + (if ms = 0 then 30000 else ms) * 1000000
      let named := fun c => if c < 64 then a.getLsbD c else (s.g.readS (sa + 1)).getLsbD (c - 64)
      Gives (.dump sa sb) s fun t => t.cur.pc = s.cur.pc + 4 ∧ t.g.v = s.g.v ∧ t.g.s = s.g.s ∧
        ∀ c, c < s.cores.length → (t.core c).frozen = if c < 128 ∧ named c then some (max ((s.core c).frozen.getD 0) limit) else (s.core c).frozen)) ∧
  (∀ (clock : Nat) (g h : Group), g.fmt.length = 8 → g.wid.length = 32 → g.txst.length = 32 → g.p.length ≤ 8 → g.t.length ≤ 8 → g.ac.length ≤ 8 → g.bm.length ≤ 8 →
    (∀ x ∈ g.v, x.length = 32) → g.v.length = h.v.length → g.s.length = h.s.length → g.p.length = h.p.length → g.t.length = h.t.length → g.ac.length = h.ac.length →
    g.bm.length = h.bm.length → h.fmt.length = 8 → h.wid.length = 32 → h.txst.length = 32 → g.a.depth < 65536 → g.b.depth < 65536 →
    let r := Group.loadImage clock g.image h
    r.v = g.v ∧ r.p = g.p ∧ r.t = g.t ∧ r.wid = g.wid ∧ r.txst = g.txst ∧ r.schk = g.schk ∧ r.dsave = g.dsave ∧ r.frameCtr = g.frameCtr ∧ (∀ k, k < g.s.length → r.readS k = g.readS k) ∧
    r.a.live = g.a.live ∧ r.a.exm = (g.a.exm &&& h.lanes) ∧ r.a.depth = g.a.depth ∧ r.a.tag = g.a.tag ∧ r.b.live = g.b.live ∧ r.b.depth = g.b.depth ∧ r.b.tag = g.b.tag)

/-! ### What the memory system does between instructions (R55, R74, R78, R90 to R106, R117 to R121, R238) -/

/-- R94 to R103: what a request does at the directory. A load leaves the requesting core with a clean copy of its format and its cluster in the line's
rinds, an owner's dirty bytes merged first; a store to a line in I makes the storing core its owner; a write at the slice leaves no owner and advances
the line's version; an owner's write-back leaves the line in I, and a recall that downgrades leaves it shared. Memory changes only where data are
written. Completes here: `dirLoadRequest`, `dirUpgradeRequest`, `dirStoreRequest`, `sliceWrite`, `ownerWriteback`, `recallArrival`.
Model choices that it rests on: log entries 13, 14, 71 and 72. -/
def Obligations.DirectoryEvents : Prop :=
  ∀ (s : State) (core pa : Nat) (tag : Tag) (upd : Bool) (data : List Byte), s.defer = false → s.msgs = [] → s.stores = [] → s.hostCopies = [] → core < 128 → s.cacheable pa = true →
    let line := pa / 64 * 64
    let owned := fun (o : Nat) => (s.dirOf line).any fun d => decide (d.state = .modified o)
    let gets := fun (i : Instr) => Gives i s fun t => s.g.sameRegs t.g ∧ t.mem = s.mem ∧
      ((t.l1Of core line).any fun c => decide (c.tag = tag ∧ c.valid = BitVec.allOnes 64 ∧ c.dirty = 0 ∧ c.stale = none)) = true ∧
      ((t.dirOf line).any fun d => decide (d.state = .shared) && d.rinds.any fun r => laneOn r.mask (core / 4) && (r.tag == tag || d.col)) = true
    (¬(owned core ∧ tag = .full) → gets (.dirLoadRequest core pa tag upd)) ∧
    (owned core = true → tag = .full → ∀ c, s.l1Of core line = some c → Gives (.dirLoadRequest core pa tag upd) s fun t =>
      s.g.sameRegs t.g ∧ t.mem = s.mem ∧ t.dir = s.dir ∧ ((t.l1Of core line).any fun x => decide (x.valid = BitVec.allOnes 64 ∧ x.dirty = c.dirty)) = true) ∧
    (s.l1Of core line = none → exec (.dirUpgradeRequest core pa tag) s = .next s) ∧
    (∀ c, s.l1Of core line = some c → c.tag ≠ tag → ¬(owned core ∧ tag = .full) → gets (.dirUpgradeRequest core pa tag)) ∧
    (data ≠ [] → pa / 64 = (pa + data.length - 1) / 64 →
      Gives (.dirStoreRequest core pa data) s (fun t => t.mem = s.mem.writeBytes pa data ∧ t.g.v = s.g.v ∧ t.g.s = s.g.s ∧
        (s.dirOf line = none → t.dirOf line = some { line := line, state := .modified core } ∧
          ((t.l1Of core line).any fun c => decide (c.tag = .full ∧ c.dirty = byteMask (pa % 64) data.length)) = true)) ∧
      Gives (.sliceWrite pa data) s (fun t => t.mem = s.mem.writeBytes pa data ∧ t.g.v = s.g.v ∧ t.g.s = s.g.s ∧
        ((t.dirOf line).any fun d => decide (d.state ≠ .shared)) = false ∧
        (s.dirOf line = none → (s.versionOf line).isSome = true → t.versionOf line = some ((s.die (homeDie line)).clocks.getD (homeSlice line) 0 + 1)))) ∧
    (owned core = false → exec (.ownerWriteback core pa) s = .next s ∧ exec (.recallArrival core pa true) s = .next s) ∧
    (owned core = true →
      Gives (.ownerWriteback core pa) s (fun t => s.g.sameRegs t.g ∧ t.mem = s.mem ∧ t.dirOf line = none ∧ t.l1Of core line = none) ∧
      Gives (.recallArrival core pa false) s (fun t => s.g.sameRegs t.g ∧ t.mem = s.mem ∧ t.dirOf line = none ∧ t.l1Of core line = none) ∧
      Gives (.recallArrival core pa true) s (fun t => s.g.sameRegs t.g ∧ t.mem = s.mem ∧
        t.dirOf line = some { line := line, state := .shared, rinds := [{ tag := .full, mask := BitVec.ofNat 32 (2 ^ (core / 4)) }] } ∧
        ∀ c, t.l1Of core line = some c → c.dirty = 0))

/-- R90, R99 to R104: the first message to a core about a line takes effect as it arrives: an invalidation drops the copy, an update
makes it hold the line that it carries; acknowledgement by every sharer leaves no message about the line and performs the posted write that waited for
it. R106, R117, R120, R121: a service group applies its oldest entry; a unit is appended to its wheel's vat or applied to a resident wheel; a merged
read changes nothing; a press leaves in memory the entries' result. R74, R78, R55, R238: window and cluster-memory accesses, page walks and
results in flight. Completes here: `l1InvalidateArrival`, `l1UpdateArrival`, `sharerAckArrival`, `serviceGroupEntryApply`, `vatUnitIntake`, `mergedRead`,
`pressDone`, `coherentWindowAccess`, `clusterCrossbarAccess`, `loadDataReturn`, `variableLatencyResult`, `pageWalkDone`.
Model choices that it rests on: log entries 14, 16, 62, 63 and 65. -/
def Obligations.MemorySystemEvents : Prop :=
  (∀ (s : State) (core pa : Nat) (tag : Tag) (m : DirMsg) (c : L1Line),
    let line := pa / 64 * 64
    let left := removeFirst (fun x => x.core == core && x.line == line) s.msgs
    (s.msgs.find? fun x => x.core == core && x.line == line) = some m → s.l1Of core line = some c →
      ((s.msgs.takeWhile fun x => !(x.core == core && x.line == line)).all fun x => !m.follows x) = true → (m.all = true ∨ m.tag = tag) → (m.all = true ∨ c.tag = m.tag) →
      (m.kind = .invalidate → Gives (.l1InvalidateArrival core pa tag) s (fun t => t.g.v = s.g.v ∧ t.g.s = s.g.s ∧ t.mem = s.mem ∧ t.msgs = left ∧ t.l1Of core line = none) ∧
        exec (.l1UpdateArrival core pa tag) s = .next s) ∧
      (m.kind = .update → exec (.l1InvalidateArrival core pa tag) s = .next s ∧ Gives (.l1UpdateArrival core pa tag) s fun t => t.g.v = s.g.v ∧ t.g.s = s.g.s ∧ t.mem = s.mem ∧ t.msgs = left ∧
        t.l1Of core line = some { c with valid := BitVec.allOnes 64, version := none, stale := if left.any fun x => x.core == core && x.line == line then some (subLine c.tag m.data) else none })) ∧
  (∀ (s : State) (pa : Nat),
    let line := pa / 64 * 64
    let mine := s.fabric.find? fun r => r.posted && r.pa / 64 * 64 == line
    (mine = none → Gives (.sharerAckArrival pa) s fun t => t.g.v = s.g.v ∧ t.g.s = s.g.s ∧ t.mem = s.mem ∧ t.fabric = s.fabric ∧ ∀ m ∈ t.msgs, m.line ≠ line) ∧
    (∀ r, mine = some r → r.host = false → r.atoms = [] → r.strong = false → (∀ x ∈ s.fabric, x.sent = true) →
      ((s.fabric.takeWhile fun x => x.id != r.id).all fun x => !(x.posted && r.spans.any fun y => x.meets y.1 y.2)) = true →
      Gives (.sharerAckArrival pa) s fun t => t.g.v = s.g.v ∧ t.g.s = s.g.s ∧
        t.mem = r.writes.foldl (fun m w => m.writeBytes w.1 w.2) s.mem ∧ t.fabric = (s.fabric.filter fun x => x.id != r.id) ∧ ∀ m ∈ t.msgs, m.line ≠ line)) ∧
  (∀ (s : State) (cluster : Nat) (c : Cluster), s.clusters[cluster]? = some c →
    (c.sg = [] → exec (.serviceGroupEntryApply cluster) s = .next s) ∧
    (∀ e rest r w, c.sg = e :: rest → e.space = 1 → e.reqs = [r] → s.wgAt e.wg = some w → (∀ g ∈ s.allGroups, ∀ x ∈ g.save, x.sorting = false) →
      let old := w.cells.readNat r.addr r.size
      Gives (.serviceGroupEntryApply cluster) s fun t => (e.ret = false → t.g = s.g) ∧ t.mem = s.mem ∧ (t.cluster cluster).sg = rest ∧
        ((t.wgAt e.wg).map fun x => x.cells) = some (w.cells.writeNat r.addr r.size (r.new old)) ∧
        (e.ret = true → ∀ core slot h, s.groupAt core slot = some h → h.ident = e.ident → ∃ h', t.groupAt core slot = some h' ∧ h'.retSlots = h.retSlots.set r.lane (BitVec.ofNat 128 old) ∧
          ∀ x ∈ h.inflight, ∀ k, x.await = some (e.id, k) → ({ x with await := none, val := putOlds r.size k [(r.lane, old)] x.val } : Inflight) ∈ h'.inflight))) ∧
  (∀ (s : State) (die cluster : Nat) (c : Cluster) (u : VatUnit), cluster < 8 → s.clusters[8 * die + cluster]? = some c → c.intake = [u] →
    (∀ w es, s.wheelAt u.wheel = some w → unitEntries u.reqs = some es → w.state = .vatted → (appendUnit w.vat es).length ≤ 64 →
      Gives (.vatUnitIntake die cluster) s fun t => t.mem = s.mem ∧ (t.cluster (8 * die + cluster)).intake = [] ∧
        ((t.wheelAt u.wheel).any fun x => decide (x.state = .vatted ∧ x.vat = appendUnit w.vat es)) = true) ∧
    (∀ w r, s.wheelAt u.wheel = some w → w.state = .residentS → s.hostCopies = [] → u.reqs = [r] → 0 < r.size → r.addr / 64 = (r.addr + r.size - 1) / 64 →
      Gives (.vatUnitIntake die cluster) s fun t => t.mem = s.mem.writeNat r.addr r.size (r.new (s.mem.readNat r.addr r.size)) ∧
        (t.cluster (8 * die + cluster)).intake = [])) ∧
  (∀ (s : State) (pa size wheel a : Nat),
    (s.wheelAt (pa / 2048 * 2048) = none → exec (.mergedRead pa size) s = .next { s with mergedOut := s.mem.readBytes pa size }) ∧
    (∀ w, s.wheelAt (pa / 2048 * 2048) = some w → w.state = .vatted → w.bad = [] →
      exec (.mergedRead pa size) s = .next { s with mergedOut := (w.vat.foldl (applyEntry w.wheel) s.mem).readBytes pa size }) ∧
    (∀ w, s.wheelAt wheel = some w → w.state = .pressing → w.after = none ∨ w.after = some .residentS → w.forced = false → Memory.wf s.mem → wheel % 2048 = 0 → wheel / 2 ^ 43 = s.module →
      s.hostCopies = [] → Gives (.pressDone wheel) s fun t => (t.wheelAt wheel).map (fun x => x.state) = w.after ∧
        t.mem.read a = if wheel ≤ a ∧ a < wheel + 2048 then (w.vat.foldl (applyEntry wheel) s.mem).read a else s.mem.read a)) ∧
  (∀ (s : State) (core die off size op : Nat) (data : List Byte), die < 4 → 0 < size → off + size ≤ 0x100000 → op < 17 → s.stores = [] →
    let pa := s.module * 2 ^ 43 + 0x68000000000 + die * 0x2000000 + off
    let r : AtomReq := { lane := 0, addr := pa, size := size, op := op, operand := BitVec.ofNat 128 (fromBytes (data.take size)), compare := BitVec.ofNat 128 (fromBytes ((data.drop size).take size)) }
    exec (.coherentWindowAccess core pa size 0 data) s = .next { s with mergedOut := s.mem.readBytes pa size } ∧
    (data.length = size → Gives (.coherentWindowAccess core pa size 1 data) s fun t => t.mem = s.mem.writeBytes pa data ∧ t.g.v = s.g.v ∧ t.g.s = s.g.s) ∧
    Gives (.coherentWindowAccess core pa size (2 + op) data) s fun t => t.mem = s.mem.writeNat pa size (r.new (s.mem.readNat pa size)) ∧ t.g.v = s.g.v ∧ t.g.s = s.g.s) ∧
  (∀ (s : State) (core slot off size : Nat) (data : List Byte) (g : Group) (w : Workgroup) (i : Instance), s.groupAt core slot = some g → s.wgAt g.wg = some w →
    s.instOf w = some i → off + size ≤ i.size → (s.cluster (clusterOf core)).xbar = [] →
      exec (.clusterCrossbarAccess core slot off size false data) s = .next { s with mergedOut := i.cells.readBytes off size } ∧
      Gives (.clusterCrossbarAccess core slot off size true data) s fun t => t.g = s.g ∧ t.mem = s.mem ∧
        (t.instOf w).map (fun x => x.cells) = some (i.cells.writeBytes off (data.take size))) ∧
  (∀ (s : State) (core slot n l : Nat) (g : Group) (r : Inflight) (rest : List Inflight) (x : W64) (y : VReg), s.groupAt core slot = some g → g.inflight = r :: rest → r.await = none →
    s.fabric.any (FabReq.awaits (s.identAt core slot)) = false →
      let word := fun (t : State) => t.mem = s.mem ∧ ((t.groupAt core slot).any fun h => decide (h.inflight = rest ∧ h.readS n = x)) = true
      let lanes := fun (t : State) => t.mem = s.mem ∧ ((t.groupAt core slot).any fun h => decide (h.inflight = rest ∧ h.lane n l = if laneOn r.mask l then y.getD l 0 else g.lane n l)) = true
      let lands := fun (P : State → Prop) => (r.mem = true → Gives (.loadDataReturn core slot) s P) ∧ (r.mem = false → Gives (.variableLatencyResult core slot) s P)
      (r.reg = rs n → r.val = .word x → n ≠ 0 → n < g.s.length → lands word) ∧ (r.reg = rv n → r.val = .lanes y → n < g.v.length → l < 32 → lands lanes)) ∧
  (∀ (s : State) (die asid : Nat) (va : W64) (root : Nat) (f : Leaf), (s.misses.find? fun m => dieOf m.core == die && m.waits asid (va.toNat / 65536)) = none →
    s.rootFor die asid = some root → (∀ m ∈ s.misses, dieOf m.core = die → m.prefetch = none) →
    s.walkRoot die asid root (va.toNat % 2 ^ 57) = .leaf f → canonical va = true →
      Gives (.pageWalkDone die asid va) s fun t => t.g = s.g ∧ t.mem = s.mem ∧ (t.tlbHit (.second die) asid (va.toNat % 2 ^ 57)).isSome = true ∧
        (s.tlbHit (.second die) asid (va.toNat % 2 ^ 57) = none →
          (t.tlbHit (.second die) asid (va.toNat % 2 ^ 57)).map (fun e => ({ pte := e.pte, level := e.level } : Leaf)) = some f)) ∧
  (∀ (s : State) (die asid : Nat) (va : W64), (s.misses.any fun m => dieOf m.core == die && m.waits asid (va.toNat / 65536)) = true →
    (s.walks die).elem (asid, va.toNat / 65536) = true → canonical va = true → (∀ m ∈ s.misses, dieOf m.core = die → m.prefetch = none) →
      Gives (.pageWalkDone die asid va) s fun t => t.g = s.g ∧ t.mem = s.mem ∧ ∀ x ∈ t.misses, ¬(dieOf x.core = die ∧ x.waits asid (va.toNat / 65536) = true))

/-! ### Other modules, and errors (R86, R185 to R193, R367, R368) -/

/-- R188 to R193, R185: a request of another module is performed and answered, a read of more than 64 bytes of an ordinary wheel leaving a pointer, and fails
at once where that module is marked failed; a write is answered once no message about its lines is under way; a fill installs the
wheel's 32 lines, an invalidation drops every copy; a request that times out or comes back with an error has failed, a posted one is remembered for
its group; a module that does not acknowledge is marked failed and its pointers are dropped. R86, R367, R368: a corrected error is counted, at the
threshold its location is retired; an uncorrectable one in HBM poisons its line and one in a Cave spoils its word until it is
written, and it is retired at once; a scratchpad all of whose 16 spares are in use, or an accumulator memory all of whose 8, keeps the fault unretired; a way of a cache
is put out of service, its line with it; errors are counted by `errLine`, the 64-byte line or the HBM row; MSI-X vector 2 tells of each retirement. R127: one in a vat's record
makes every line of its wheel bad until a press or a merged read finds it. Completes here: `remoteRequestArrival`, `remoteFillArrival`,
`wheelInvalidateArrival`, `fabricTimeoutExpiry`, `fabricErrorCompletion`, `hostAtomicUrCompletion`, `invalAckTimeout`, `failedModuleMarkClear`,
`correctedEccError`, `uncorrectableEccError`.
Model choices that it rests on: log entries 13, 14, 58, 61 and 62. -/
def Obligations.FabricAndErrorEvents : Prop :=
  (∀ (s : State) (src op pa size : Nat) (tag : Tag) (data : List Byte), s.dies.length = 4 → s.hostCopies = [] → s.poison = [] → s.bad = [] → s.stores = [] →
    let line := pa / 64 * 64
    let wheel := pa / 2048 * 2048
    let answered := fun (t : State) (d : List Byte) => t.g.v = s.g.v ∧ t.g.s = s.g.s ∧
      ∃ told : List HostReply, (∀ x ∈ told, ∃ m w, x = .invalidate m w) ∧ t.fabOut = s.fabOut ++ told ++ [.data d]
    (moduleOf pa ≠ s.module → exec (.remoteRequestArrival src op pa size tag data) s = .next s) ∧
    (moduleOf pa = s.module → src ∈ s.failed → exec (.remoteRequestArrival src op pa size tag data) s = .next { s with fabOut := s.fabOut ++ [.failed] }) ∧
    (moduleOf pa = s.module → src ∉ s.failed →
      (s.route 0 pa = .plain → (s.wheelAt wheel).all (fun w => w.bad.isEmpty) = true →
        let n := if size ≤ 64 then 64 else if size ≤ 256 then 256 else 2048
        Gives (.remoteRequestArrival src 0 pa size tag data) s fun t => t.mem = s.mem ∧ answered t (s.mem.readBytes (pa / n * n) n) ∧
          (n = 64 → ∀ w ∈ (t.die (homeDie wheel)).wheelDir, w.wheel = wheel → w.ptrs.elem (src, tag) = true →
            ((s.die (homeDie wheel)).wheelDir.any fun x => x.wheel == wheel && x.ptrs.elem (src, tag)) = true) ∧
          (n ≠ 64 → ((t.die (homeDie wheel)).wheelDir.any fun w => w.wheel == wheel && (w.broadcast || w.ptrs.elem (src, tag))) = true)) ∧
      (s.route 0 pa = .window → s.wheelAt wheel = none → exec (.remoteRequestArrival src 0 pa size tag data) s = .next { s with fabOut := s.fabOut ++ [.data (s.mem.readBytes line 64)] }) ∧
      (s.route 128 pa = .vat → (s.wheelAt wheel).all (fun w => w.bad.isEmpty) = true →
        exec (.remoteRequestArrival src 256 pa size tag data) s = .next { s with fabOut := s.fabOut ++ [.data (s.mergedRead line 64)] }) ∧
      (s.route 0 pa = .vat → (s.wheelAt wheel).all (fun w => w.bad.isEmpty) = true → exec (.remoteRequestArrival src 0 pa size tag data) s = .next { s with fabOut := s.fabOut ++ [.data (s.mergedRead line 64)] }) ∧
      (s.route 0 pa = .plain → data ≠ [] → pa / 256 = (pa + data.length - 1) / 256 →
        Gives (.remoteRequestArrival src 1 pa size tag data) s fun t => t.mem = s.mem.writeBytes pa data ∧ t.g.v = s.g.v ∧ t.g.s = s.g.s ∧
          (s.owed = [] → let lines := linesOf pa data.length
            (t.owed = [] ∧ answered t []) ∨ (t.owed = [(lines, .data [])] ∧ ((t.msgs.any fun m => lines.elem m.line) || t.modAcks.any fun a => lines.elem a.2) = true)) ∧
          (s.defer = false → s.msgs = [] → s.modAcks = [] → s.owed = [] → answered t [])) ∧
      (s.route 128 pa = .vat → data ≠ [] → pa / 256 = (pa + data.length - 1) / 256 → s.defer = true → (owningCluster wheel < s.clusters.length) →
        Gives (.remoteRequestArrival src 257 pa size tag data) s fun t => t.mem = s.mem ∧ t.g = s.g ∧ (t.cluster (owningCluster wheel)).intake =
          (s.cluster (owningCluster wheel)).intake ++ [{ ident := noIdent, core := 0, wheel := wheel, reqs := storeReqs data.length pa data, src := some src }]) ∧
      (s.route 0 pa = .plain → op < 17 → 0 < size → pa / 64 = (pa + size - 1) / 64 →
        let r : AtomReq := { lane := 0, addr := pa, size := size, op := op, operand := BitVec.ofNat 128 (fromBytes (data.take size)), compare := BitVec.ofNat 128 (fromBytes ((data.drop size).take size)) }
        let old := s.mem.readNat pa size
        (Gives (.remoteRequestArrival src (2 + op) pa size tag data) s fun t => t.mem = s.mem.writeNat pa size (r.new old) ∧ answered t (toBytes size old)) ∧
        Gives (.remoteRequestArrival src (130 + op) pa size tag data) s fun t => t.mem = s.mem.writeNat pa size (r.new old) ∧ t.g.v = s.g.v ∧ t.g.s = s.g.s)) ∧
    (moduleOf wheel ≠ s.module → data.length = 2048 → Gives (.remoteFillArrival wheel tag data) s fun t => t.g.v = s.g.v ∧ t.g.s = s.g.s ∧
      t.mem = s.mem.writeBytes wheel data ∧ (List.range 32).all (fun k => t.l2.any fun x => x.line == wheel + 64 * k && x.remote.elem tag) = true ∧
      (t.poison.any fun x => x.line / 2048 * 2048 == wheel) = false) ∧
    (moduleOf wheel ≠ s.module → Gives (.wheelInvalidateArrival pa) s fun t => t.g = s.g ∧ t.mem = s.mem ∧ t.fabOut = s.fabOut ++ [.data []] ∧
      (t.l1.any fun c => c.line / 2048 * 2048 == wheel) = false ∧ (t.l2.any fun c => c.line / 2048 * 2048 == wheel) = false)) ∧
  (∀ (s : State) (req : Nat), s.hostCopies = [] →
    let waits := s.fabric.find? fun r => r.id == req && r.sent && decide (r.status = .pending)
    (waits = none → exec (.fabricTimeoutExpiry req) s = .next s ∧ exec (.fabricErrorCompletion req) s = .next s ∧ exec (.hostAtomicUrCompletion req) s = .next s) ∧
    (∀ r, waits = some r → (∀ x ∈ s.fabric, x.sent = true) →
      let lost := s.fabric.filter fun x => x.id != r.id
      let answer := fun (i : Instr) (st : FabState) =>
        (r.posted = false → exec i s = .next { s with fabric := s.fabric.map fun x => if x.id == r.id then { x with status := st } else x }) ∧
        (r.posted = true → r.atoms = [] → Gives i s fun t => t.mem = s.mem ∧ t.fabric = lost ∧
          (r.ident = engineIdent r.core → r.pc.toNat < 2 ^ 32 → ∀ c ∈ (t.core r.core).cards, c.seq = r.pc.toNat → c.lost = true) ∧
          (r.ident ≠ engineIdent r.core → ∀ core slot g, s.groupAt core slot = some g → g.ident = r.ident →
            ((t.groupAt core slot).map fun h => h.lateFault) = some (some (g.lateFault.getD r.vaddr))) ∧
          (r.ident ≠ engineIdent r.core → r.launch ≠ 0 → (∀ g ∈ s.allGroups, g.ident ≠ r.ident) → ∀ l, s.launchOf r.launch = some l →
            (t.launchOf r.launch).map (fun x => x.faulted) = some true))
      answer (.fabricErrorCompletion req) .failed ∧
      (r.deadline ≤ s.tstamp.toNat → answer (.fabricTimeoutExpiry req) .failed) ∧
      (s.tstamp.toNat < r.deadline → exec (.fabricTimeoutExpiry req) s = .next s) ∧
      (r.host = true → answer (.hostAtomicUrCompletion req) .unsupported) ∧ (r.host = false → exec (.hostAtomicUrCompletion req) s = .next s))) ∧
  (∀ (s : State) (module pa : Nat),
    exec (.failedModuleMarkClear module) s = .next { s with failed := s.failed.filter fun m => m != module } ∧
    (module ≠ s.module → Gives (.invalAckTimeout module pa) s fun t => t.g = s.g ∧ t.mem = s.mem ∧ t.failed.elem module = true ∧
      (t.dies.any fun d => d.wheelDir.any fun w => w.ptrs.any fun p => p.1 == module) = false)) ∧
  (∀ (s : State) (die loc pa core cluster : Nat) (e : EccEntry), die < 4 → s.dies.length = 4 → s.hostCopies = [] → (s.fabric.any fun r => r.posted && r.host) = false →
    let table := (s.die die).ecc
    let now := s.tstamp.toNat
    let line := errLine loc
    let still := fun (t : State) => t.g = s.g ∧ t.mem = s.mem
    let kept := fun (t : State) => s.g.sameRegs t.g ∧ t.mem = s.mem ∧ (loc < 2 ^ 54 → t.g = s.g)
    let off := fun (t : State) => (∀ c set way, errAt loc = .l1 c false set way → t.offWays = s.offWays ++ [.l1 c set] ∧
        ∀ x, (s.l1.filter fun y => y.core == c && l1Set y.line == set)[way]? = some x → s.dirOf x.line = none → t.l1Of c x.line = none) ∧
      (∀ d slice set way, errAt loc = .l2 d slice set way → t.offWays = s.offWays ++ [.l2 d slice set (decide (12 ≤ way))])
    let retired := fun (t : State) d l => (t.die d).retired = (s.die d).retired ++ [(l, true)] ∧ t.msix = s.msix ++ [2]
    (table.find? (fun x => x.loc == line) = some e → now ≤ e.first + s.ctl.eccwin.toNat * 1000000000 →
      (e.count + 1 < s.ctl.eccthr.toNat → Gives (.correctedEccError die loc) s fun t => still t ∧ t.msix = s.msix ∧
        (t.die die).ecc.find? (fun x => x.loc == line) = some { e with count := e.count + 1 }) ∧
      (s.ctl.eccthr.toNat ≤ e.count + 1 → (s.die die).canRetire line = true →
        Gives (.correctedEccError die loc) s fun t => kept t ∧ retired t die line ∧ off t ∧ ((t.die die).ecc.any fun x => x.loc == line) = false) ∧
      (s.ctl.eccthr.toNat ≤ e.count + 1 → (s.die die).canRetire line = false → Gives (.correctedEccError die loc) s fun t => kept t ∧
        (t.die die).retired = (s.die die).retired ++ [(line, false)] ∧ (t.die die).ecc.find? (fun x => x.loc == line) = some { e with count := e.count + 1 })) ∧
    (∀ n : Nat, n < 2 ^ 20 → core < 128 → let at_ := 2 ^ 53 + core * 2 ^ 20 + n
      ((s.die die).retired.filter fun x => x.2 && decide (2 ^ 53 + core * 2 ^ 20 ≤ x.1 ∧ x.1 < 2 ^ 53 + core * 2 ^ 20 + 2 ^ 20)).length = 16 →
      (s.die die).retired.elem (at_, true) = false → (s.die die).canRetire at_ = false) ∧
    (∀ n : Nat, n < 2 ^ 23 → cluster < 32 → let at_ := 2 ^ 52 + cluster * 2 ^ 23 + n
      ((s.die die).retired.filter fun x => x.2 && decide (2 ^ 52 + cluster * 2 ^ 23 ≤ x.1 ∧ x.1 < 2 ^ 52 + cluster * 2 ^ 23 + 2 ^ 23)).length = 8 →
      (s.die die).retired.elem (at_, true) = false → (s.die die).canRetire at_ = false) ∧
    (table.find? (fun x => x.loc == line) = none → 1 < s.ctl.eccthr.toNat → table.length < 4096 → Gives (.correctedEccError die loc) s fun t => still t ∧ t.msix = s.msix ∧
      (t.die die).ecc = table ++ [{ loc := line, count := 1, first := now }]) ∧
    (2 ^ 53 ≤ pa → pa < 2 ^ 54 → s.wgs = [] → s.insts = [] → Gives (.uncorrectableEccError pa) s fun t => still t ∧ t.bad = s.bad ∧ t.poison = s.poison) ∧
    (pa < 2 ^ 52 → placeOf (localOf pa) = .hbm → Gives (.uncorrectableEccError pa) s fun t => still t ∧ (t.poison.any fun x => decide (x.line = pa / 64 * 64 ∧ x.left = BitVec.allOnes 64)) = true ∧
      (moduleOf pa = s.module → retired t (homeDie pa) (errLine pa)) ∧ (moduleOf pa ≠ s.module → t.dies = s.dies ∧ t.msix = s.msix))) ∧
  (∀ (s : State) (die off : Nat) (w : Wheel), s.module < 512 → (s.fabric.any fun r => r.posted && r.host) = false → die < 4 → 0x900000 ≤ off → off < 0x940000 → s.wheels = [w] → w.state = .vatted → homeDie w.wheel = die →
      Gives (.uncorrectableEccError (s.module * 2 ^ 43 + 0x68000000000 + die * 0x2000000 + off)) s fun t =>
        t.wheels = [if Config.vatPlace w.wheel = (off - 0x900000) / 16 then { w with bad := wheelLines w.wheel } else w] ∧ t.poison = s.poison) ∧
  (∀ (s : State) (die off : Nat), s.module < 512 → s.dies.length = 4 → (s.fabric.any fun r => r.posted && r.host) = false → die < 4 → 0x940000 ≤ off ∨ off < 0x100000 → off < 0x2000000 →
    let pa := s.module * 2 ^ 43 + 0x68000000000 + die * 0x2000000 + off
    Gives (.uncorrectableEccError pa) s fun t => t.g = s.g ∧ t.mem = s.mem ∧ t.poison = s.poison ∧ (∀ n, 0 < n → t.spoiled .cave pa n = true) ∧
      t.msix = s.msix ++ [2] ∧ (t.die die).retired = (s.die die).retired ++ [(pa / 64 * 64, (s.die die).canRetire (pa / 64 * 64))] ∧
      ∀ n st, (∀ b ∈ s.bad, b.store ≠ st) → (st ≠ .cave ∨ n + 8 ≤ pa) → t.spoiled st n 1 = false) ∧
  (∀ (s : State) (st : BadStore) (off n : Nat), (s.repair st off n).g = s.g ∧ (s.repair st off n).mem = s.mem ∧
    (off % 8 = 0 → n % 8 = 0 → 0 < n → (s.repair st off n).spoiled st off n = false) ∧
    (∀ a, a + 8 ≤ off ∨ off + n + 8 ≤ a → (s.repair st off n).spoiled st a 1 = s.spoiled st a 1))

/-! ### What groups do between instructions (R62, R143, R156 to R173, R205, R206, R313, R338, R351, R355, R356, R363, R372) -/

/-- R206, R313, R338, R164, R205: a parked entry whose wait is over becomes ready, and a free slot is filled: a write to the monitored line, its time
limit (it goes on after its `mwait`), an object whose EXP is 0 or whose PHASE is not the one waited on, a card that is held no more, or a back-off
that has run out. Timers of a frozen core stand still (R372). R143, R62: a path whose `fence` or `tlbi` is complete goes on at the next word.
Completes here: `mwaitWake`, `mwaitTimeLimit`, `txBackoffExpiry`, `barWaitWake`, `eyieldResume`, `fenceComplete`, `tlbiComplete`.
Model choices that it rests on: log entries 68 and 87. -/
def Obligations.WaitsThatEnd : Prop :=
  (∀ (s : State) (core slot : Nat) (g : Group) (e : SaveEntry), s.groupAt core slot = some g → (g.save.filter fun x => x.seq == e.seq) = [e] →
    let frozen := (s.core core).frozen.isSome
    let wakes := fun (i : Instr) (e' : SaveEntry) => Gives i s fun t => t.mem = s.mem ∧
      t.groupAt core slot = some (Group.refill s.clock { g with save := g.save.map fun x => if x.seq == e.seq then e' else x })
    let stays := fun (i : Instr) => Gives i s fun t => t.mem = s.mem ∧ t.groupAt core slot = some g
    let ready := { e with state := .ready }
    (e.state = .parked .mwait → wakes (.mwaitWake core slot e.seq) ready ∧
      (frozen = false → e.deadline ≤ s.clock → wakes (.mwaitTimeLimit core slot e.seq) { ready with pc := e.next }) ∧
      (frozen = true ∨ s.clock < e.deadline → stays (.mwaitTimeLimit core slot e.seq))) ∧
    (e.state = .parked .backoff → (frozen = false → e.deadline ≤ s.clock → wakes (.txBackoffExpiry core slot e.seq) ready) ∧
      (frozen = true ∨ s.clock < e.deadline → stays (.txBackoffExpiry core slot e.seq))) ∧
    (∀ off parity w, e.state = .parked (.barWait off parity) → s.wgAt g.wg = some w →
      let obj := w.cells.readNat off 16
      let ended := obj / 2 ^ 32 % 2 ^ 16 = 0 ∨ decide (obj % 2 = 1) ≠ parity
      (ended → wakes (.barWaitWake core slot e.seq) ready) ∧ (¬ended → stays (.barWaitWake core slot e.seq))) ∧
    (∀ h, e.state = .parked (.eyield h) → h ≠ 0 →
      let held := (s.core core).cards.any fun c => c.handle == h
      (held = false → wakes (.eyieldResume core slot e.seq) ready) ∧ (held = true → stays (.eyieldResume core slot e.seq))) ∧
    (e.state = .parked (.eyield 0) →
      let held := (s.cluster (core / 4)).resv.any fun r => decide (r.wg = g.wg ∧ r.gidx = g.gidx ∧ r.id < e.deadline)
      (held = false → wakes (.eyieldResume core slot e.seq) ready) ∧ (held = true → stays (.eyieldResume core slot e.seq)))) ∧
  (∀ (s : State) (core slot : Nat) (inB : Bool) (g : Group), s.groupAt core slot = some g → g.core = core → g.slot = slot →
    let pc := fun (h : Group) => if inB then h.b.pc else h.a.pc
    ((∀ f ∈ g.fenceWait, f.1 ≠ inB) → exec (.fenceComplete core slot inB) s = .next s) ∧
    (∀ f, g.fenceWait.find? (fun f => f.1 == inB) = some f → (∀ x ∈ s.stores, x.core / 32 ≠ core / 32) → s.performedAt f.2 g = true → g.lateFault = none → Gives (.fenceComplete core slot inB) s fun t => t.mem = s.mem ∧
      ((t.groupAt core slot).any fun h => decide (h.fenceWait = g.fenceWait.filter (fun f => f.1 != inB) ∧ pc h = pc g + 4 ∧ h.v = g.v ∧ h.s = g.s)) = true) ∧
    (g.tlbiWait = [] → exec (.tlbiComplete core slot) s = .next s) ∧
    (g.tlbiWait = [inB] → s.translatedDone = false → exec (.tlbiComplete core slot) s = .next s) ∧
    (g.tlbiWait = [inB] → s.translatedDone = true → Gives (.tlbiComplete core slot) s fun t => t.mem = s.mem ∧
      ((t.groupAt core slot).any fun h => decide (h.tlbiWait = [] ∧ pc h = pc g + 4 ∧ h.v = g.v ∧ h.s = g.s)) = true))

/-- R355, R356: a group that was asked to stop is stopped once its results are written, and so is one that DBGSTOP names and no path of which issues (R371),
with the event of a breakpoint at 0x100; the first event of an idle trap context is started: the trap
registers take the event's words, slot A runs at vector base + 64 × CODE with every lane. R363: a group asked to be saved stops where it may be, with
an event of code 0, and one whose group runs again when the event's turn comes is asked again (R362). R351, R193: mail that arrives is put into its die's ring,
unless the ring is full or its module is marked failed. R372: a frozen core is released when its limit passes, and one that has been dumped starts no event.
Completes here: `trapEventStart`, `groupStopped`, `syscMailArrival`, `dumpTimeLimit`.
Model choices that it rests on: log entries 23, 25, 31, 67 and 86. -/
def Obligations.TrapContextEvents : Prop :=
  (∀ (s : State) (core slot : Nat) (k : Core) (g c : Group), s.cores[core]? = some k → s.groupAt core slot = some g → slot < 64 → s.groupAt core 64 = some c →
    let serves := fun (t : State) (e : TrapEvent) => ((t.cores[core]?).any fun x => decide (x.serving = some e.slot ∧ x.served = some e ∧ x.xcause = e.cause ∧ x.xpc = e.pc &&& 0x01FFFFFFFFFFFFFF ∧ x.xaddr = e.addr ∧ x.xmask = e.mask)) = true ∧
      ((t.groupAt core 64).any fun x => decide (x.a.live = true ∧ x.a.pc = k.vbase + BitVec.ofNat 64 (64 * e.code) ∧ x.a.exm = BitVec.allOnes 32 ∧ x.b.live = false ∧ x.v = c.v ∧ x.s = c.s)) = true
    let settled := k.events.all fun x => x.code != 0 || x.card.isSome || (s.groupAt core x.slot).all fun h => decide (h.status ≠ .running ∧ h.status ≠ .held)
    (∀ e rest, k.serving = none → k.events = e :: rest → settled = true → k.frozenPosted = false → e.slot = slot → g.status = .stopped →
      Gives (.trapEventStart core) s fun t => t.mem = s.mem ∧ serves t e ∧ ((t.cores[core]?).any fun x => decide (x.events = rest)) = true) ∧
    (k.serving.isSome = true ∨ k.events = [] ∨ k.frozenPosted = true → settled = true → exec (.trapEventStart core) s = .next s) ∧
    (∀ e rest, k.serving = none → k.events = e :: rest → e.code = 0 → e.card = none → e.slot = slot → g.status = .running ∨ g.status = .held →
      (rest.all fun x => x.code != 0) = true → rest = [] ∨ k.frozenPosted = true →
      Gives (.trapEventStart core) s fun t => t.mem = s.mem ∧ ((t.cores[core]?).any fun x => decide (x.serving = none ∧ x.events = rest)) = true ∧
        t.groupAt core slot = some { g with saveAsked := true }) ∧
    (g.status = .stopping → g.inflight = [] → g.commits = [] →
      (k.events = [] → Gives (.groupStopped core slot) s fun t => t.mem = s.mem ∧ t.groupAt core slot = some { g with status := .stopped }) ∧
      (∀ e rest, k.serving = none → k.events = e :: rest → settled = true → k.frozenPosted = false → e.slot = slot → Gives (.groupStopped core slot) s fun t => t.mem = s.mem ∧ serves t e ∧
        t.groupAt core slot = some { g with status := .stopped })) ∧
    (g.status = .running → g.saveAsked = true → s.saveAllowed g = true → k.serving = none → k.events = [] → k.frozenPosted = false → g.txLanes = 0 →
      Gives (.groupStopped core slot) s fun t => t.mem = s.mem ∧ serves t { slot := slot, inB := false, code := 0, pc := g.a.runPc, stamp := s.tstamp } ∧
        ((t.groupAt core slot).any fun h => decide (h.status = .stopped ∧ h.saveAsked = false)) = true) ∧
    (g.status = .running → g.saveAsked = false → g.stopAsked = true → g.a.live = false → g.b.live = false → g.inflight = [] → g.commits = [] →
      k.serving = none → k.events = [] → k.frozenPosted = false →
      Gives (.groupStopped core slot) s fun t => t.mem = s.mem ∧ ∃ h, t.groupAt core slot = some h ∧ h.status = .stopped ∧ h.stopAsked = false ∧ h.v = g.v ∧ h.s = g.s ∧
        serves t { slot := slot, inB := false, code := codeBrk, pc := h.a.runPc, addr := 0x100, stamp := s.tstamp }) ∧
    (g.status = .running → g.saveAsked = false → g.stopAsked = false ∨ g.a.live = true ∨ g.b.live = true → exec (.groupStopped core slot) s = .next s)) ∧
  (∀ (s : State) (die src cls : Nat) (body : List Byte), die < 4 →
    let cave := fun off => s.module * 2 ^ 43 + 0x68000000000 + die * 0x2000000 + off
    let tail := s.mem.readNat (cave 0x944000) 8
    let full := 256 ≤ (tail + 2 ^ 64 - s.mem.readNat (cave 0x944008) 8) % 2 ^ 64
    let failed := s.failed.elem (src / 2 ^ 11 % 2 ^ 9)
    (full ∨ failed = true → exec (.syscMailArrival die src cls body) s = .next s) ∧
    (¬full → failed = false → Gives (.syscMailArrival die src cls body) s fun t => t.g.v = s.g.v ∧ t.g.s = s.g.s ∧
      t.mem = (s.mem.writeBytes (cave (0x940000 + 64 * (tail % 256))) (toBytes 8 (src % 2 ^ 20 + cls % 256 * 2 ^ 20) ++ (body.drop 8).take 56)).writeNat (cave 0x944000) 8 ((tail + 1) % 2 ^ 64))) ∧
  (∀ (s : State) (core limit : Nat), core < s.cores.length → (s.core core).frozen = some limit →
    (s.tstamp.toNat < limit → exec (.dumpTimeLimit core) s = .next s) ∧
    (limit ≤ s.tstamp.toNat → Gives (.dumpTimeLimit core) s fun t => t.mem = s.mem ∧ (t.core core).frozen = none ∧
      (t.allGroups.any fun g => g.core == core && decide (g.status = .frozen)) = false))

/-- R156, R161, R166, R168, R172: a slab is granted while fewer than 16 groups of the core hold one; a die's token goes to a commit that needs it next,
the fallback token to the group that has waited longest, its lowest lane first. A commit that holds its tokens writes its lane's log, frees them and ends the lane's transaction; an
ordered lane whose iteration is the token's value writes its log and advances the token. A lane is validated when 65,536 clocks have passed: it goes
on, or leaves its path with cause VALIDATE. Completes here: `logSlabGrant`, `fallbackTokenGrant`, `commitTokenGrant`, `groupCommit`,
`orderedBatchCommit`, `txPeriodicValidation`.
Model choices that it rests on: log entries 44 and 89 (which group the fallback token goes to). -/
def Obligations.TransactionEvents : Prop :=
  (∀ (s : State) (core slot lane : Nat) (g : Group), s.groupAt core slot = some g →
    let waits : Bool := g.a.wait == some .txCommitWait || g.b.wait == some .txCommitWait
    let room := (s.allGroups.filter fun h => h.core == core && h.slab).length < 16
    (room → g.slab = false → waits = true → Gives (.logSlabGrant core slot) s fun t => t.mem = s.mem ∧ t.groupAt core slot = some { g with slab := true }) ∧
    (¬room → exec (.logSlabGrant core slot) s = .next s) ∧
    (∀ first, s.fallback = none → s.fallbackWait.head? = some (core, slot, first) → (core, slot, lane) ∈ s.fallbackWait →
      (∀ x ∈ s.fallbackWait, x.1 = core → x.2.1 = slot → lane ≤ x.2.2) →
      exec (.fallbackTokenGrant core slot lane) s =
        .next { s with fallback := some (core, slot, lane), fallbackWait := s.fallbackWait.filter fun x => x != (core, slot, lane) }) ∧
    (s.fallback.isSome = true ∨ (∀ first, s.fallbackWait.head? ≠ some (core, slot, first)) → exec (.fallbackTokenGrant core slot lane) s = .next s) ∧
    (∀ die k rest, die < s.dies.length → g.commits = [k] → k.need = die :: rest →
      ((s.die die).token = none → s.fallback = none → Gives (.commitTokenGrant die core slot) s fun t => t.mem = s.mem ∧ (t.die die).token = some (core, slot) ∧
        ((t.groupAt core slot).any fun h => decide (h.commits = [{ k with need := rest, held := k.held ++ [die] }])) = true) ∧
      ((s.die die).token.isSome = true → exec (.commitTokenGrant die core slot) s = .next s))) ∧
  (∀ (s : State) (l : Nat), l < 32 → s.rrMode = 0 → s.wheels = [] → s.hostCopies = [] → s.g.slot < 64 → s.g.txst.length = 32 → s.g.tx.length = 32 → s.exm = BitVec.ofNat 32 (2 ^ l) → s.g.txLanes = s.exm →
    s.g.save = [] → s.g.other.live = false → s.cur.live = true → s.g.status = .running →
    let x := s.g.laneTx l
    let w := s.g.txWord l
    let written := x.writes.foldl (fun m e => m.writeBytes e.pa (toBytes e.size e.data.toNat)) s.mem
    let same := fun (t : State) => t.g.v = s.g.v ∧ t.g.s = s.g.s ∧ t.g.p = s.g.p ∧ t.wgs = s.wgs
    let open_ := w.getLsbD 2 = false ∧ x.retry = false
    let stands := x.reads.all fun e => e.kind == 0 && decide (s.mem.readNat e.pa e.size = e.data.toNat)
    (open_ → x.atTend = true → x.atTabt = false → w.getLsbD 16 = false → stands = true → ∀ k, s.g.commits = [k] → k.lanes = s.exm → k.region = x.region → k.need = [] → k.ordered = false →
      Gives (.groupCommit s.g.core s.g.slot x.region) s fun t => same t ∧ t.mem = written ∧ t.g.txWord l = (w &&& ~~~5) ||| 0x20000 ∧ t.g.commits = [] ∧
        (k.held.all fun d => (t.die d).token.isNone) = true ∧ t.cur.pc = s.cur.pc + 4) ∧
    (open_ → x.atTend = true → x.atTabt = false → w.getLsbD 16 = true → stands = true → s.fallback = none → s.dies.all (fun d => d.token.isNone) = true → s.g.commits = [] →
      s.mem.readNat x.token.toNat 8 = x.iter.toNat →
      Gives (.orderedBatchCommit s.g.core s.g.slot x.region) s fun t => same t ∧ t.mem = written.writeNat x.token.toNat 8 (x.iter + 1).toNat ∧
        t.g.txWord l = (w &&& ~~~5) ||| 0x20000 ∧ t.cur.pc = s.cur.pc + 4) ∧
    (open_ → x.atTend = false → s.g.commits = [] → (s.core s.g.core).frozen = none → x.reads.all (fun e => e.kind == 0) = true →
      (s.clock < x.since + 65536 → exec (.txPeriodicValidation s.g.core s.g.slot l) s = .next s) ∧
      (x.since + 65536 ≤ s.clock → stands = true → Gives (.txPeriodicValidation s.g.core s.g.slot l) s fun t => same t ∧ t.mem = s.mem ∧ t.g.txst = s.g.txst ∧ (t.g.laneTx l).since = s.clock) ∧
      (x.since + 65536 ≤ s.clock → stands = false → Gives (.txPeriodicValidation s.g.core s.g.slot l) s fun t => same t ∧ t.mem = s.mem ∧ (t.g.txWord l).extractLsb' 8 4 = 2#4 ∧
        t.g.inTx l = true ∧ (t.g.laneTx l).retry = true ∧ t.g.save.any fun e => e.state = .parked .backoff && e.mask == s.exm && e.pc == x.restart)))

/-! ### Distributors and copy engines (R60, R197, R208, R213 to R216, R222, R223, R334 to R342) -/

/-- R213 to R216, R195, R197: the first unplaced unit of a launch of single workgroups goes to the core of the die with the most free slots among those it
fits, the lowest of equals, and its groups start at ENTRY; where it fits nowhere it stays. An idle distributor asks the die that reported most: the
victim gives up the upper half of its units, rounded up, which keep their indices; counts are reported when they have changed by 64, or after 2 µs. R208: a
draining group whose work is done leaves its slot; its workgroup ends with its last group, and its launch, with its last workgroup, completes and
writes DONE once no write waits to be performed at `sys` (`State.quiet`, R142). Reports between two dies arrive in their order (R9).
Completes here: `unitPlacement`, `passOverTimeout`, `stealRequestArrival`, `stealReplyArrival`, `countReportTimer`, `countReportArrival`, `groupDrainDone`.
Model choices that it rests on: log entries 42, 60, 87 and 88. -/
def Obligations.DistributorEvents : Prop :=
  (∀ (s : State) (die u : Nat) (rest : List Nat) (l : Launch), die < 4 → s.launches = [l] → l.complete = false → l.killed = false → l.faulted = false → l.clb = 0 → l.prio < 3 →
    l.unplaced[die]? = some (u :: rest) → l.toResume.getD die [] = [] →
    let fits := fun c => s.fitsCore c 1 l 0
    let free := fun c => (s.freeSlots c).length
    ((coresOf die).all (fun c => !fits c) = true → exec (.unitPlacement die) s = .next s) ∧
    (∀ c ∈ coresOf die, fits c = true → (∀ d ∈ coresOf die, fits d = true → free d < free c ∨ (free d = free c ∧ c ≤ d)) →
      let new := (List.range l.groups).map fun k => l.newGroup c ((s.freeSlots c).getD k 0) s.nextKey u k s.clock (s.nextId + k)
      Gives (.unitPlacement die) s fun t => t.mem = s.mem ∧ t.g = s.g ∧ t.groups = s.groups ++ new ∧
        t.wgs.map (fun w => (w.key, w.launch, w.index, w.core, w.groups)) = s.wgs.map (fun w => (w.key, w.launch, w.index, w.core, w.groups)) ++ [(s.nextKey, l.handle, u, c, l.groups)] ∧
        (t.launches.any fun x => x.unplaced[die]? == some rest) = true ∧
        (new.all fun h => decide (h.core = c ∧ h.launch = l.handle ∧ h.a.live = true ∧ h.a.pc = l.entry ∧ h.a.exm = h.lanes ∧ h.b.live = false ∧ h.save = [] ∧ h.status = .running ∧
          h.v = List.replicate (l.regs.getD 0 0) (List.replicate 32 0) ∧ h.p = List.replicate (l.regs.getD 2 0) 0 ∧ h.pcfg = 0 ∧ h.txst = List.replicate 32 0)) = true)) ∧
  (∀ (s : State) (die : Nat),
    let late := fun (l : Launch) => (l.passed.getD die none).any fun m => l.holds die m.1 && decide (m.2 ≤ s.clock)
    let stops := fun (l : Launch) => { l with passed := l.passed.set die ((l.passed.getD die none).map fun m => (m.1, 0)) }
    exec (.passOverTimeout die) s = .next { s with launches := s.launches.map fun l => if late l then stops l else l }) ∧
  (∀ (s : State) (victim thief : Nat), victim < 4 → thief < 4 → s.dies.length = 4 →
    (s.wantsSteal thief = false ∨ s.stealFrom thief ≠ some victim → exec (.stealRequestArrival victim thief) s = .next s) ∧
    (∀ l, s.launches = [l] → ∀ us, l.unplaced[victim]? = some us → s.wantsSteal thief = true → s.stealFrom thief = some victim → s.byPriority = [l] → us ≠ [] →
      Gives (.stealRequestArrival victim thief) s fun t => t.g = s.g ∧ t.mem = s.mem ∧ (t.die thief).stealing = some victim ∧
        (t.die thief).stolen = [(l.handle, us.drop (us.length / 2))] ∧ (t.launches.any fun x => x.unplaced[victim]? == some (us.take (us.length / 2))) = true) ∧
    ((s.die thief).stealing = none → exec (.stealReplyArrival thief) s = .next s) ∧
    (∀ l, s.launches = [l] → ∀ x, (s.die thief).stolen = [x] → ∀ old, l.unplaced[thief]? = some old → (s.die thief).stealing = some victim → x.1 = l.handle →
      Gives (.stealReplyArrival thief) s fun t => t.g = s.g ∧ t.mem = s.mem ∧ (t.die thief).stealing = none ∧
        ((t.launches[0]?).bind fun x => x.unplaced[thief]?).any (fun new => decide (new.Perm (old ++ x.2) ∧ new.Pairwise (· ≤ ·))) = true)) ∧
  (∀ (s : State) (die src count : Nat), die < 4 → src < 4 → die ≠ src → s.dies.length = 4 → s.dies.all (fun d => d.counts.length == 4) = true →
    let n := (s.launches.map fun l => (l.unplaced.getD die []).length).sum
    let due := (s.die die).reported + 64 ≤ n ∨ n + 64 ≤ (s.die die).reported ∨ (s.die die).reportedAt + 1880 ≤ s.clock
    (¬due → exec (.countReportTimer die) s = .next s) ∧
    (due → Gives (.countReportTimer die) s fun t => t.g = s.g ∧ t.mem = s.mem ∧ (t.die die).reported = n ∧ (t.die die).reportedAt = s.clock ∧
      (s.defer = true → t.reports = s.reports ++ (((List.range 4).filter fun d => d != die).map fun d => (die, d, n))) ∧
      (s.defer = false → t.reports = s.reports ∧ (t.die src).counts.getD die 0 = n ∧ (t.die src).freshReport = true)) ∧
    let oldest := s.reports.find? fun r => r.1 == src && r.2.1 == die
    (oldest = some (src, die, count) → Gives (.countReportArrival die src count) s fun t => t.g = s.g ∧ t.mem = s.mem ∧ t.reports = removeFirst (fun x => x == (src, die, count)) s.reports ∧
      (t.die die).counts.getD src 0 = count ∧ (t.die die).freshReport = true) ∧
    (oldest ≠ some (src, die, count) → exec (.countReportArrival die src count) s = .next s)) ∧
  (∀ (s : State) (core slot : Nat) (g : Group) (w : Workgroup) (l : Launch), slot < 64 → s.rrMode = 0 → s.groups ≠ [] → s.allGroups.filter (Group.at_ core slot) = [g] → g.launch = l.handle → l.handle ≠ 0 →
    s.wgAt g.wg = some w → s.launchOf g.launch = some l → g.lateFault = none → w.launch = l.handle → w.key = g.wg →
    (∀ x ∈ s.allGroups, x.ident = g.ident → x.at_ core slot = true) →
    let others := s.allGroups.any fun x => x.wg == g.wg && x.slot != 64 && x.launch != 0 && !x.at_ core slot
    (g.status ≠ .draining → exec (.groupDrainDone core slot) s = .next s) ∧
    (s.drained g = true → others = true → (s.allGroups.any fun x => x.wg == g.wg && x.slot != 64 && x.launch != 0 && !x.at_ core slot && decide (x.status ≠ .saved)) = true →
      Gives (.groupDrainDone core slot) s fun t => t.mem = s.mem ∧ t.groupAt core slot = none ∧ t.wgs = s.wgs) ∧
    (s.drained g = true → others = false → w.inst = none → l.complete = false → l.unplaced.all (fun u => u.isEmpty) = true → (s.dies.all fun d => d.stolen.isEmpty) = true →
      (s.wgs.all fun x => x.key == g.wg || x.launch != l.handle) = true →
      (s.quiet = false → Gives (.groupDrainDone core slot) s fun t => t.mem = s.mem ∧ t.groupAt core slot = none ∧ t.wgs = s.wgs.filter (fun x => x.key != g.wg) ∧
        (t.launchOf l.handle).map (fun x => x.complete) = some false) ∧
      (s.quiet = true → l.done = 0 → Gives (.groupDrainDone core slot) s fun t => t.mem = s.mem ∧ t.groupAt core slot = none ∧ t.wgs = s.wgs.filter (fun x => x.key != g.wg) ∧
        (t.launchOf l.handle).map (fun x => x.complete) = some true) ∧
      (s.quiet = true → l.done ≠ 0 → ∀ f, s.translate 0 l.asid l.root .store l.done = .leaf f →
        Gives (.groupDrainDone core slot) s fun t => t.mem = s.mem.writeNat (f.pa l.done) 8 l.status.toNat ∧ (t.launchOf l.handle).map (fun x => x.complete) = some true)))

/-- R222, R223, R334, R336, R60: the ready card at the head of a core's queue starts, waits while its guard is PENDING and is discarded when it is FALSE; each
element of a copy moves its 64 bytes, which are counted as arrived, those of the last element when the job ends (R334); a job that is done leaves, with its status word written; a suspended one goes on, or ends faulted, as its page
request is answered. R340, R341: a rotation moves on when its four cards stand at the heads of their queues: at each step the next 512 bytes of every core's tile reach the next
core, after the last one the cards end done; cards that do not agree end faulted with FMT.
Completes here: `engineJobStart`, `engineChunkArrival`, `engineJobEnd`, `engineJobResume`, `collectiveStart`.
Model choices that it rests on: log entries 45, 62 and 75. -/
def Obligations.EngineEvents : Prop :=
  (∀ (s : State) (core : Nat) (k : Core) (c : Card) (w : Workgroup), s.cores[core]? = some k → k.cards = [c] → k.queue = [c.seq] → s.wgAt c.wg = some w → w.key = c.wg → w.saved = false →
    (s.wgs.filter fun x => x.key == w.key) = [w] → c.kind = .job → c.ctl.getLsbD 43 = false →
    let card := fun (t : State) => (t.cores[core]?).map fun x => (x.cards, x.queue)
    let cells := fun (t : State) => (t.wgAt c.wg).map fun x => x.cells
    let status := fun (state elem code : Nat) => some (w.cells.writeNat c.stat 8 (elem * 2 ^ 32 + code * 2 ^ 8 + state))
    let guard := c.guard.map fun n => (k.guards.getD n {}).state
    (c.state = .ready →
      (guard = some .pending → exec (.engineJobStart core) s = .next s) ∧
      (guard = some .isFalse → Gives (.engineJobStart core) s fun t => t.mem = s.mem ∧ card t = some ([], []) ∧ cells t = status 3 0 0) ∧
      (guard = none ∨ guard = some .isTrue → Gives (.engineJobStart core) s fun t => t.mem = s.mem ∧ t.wgs = s.wgs ∧ card t = some ([{ c with state := .running }], [c.seq]))) ∧
    (c.state = .running → c.op = 0 → c.ssp = 1 → c.dsp = 1 → c.declared = false → c.launch = 0 → c.dst.toNat % 64 = 0 → c.len % 64 = 0 → c.dst.toNat + c.len ≤ 2 ^ 20 → c.src.toNat + c.len ≤ 2 ^ 20 →
      c.lost = false → (s.clusters.all fun x => x.intake.isEmpty) = true → s.msgs = [] → (s.fabric.all fun r => r.ident != engineIdent core) = true →
      (64 * c.next < c.len → c.arrived = c.next → s.bad = [] → Gives (.engineChunkArrival core c.seq c.next) s fun t => t.mem = s.mem ∧
        card t = some ([if 64 * (c.next + 1) < c.len then { c with next := c.next + 1, arrived := c.next + 1, delivered := c.delivered + 64 } else { c with next := c.next + 1 }], [c.seq]) ∧
        cells t = some (w.cells.writeBytes (c.dst.toNat + 64 * c.next) (w.cells.readBytes (c.src.toNat + 64 * c.next) 64))) ∧
      (c.len ≤ 64 * c.next →
        Gives (.engineJobEnd core c.seq) s fun t => t.mem = s.mem ∧ card t = some ([], []) ∧ cells t = status 0 0 0)) ∧
    (c.state = .suspended → ∀ n q, k.serving = none → k.frozenPosted = false → k.pages = [q] → q.event.card = some c.seq → q.entries = [n] → q.refused = false →
      let ring := s.module * 2 ^ 43 + 0x68000000000 + 0x1000 + 64 * n + 16
      (s.mem.readNat ring 8 < 2 → exec (.engineJobResume core c.seq) s = .next s) ∧
      (s.mem.readNat ring 8 = 2 → Gives (.engineJobResume core c.seq) s fun t => t.mem = s.mem.writeNat ring 8 0 ∧ t.wgs = s.wgs ∧ card t = some ([{ c with state := .running }], [c.seq])) ∧
      (s.mem.readNat ring 8 = 3 → Gives (.engineJobResume core c.seq) s fun t => t.mem = s.mem.writeNat ring 8 0 ∧ card t = some ([], []) ∧ cells t = status 1 c.next codePageNp))) ∧
  (∀ (s : State) (cluster n : Nat) (a b c d : Nat × Card),
    (s.partyCards cluster = none → exec (.collectiveStart cluster) s = .next s) ∧
    (s.partyCards cluster = some [a, b, c, d] → a.2.kind = .rotate n → s.bad = [] → [a, b, c, d].Pairwise (fun x y => x.2.wg ≠ y.2.wg) →
      let tile := fun (t : State) (x : Nat × Card) off => (t.wgAt x.2.wg).map fun w => w.cells.readBytes off 512
      let alike := [b, c, d].all fun x => rotLen x.2.src == rotLen a.2.src
      let word := fun (t : State) (x : Nat × Card) => (t.wgAt x.2.wg).map fun w => w.cells.readNat x.2.stat 8
      let k := 512 * a.2.next
      (s.wgs.all fun w => Memory.wf w.cells) = true →
      (alike = true → k < rotLen a.2.src →
        Gives (.collectiveStart cluster) s fun t => t.mem = s.mem ∧
          tile t b (tileDst b.2.src + k) = tile s a (tileSrc a.2.src + k) ∧ tile t c (tileDst c.2.src + k) = tile s b (tileSrc b.2.src + k) ∧
          tile t d (tileDst d.2.src + k) = tile s c (tileSrc c.2.src + k) ∧ tile t a (tileDst a.2.src + k) = tile s d (tileSrc d.2.src + k) ∧
          ∀ x ∈ [a, b, c, d], ([a, b, c, d].filter fun y => y.1 == x.1) = [x] → x.1 < s.cores.length → s.cardOf x.1 x.2.seq = some x.2 →
            t.cardOf x.1 x.2.seq = some { x.2 with state := .running, next := x.2.next + 1 }) ∧
      (alike = true → rotLen a.2.src ≤ k →
        Gives (.collectiveStart cluster) s fun t => t.mem = s.mem ∧ ([a, b, c, d].all fun x => word t x == some 0) = true) ∧
      (alike = false → (∀ x ∈ [a, b, c, d], ∀ y ∈ (s.core x.1).cards, y.edges = []) →
        Gives (.collectiveStart cluster) s fun t => t.mem = s.mem ∧ ([a, b, c, d].all fun x => word t x == some (codeFmt * 2 ^ 8 + 1)) = true)))

/-! ### The host, control registers, replay and sampling (R77, R176 to R181, R365, R370 to R378) -/

/-- R176, R179, R181, R380: the host reads and writes the coherent windows through BAR2 and HBM behind HBMWIN through BAR4; an AtomicOp on BAR2 answers
the old value and is performed in one step; one that PCI Express does not have, and an access past the end of HBM, is answered with Unsupported
Request. Before boot stage 4 reads answer zeros and writes do nothing.
Completes here: `hostReadBar2`, `hostWriteBar2`, `hostAtomicopBar2`, `hostReadBar4`, `hostWriteBar4`.
Model choices that it rests on: log entries 37, 40, 43, 57 and 62. -/
def Obligations.HostRequests : Prop :=
  ∀ (s : State) (op off size : Nat) (data : List Byte) (operand compare : BitVec 128), s.wheels = [] → s.hostBusy = false → s.rrMode = 0 → (s.fabric.any fun r => r.posted && r.host) = false → s.hostLines = [] → s.hostCopies = [] → size ≠ 0 → data.length = size →
    off / 4096 = (off + size - 1) / 4096 →
    let booted := 4 ≤ (s.ctl.bootstat.extractLsb' 0 4).toNat
    let window := s.module * 2 ^ 43 + 0x68000000000 + off / 2 ^ 20 * 0x2000000 + off % 2 ^ 20
    let hbm := s.module * 2 ^ 43 + s.ctl.hbmwin.toNat + off
    let kept := fun (t : State) => t.g.v = s.g.v ∧ t.g.s = s.g.s ∧ t.wgs = s.wgs
    let answers := fun (i : Instr) (mem : Cells) (r : HostReply) => Gives i s fun t => kept t ∧ t.mem = mem ∧ t.hostOut = s.hostOut ++ [r]
    let zeros := HostReply.data (List.replicate size 0)
    (¬booted → exec (.hostWriteBar2 off data) s = .next s ∧ exec (.hostWriteBar4 off data) s = .next s) ∧
    (off + size ≤ 2 ^ 22 →
      (booted → Gives (.hostWriteBar2 off data) s (fun t => kept t ∧ t.mem = s.mem.writeBytes window data ∧ t.hostOut = s.hostOut) ∧
        answers (.hostReadBar2 off size) s.mem (.data (s.mem.readBytes window size))) ∧
      (¬booted → answers (.hostReadBar2 off size) s.mem zeros) ∧
      (let old := s.mem.readNat window size
       let m := 2 ^ (8 * size)
       let new := if op = 0 then (old + operand.toNat) % m else if op = 1 then operand.toNat % m else if old = compare.toNat % m then operand.toNat % m else old
       let fits := op < 3 ∧ (size = 4 ∨ size = 8 ∨ (size = 16 ∧ op = 2)) ∧ off % size = 0
       (¬fits → answers (.hostAtomicopBar2 op off size operand compare) s.mem .unsupported) ∧
       (fits → booted → answers (.hostAtomicopBar2 op off size operand compare) (s.mem.writeNat window size new) (.data (toBytes size old))) ∧
       (fits → ¬booted → answers (.hostAtomicopBar2 op off size operand compare) s.mem zeros))) ∧
    (off + size ≤ 2 ^ 41 →
      (¬booted → answers (.hostReadBar4 off size) s.mem zeros) ∧
      (booted → 0x14000000000 < s.ctl.hbmwin.toNat + off + size → answers (.hostReadBar4 off size) s.mem .unsupported ∧ answers (.hostWriteBar4 off data) s.mem .unsupported) ∧
      (booted → s.ctl.hbmwin.toNat + off + size ≤ 0x14000000000 → answers (.hostReadBar4 off size) s.mem (.data (s.mem.readBytes hbm size)) ∧
        Gives (.hostWriteBar4 off data) s fun t => kept t ∧ t.mem = s.mem.writeBytes hbm data ∧ t.hostOut = s.hostOut))

/-- R178, Table 09-6: an aligned write of 4 or 8 bytes to the control range has the effect of its register; any other does nothing. A 4-byte write of a
register that holds what is written replaces that half of it; of a register that acts, the low half acts. The host's write acts alike, behind its earlier posted
writes (R176), but that it raises no MSI-X vector. R177: supervisor code raises MSI-X vectors. R77: Cave window entries are decided in ascending number.
R365: LKILL ends a launch, with TREE those spawned from it at any depth too. R371: DBGSTOP asks the groups of a launch to stop while a debugger is attached.
R372: DUMPREL releases every core.
Completes here: `controlRegisterWrite`, `cavewinWrite`, `msixtrigWrite`, `lkillKill`, `lkillKillTree`, `dbgstopWrite`, `dumprelWrite`.
Model choices that it rests on: log entries 29, 43 and 66. -/
def Obligations.ControlRegisterEvents : Prop :=
  (∀ (s : State) (byHost : Bool) (addr size n : Nat) (x : W64),
    let sets := fun off (c : Ctl) => exec (.controlRegisterWrite false off 8 x) s = .next { s with ctl := c }
    let c := s.ctl
    let acts := fun off (o : Out) => exec (.controlRegisterWrite false off 8 x) s = o
    let low := BitVec.ofNat 32 x.toNat
    let write := fun (host : Bool) => exec (.controlRegisterWrite host addr size x) s
    let acting := [0x810, 0x1000, 0x3008, 0x3028, 0x3038, 0x4010, 0x4040, 0x4100]
    (∃ t, write byHost = .next t) ∧
    (addr < 2 ^ 30 → (size ≠ 4 ∧ size ≠ 8) ∨ addr % size ≠ 0 → write byHost = .next s) ∧
    (2 ^ 30 ≤ addr → 0x6C000000000 ≤ localOf addr → localOf addr < 0x6C040000000 →
      write byHost = exec (.controlRegisterWrite byHost (localOf addr - 0x6C000000000) size x) s) ∧
    (2 ^ 30 ≤ addr → localOf addr < 0x6C000000000 ∨ 0x6C040000000 ≤ localOf addr → write byHost = .next s) ∧
    (s.hostBusy = true → write true = .next s) ∧
    (s.hostBusy = false → addr < 2 ^ 30 → size = 4 ∨ size = 8 → addr % size = 0 → write true = exec (.controlRegisterWrite true addr size x) s.afterPosted) ∧
    (s.hostBusy = false → s.hostLines = [] → addr < 2 ^ 30 → write true = if addr / 8 = 0x102 then .next s else write false) ∧
    (addr < 2 ^ 30 → addr % 8 = 0 → acting.elem addr = false → ∀ half < 2, exec (.controlRegisterWrite false (addr + 4 * half) 4 x) s =
      exec (.controlRegisterWrite false addr 8 (setField (BitVec.ofNat 64 (s.ctlWord addr)) (32 * half) 32 x.toNat)) s) ∧
    (addr ∈ acting → exec (.controlRegisterWrite false addr 4 x) s = exec (.controlRegisterWrite false addr 8 (x &&& 0xFFFFFFFF)) s) ∧
    (addr ∈ acting → addr ≠ 0x3028 → addr ≠ 0x3038 → exec (.controlRegisterWrite false (addr + 4) 4 x) s = .next s) ∧
    exec (.controlRegisterWrite false 0x302C 4 x) s = exec .dumprelWrite s ∧ exec (.controlRegisterWrite false 0x303C 4 x) s = exec (.rrstatClear (x <<< 32)) s ∧
    sets 0x800 { c with hbmwin := x &&& 0x7F000000000 } ∧ sets 0x808 { c with fabtmo := BitVec.ofNat 64 (max 16 (min 1000000 (x.toNat % 2 ^ 32))) } ∧
    (n < 32 → sets (0x900 + 8 * n) { c with tilemask := c.tilemask.set n low }) ∧ sets 0x2008 { c with eccwin := x } ∧ sets 0x818 c ∧
    (x.toNat % 16 ≠ 0 → sets 0x2000 { c with eccthr := BitVec.ofNat 64 (x.toNat % 16) }) ∧ sets 0x3018 { c with smpbuf := x &&& ~~~0xFFF } ∧ sets 0x3020 { c with smpsz := x &&& 0xFFFFFFFF } ∧
    sets 0x3000 { c with dbgctl := x &&& 1, wasAttached := c.wasAttached || x.getLsbD 0 } ∧ sets 0x4110 { c with pcap := BitVec.ofNat 64 (max 1500 (min 5600 (x.toNat % 2 ^ 16))) } ∧
    acts 0x810 (exec (.msixtrigWrite false x) s) ∧ acts 0x1000 (if x.getLsbD 32 then exec (.lkillKillTree low) s else exec (.lkillKill low) s) ∧
    acts 0x3008 (exec (.dbgstopWrite low) s) ∧ acts 0x3028 (exec .dumprelWrite s) ∧ acts 0x3038 (exec (.rrstatClear x) s) ∧ acts 0x4040 (exec (.fwctlVerify x) s) ∧
    acts 0x3030 (if x.toNat % 4 = 0 then exec (.rrctlModeOff x) s else if x.toNat % 4 = 1 then exec (.rrctlModeRecord x) s else if x.toNat % 4 = 2 then exec (.rrctlModeReplay x) s else .next s) ∧
    acts 0x4100 (if x.toNat % 4 = 0 then exec .pwrctlActive s else if x.toNat % 4 = 1 then exec .pwrctlIdle s else if x.toNat % 4 = 2 then exec .pwrctlRetain s else .next s) ∧
    acts 0x4010 (if x.getLsbD 0 then exec .attctlStart s else .next s) ∧
    (n < 128 → acts (0xA00 + 8 * n) (exec (.cavewinWrite (n / 32) (n % 32 / 2) (n % 2) x) s)) ∧
    exec (.msixtrigWrite true x) s = .next s ∧
    ((s.fabric.any fun r => r.posted && r.host) = false → exec (.msixtrigWrite false x) s = .next { s with msix := s.msix ++ [x.toNat % 64] })) ∧
  (∀ (s : State) (die entry n : Nat) (x : W64) (d : Die), s.dies[die]? = some d → die < 4 → d.caveWin.length = 16 → entry < 16 → n < 16 → s.wheels = [] →
    let old := d.caveWin.getD entry 0
    let asked := fun (word : Nat) => d.caveWin.set entry (if word = 0 then (old &&& ~~~(0x1FFF#128)) ||| ((x &&& 0x1FFF).setWidth 128)
      else (old &&& ~~~(0x1FF000001FF#128 <<< 64)) ||| (((x &&& 0x1FF000001FF).setWidth 128) <<< 64))
    let off := fun (e : BitVec 128) => (e.extractLsb' 64 9).toNat
    let len := fun (e : BitVec 128) => (e.extractLsb' 96 9).toNat
    let clash := fun (e f : BitVec 128) => e.extractLsb' 0 12 = f.extractLsb' 0 12 ∨ (off e < off f + len f ∧ off f < off e + len e)
    ∀ word < 2, Gives (.cavewinWrite die entry word x) s fun t => t.g = s.g ∧ t.mem = s.mem ∧ ((t.die die).caveWin.length = 16 ∧
      let e := (asked word).getD n 0
      let now := fun k => (t.die die).caveWin.getD k 0
      let used := e.getLsbD 12 && decide (len e ≠ 0 ∧ off e + len e ≤ 320) && !((List.range n).any fun k => (now k).getLsbD 12 && decide (clash e (now k)))
      now n = if used then e else e &&& ~~~(0x1000#128))) ∧
  (∀ (s : State) (h : W32),
    let ended := fun (t : State) (k : Nat) => (t.launchOf k).any (fun l => l.killed && l.unplaced.all List.isEmpty) = true ∧
      (t.allGroups.all fun g => g.launch != k || g.slot == 64 || decide (g.status = .draining)) = true
    let live := fun k => ((s.launchOf k).any fun l => !l.complete) = true
    let childOf := fun (k a : Nat) => ((s.launchOf k).any fun l => l.parent == a) = true
    ((s.launchOf h.toNat).all (fun l => l.complete) = true → exec (.lkillKill h) s = .next s) ∧
    (live h.toNat → Gives (.lkillKill h) s fun t => ended t h.toNat) ∧
    (s.launchOf h.toNat = none → exec (.lkillKillTree h) s = .next s) ∧
    (s.launchOf h.toNat ≠ none → Gives (.lkillKillTree h) s fun t => ∀ chain : List Nat, chain.head? = some h.toNat →
      (∀ i, i + 1 < chain.length → childOf (chain.getD (i + 1) 0) (chain.getD i 0)) → ∀ k ∈ chain, live k → ended t k) ∧
    (s.ctl.dbgctl.getLsbD 0 = false ∨ h = 0 → exec (.dbgstopWrite h) s = .next s) ∧
    (s.ctl.dbgctl.getLsbD 0 = true → h ≠ 0 → Gives (.dbgstopWrite h) s fun t => t.mem = s.mem ∧
      t.allGroups = s.allGroups.map fun g => { g with stopAsked := g.stopAsked || (g.launch == h.toNat && g.slot != 64) }) ∧
    Gives .dumprelWrite s fun t => t.mem = s.mem ∧ (∀ c, c < 128 → (t.core c).frozen = none))

/-- R370, R376 to R378: a write of MODE 1 or 2 drops the enabled lines from every L1. Recording starts with the logs of the enabled lines and the hash logs
cleared, which stand in the Caves (R376, R426), and no other byte of memory changes; with a line's log its mark OVF is cleared, which is the model's choice (log
entry 83). Replay starts with every gate closed at the head of its log. Ones written to RRSTAT clear
its bits; a gate at which a request has waited for 1 ms reports divergence and opens. R375: a sample of the next group with a live path is written to the
core's part of the sampling buffer, an interval after the last one, or goes as a unit to a vat-managed wheel (R110).
Completes here: `rrctlModeOff`, `rrctlModeRecord`, `rrctlModeReplay`, `rrstatClear`, `replayGateTimeout`, `sampleTimer`.
Model choices that it rests on: log entries 27, 41 and 83. -/
def Obligations.ReplayAndSamplingEvents : Prop :=
  (∀ (s : State) (x : W64), s.hostCopies = [] →
    let fields := x &&& 0xFFFFFFFF000000FC
    let lines := s.dies.flatMap fun d => (d.recLines.filter fun r => r.entry.getLsbD 64).map fun r => (r.entry.extractLsb' 6 46).toNat * 64
    let forgotten := fun (t : State) => ∀ l ∈ lines, t.dirOf l = none ∧ ∀ core, t.l1Of core l = none
    let entry := fun (t : State) die k => (t.die die).recLines.getD k {}
    let log := fun die k a => k < 64 ∧ (entry s die k).entry.getLsbD 64 = true ∧ s.chunkPa die k 0 ≤ a ∧ a < s.chunkPa die k 0 + 4096
    let hashes := fun die a => s.hashPa die 0 ≤ a ∧ a < s.hashPa die 0 + 16 * (s.die die).hashNum
    exec (.rrctlModeOff x) s = .next { s with ctl := { s.ctl with rrctl := fields } } ∧
    exec (.rrstatClear x) s = .next { s with ctl := { s.ctl with rrstat := s.ctl.rrstat &&& ~~~x } } ∧
    Gives (.rrctlModeRecord x) s (fun t => t.g.v = s.g.v ∧ t.g.s = s.g.s ∧ forgotten t ∧ t.ctl = { s.ctl with rrctl := fields ||| 1, wasRecorded := true } ∧
      (∀ die, die < 4 → (t.die die).hashNum = 0) ∧
      (∀ die k, entry t die k = if (entry s die k).entry.getLsbD 64 then { entry := (entry s die k).entry &&& ~~~(BitVec.ofNat 128 (2 ^ 65)) } else entry s die k) ∧
      (Memory.wf s.mem = true → (∀ die k a, die < 4 → log die k a ∨ hashes die a → t.mem.read a = 0) ∧
        ∀ a, (∀ die k, die < 4 → ¬log die k a ∧ ¬hashes die a) → t.mem.read a = s.mem.read a)) ∧
    Gives (.rrctlModeReplay x) s (fun t => t.mem = s.mem ∧ t.g.v = s.g.v ∧ t.g.s = s.g.s ∧ forgotten t ∧ t.ctl = { s.ctl with rrctl := fields ||| 2, wasRecorded := true } ∧
      (∀ die k, k < (s.die die).recLines.length → entry t die k = { entry := (entry s die k).entry, moved := s.tstamp.toNat }))) ∧
  (∀ (s : State) (die entry : Nat) (r : RecLine) (d : Die), s.dies[die]? = some d → d.recLines[entry]? = some r →
    let opened := fun (t : State) => ((t.dies[die]?).bind fun x => x.recLines[entry]?).any (fun y => decide (y.opened = true ∧ y.waiting = none ∧ y.entry = r.entry)) = true
    (r.waiting = none → exec (.replayGateTimeout die entry) s = .next s) ∧
    (∀ w, r.waiting = some w → (s.tstamp.toNat < r.moved + 1000000 ∨ s.rrMode ≠ 2 ∨ r.opened = true → exec (.replayGateTimeout die entry) s = .next s) ∧
      (r.moved + 1000000 ≤ s.tstamp.toNat → s.rrMode = 2 → r.opened = false → ((s.groupAt w.core w.slot).any fun g => g.launch == s.rrHandle) = true →
        Gives (.replayGateTimeout die entry) s fun t => opened t ∧ t.ctl.rrstat.getLsbD 0 = true ∧ t.g.v = s.g.v ∧ t.g.s = s.g.s) ∧
      (r.moved + 1000000 ≤ s.tstamp.toNat → s.rrMode = 2 → r.opened = false → ((s.groupAt w.core w.slot).any fun g => g.launch == s.rrHandle) = false →
        Gives (.replayGateTimeout die entry) s fun t => t.g = s.g ∧ t.mem = s.mem ∧ t.ctl = s.ctl ∧
          ((t.dies[die]?).bind fun x => x.recLines[entry]?) = some { r with waiting := none }))) ∧
  (∀ (s : State) (core j : Nat) (k : Core) (g : Group), core < 128 → s.cores[core]? = some k → s.hostCopies = [] → s.stores = [] →
    let interval := (s.ctl.smpctl.extractLsb' 1 5).toNat
    let due := s.ctl.smpctl.getLsbD 0 = true ∧ 8 ≤ interval ∧ interval ≤ 24 ∧ k.smpDue ≤ s.clock ∧ k.smpPos + 32 ≤ s.ctl.smpsz.toNat
    let pa := s.module * 2 ^ 43 + (s.ctl.smpbuf.toNat + core * s.ctl.smpsz.toNat + k.smpPos) % 2 ^ 43
    let at_ := fun (i : Nat) => s.groupAt core ((k.smpLast + 1 + i) % 64)
    let paths := fun (h : Group) => h.a.live || h.b.live || !h.save.isEmpty
    let now := fun (t : State) (pos last : Nat) => ((t.cores[core]?).any fun x => decide (x.smpDue = s.clock + 2 ^ interval ∧ x.smpPos = pos ∧ x.smpLast = last)) = true
    let next := j < 64 ∧ at_ j = some g ∧ paths g = true ∧ ∀ i, i < j → (at_ i).all (fun h => !paths h) = true
    (¬due → exec (.sampleTimer core) s = .next s) ∧
    (due → (∀ i, i < 64 → (at_ i).all (fun h => !paths h) = true) → Gives (.sampleTimer core) s fun t => t.g = s.g ∧ t.mem = s.mem ∧ now t k.smpPos k.smpLast) ∧
    (due → next → Gives (.sampleTimer core) s fun t => t.g.v = s.g.v ∧ t.g.s = s.g.s ∧ now t (k.smpPos + 32) g.slot ∧
      ((∀ i, i < 32 → s.route 0 (pa + i) ≠ .vat) → t.mem = s.mem.writeBytes pa (s.sampleOf g)) ∧
      (s.route 0 pa = .vat → pa % 64 ≤ 32 → s.defer = true → owningCluster (wheelOf pa) < s.clusters.length → t.mem = s.mem ∧
        (t.cluster (owningCluster (wheelOf pa))).intake = (s.cluster (owningCluster (wheelOf pa))).intake ++
          [{ ident := noIdent, core := core, wheel := wheelOf pa, reqs := storeReqs 32 pa (s.sampleOf g) }]) ∧
      (s.sampleOf g).length = 32 ∧ (s.sampleOf g).take 14 = toBytes 8 s.tstamp.toNat ++ toBytes 4 (s.module * 2 ^ 11 + g.core / 32 * 2 ^ 9 + g.core % 32) ++ toBytes 1 g.slot ++ ((s.sampleOf g).drop 13).take 1))

/-! ### Firmware, attestation, power, temperature, reset and boot (R19, R380 to R387) -/

/-- R381 to R384: a verification of the staged image runs once at a time and accepts it exactly if its signature, its body's digest and its version do; an
attestation copies the nonce when it starts and, when it is done, has written its report to the coherent window.
Completes here: `fwctlVerify`, `fwVerifyDone`, `attctlStart`, `attestationDone`.
Model choices that it rests on: log entries 34 and 35. -/
def Obligations.FirmwareEvents : Prop :=
  ∀ (s : State) (x : W64),
    let c := s.ctl
    let verifying := c.fwstat.getLsbD 2
    let busy := c.attctl.getLsbD 1
    let img := c.fwstg
    let len := img.readNat 0x0C 4
    let good := Config.signatureOk (img.readBytes 0 0x40 ++ img.readBytes 0x40 2420) = true ∧
      img.readBytes 0x10 32 = (List.range 32).map (Config.sha3 (img.readBytes 4096 (len - 4096))) ∧ s.minSvn ≤ img.readNat 0x08 4
    let report := s.module * 2 ^ 43 + 0x68000003000
    (verifying = true → exec (.fwctlVerify x) s = .next s) ∧
    (verifying = false → x.getLsbD 0 = true → Gives (.fwctlVerify x) s fun t => t.g = s.g ∧ t.mem = s.mem ∧ t.ctl.fwstat = c.fwstat ||| 4 ∧ t.ctl.fwctl.getLsbD 1 = x.getLsbD 1) ∧
    (verifying = false → exec .fwVerifyDone s = .next s) ∧
    (verifying = true → Gives .fwVerifyDone s fun t => t.g = s.g ∧ t.mem = s.mem ∧ (¬good → t.ctl.fwstat = 2) ∧
      (good → t.ctl.fwstat.getLsbD 0 = true ∧ t.ctl.fwstat.getLsbD 1 = false ∧ t.ctl.fwstat.getLsbD 2 = false ∧
        t.ctl.fwstat.getLsbD 3 = c.fwctl.getLsbD 1 ∧ (t.ctl.fwstat.extractLsb' 32 32).toNat = img.readNat 0x08 4)) ∧
    (busy = true → exec .attctlStart s = .next s) ∧
    (busy = false → Gives .attctlStart s fun t => t.g = s.g ∧ t.mem = s.mem ∧ t.ctl.attctl = 2 ∧ t.ctl.nonceCopy = c.attnonce) ∧
    (busy = false → exec .attestationDone s = .next s) ∧
    (busy = true → c.nonceCopy.length = 32 → Gives .attestationDone s fun t => t.ctl.attctl = 0 ∧ t.g.v = s.g.v ∧ t.g.s = s.g.s ∧
      t.mem = s.mem.writeBytes report s.attestation ∧ s.attestation.length = 4096 ∧ s.attestation.take 8 = toBytes 8 1 ∧ (s.attestation.drop 16).take 32 = c.nonceCopy)

/-- R385 to R387, Tables 21-3 and 21-1: PWRCTL puts the module into a power state, RETAIN only while no launch has a group; the power cap chooses a clock; a
hot junction lowers it and raises MSI-X vector 4 once; a trip and a reset leave the module as reset does but for memory, what is fused and the record of retired locations, with a staged
image in place; a line that a cache held (`State.heldLines`) reads as free values afterwards (log entry 1). R380: a boot stage that succeeds does its work and the next begins: stage 2 clears the Caves, stage 3 sets the vector bases, stage 4 starts the
supervisor, stage 5 joins the domain; the time stamp stands still to the end of stage 2 and does not decrease (R19); one that fails, as stage 1 or 3 does
for an image whose version is below the least that is allowed (R381), stops the boot with its number recorded.
Completes here: `pwrctlActive`, `pwrctlIdle`, `pwrctlRetain`, `powerCapWindow`, `thermalThrottle`, `thermalTrip`, `moduleReset`, `bootStageDone`.
Model choices that it rests on: log entries 1, 7, 10, 35 to 39, 64 and 90 (PWRCTL of state 0 or 1 clears PWRSTAT[8]). -/
def Obligations.PowerAndBootEvents : Prop :=
  (∀ (s : State) (mhz die a : Nat) (reading : Byte),
    let c := s.ctl
    let sets := fun (i : Instr) (c' : Ctl) => exec i s = .next { s with ctl := c' }
    let launched := s.allGroups.any fun g => g.slot != 64 && g.launch != 0
    sets .pwrctlActive { c with pwrctl := 0, pwrstat := 0 } ∧ sets .pwrctlIdle { c with pwrctl := 1, pwrstat := 1 } ∧
    sets .pwrctlRetain (if launched then { c with pwrctl := 2, pwrstat := c.pwrstat ||| 0x100 } else { c with pwrctl := 2, pwrstat := 2 }) ∧
    sets (.powerCapWindow mhz) (if 400 ≤ mhz ∧ mhz ≤ 940 ∧ mhz % 20 = 0 then { c with clknow := BitVec.ofNat 64 mhz } else c) ∧
    (die < 4 → s.dies.length = 4 → (s.fabric.any fun r => r.posted && r.host) = false → Gives (.thermalThrottle die reading) s fun t => t.g = s.g ∧ t.mem = s.mem ∧ (t.die die).therm = reading ∧
      t.ctl = { c with clknow := BitVec.ofNat 64 (max 400 (c.clknow.toNat - 20)) } ∧ t.msix = if s.dies.any (fun d => d.hot) then s.msix else s.msix ++ [4]) ∧
    (let fresh := fun (t : State) => t.g = State.reset.g ∧ t.groups = State.reset.groups ∧ t.cores = State.reset.cores ∧ t.clusters = State.reset.clusters ∧ t.launches = [] ∧ t.wgs = [] ∧ t.tlbs = [] ∧
       t.l1 = [] ∧ t.dir = [] ∧ t.clock = 0 ∧ t.tstamp = 0 ∧ t.module = s.module ∧ (s.heldLines = [] → t.mem = s.mem) ∧
       (Memory.wf s.mem = true → (∀ l ∈ s.heldLines, a < l ∨ l + 64 ≤ a) → t.mem.read a = s.mem.read a) ∧ t.poison = s.poison ∧ t.offWays = s.offWays ∧ t.minSvn = if c.fwstat.getLsbD 0 then max s.minSvn (c.fwstat.extractLsb' 32 32).toNat else s.minSvn
     Gives .moduleReset s (fun t => fresh t ∧ t.dies = (State.reset.dies.mapIdx fun i d => { d with retired := (s.die i).retired }) ∧ t.ctl = State.reset.ctl) ∧
     (die < 4 → Gives (.thermalTrip die reading) s fun t => fresh t ∧ t.ctl = { State.reset.ctl with bootstat := 0x2001 } ∧ (t.die die).therm = reading))) ∧
  (∀ (s : State) (a core : Nat) (ok : Bool),
    let st := s.ctl.bootstat
    let stage := (st.extractLsb' 0 4).toNat
    let cave := s.module * 2 ^ 43 + 0x68000000000
    let fits := (stage ≠ 1 ∧ stage ≠ 3) ∨ s.minSvn = 0 ∨ s.minSvn ≤ s.svnOf (stage == 3)
    let fails := fun (t : State) => t.mem = s.mem ∧ t.g = s.g ∧ t.ctl.bootstat.getLsbD 12 = true ∧ (t.ctl.bootstat.extractLsb' 8 4).toNat = stage ∧ (t.ctl.bootstat.extractLsb' 0 4).toNat = stage
    (stage = 1 ∨ stage = 2 → s.tick.tstamp = s.tstamp) ∧ (stage ≠ 1 → stage ≠ 2 → s.tick.tstamp = s.tstamp + BitVec.ofNat 64 s.dtNs) ∧
    (st.getLsbD 12 = true ∨ stage = 0 ∨ 5 < stage ∨ s.ctl.joined = true → exec (.bootStageDone ok) s = .next s) ∧
    (st.getLsbD 12 = false → s.ctl.joined = false → stage = 5 → Gives (.bootStageDone true) s fun t => t.mem = s.mem ∧ t.g = s.g ∧ t.ctl.joined = Config.fabricConfigured ∧ s.tstamp.toNat ≤ t.tstamp.toNat) ∧
    (st.getLsbD 12 = false → s.ctl.joined = false → 1 ≤ stage → stage < 5 →
      Gives (.bootStageDone false) s fails ∧ (¬fits → Gives (.bootStageDone true) s fails) ∧
      (fits → Gives (.bootStageDone true) s fun t => (t.ctl.bootstat.extractLsb' 0 4).toNat = stage + 1 ∧ t.ctl.bootstat.getLsbD 12 = false ∧
        t.tstamp = s.tstamp ∧ (stage ≠ 2 → stage ≠ 3 → t.mem = s.mem) ∧
        (stage = 3 → Memory.wf s.mem = true → s.imagePlace a = false → t.mem.read a = s.mem.read a) ∧
        (stage = 2 → Memory.wf s.mem = true → t.mem.read a = if cave ≤ a ∧ a < cave + 0x8000000 then 0 else s.mem.read a) ∧
        (stage = 3 → core < s.cores.length → (t.core core).vbase = Config.vectorBase core) ∧
        (stage = 4 → t.roots = Config.rootTables) ∧
        (stage = 4 → s.groupAt 0 0 = none → s.groups ≠ [] → (t.groupAt 0 0).any (fun g => g.sup && g.a.live && g.a.pc == Config.supervisorEntry) = true))))

/-! ### The machine as a whole -/

/-- A step runs the decoded instruction (R68, R233, R253). When the agenda gives a path its turn, the path does not give way (R240, R263) and may
issue, the word at its program counter is fetched and decoded and the step is exec of that instruction; a word that no form has raises IIN; a fetch that
fails takes its trap. A stall count holds every word but a hint (R234, R240). A trap context in its resident routines takes a turn of them. A path that may
not issue does nothing. An event on the agenda is performed, but in RETAIN none of the cores, engines and distributors, whose clocks stand (R385); an empty agenda leaves the choice to the default policy (the model's, log entry 3). With
nothing deferred the word is the four bytes of memory at the physical address, unless the instruction cache holds the line.
Model choices that it rests on: log entries 3, 11 and 78. -/
def Obligations.StepRunsDecoded : Prop :=
  (∀ (s : State) (core slot : Nat) (inB : Bool) (rest : List Turn), s.settled.agenda = .issue core slot inB :: rest →
    let t := { s.settled with agenda := rest }
    let u := t.onPath core slot inB
    let held := fun (w : W32) => u.clock < u.cur.readyAt ∧ isHint w = false
    (t.givesWay core slot inB = true ∨ u.g.at_ core slot = false ∨ u.mayIssue u.g inB = false → step s = .next t) ∧
    (t.givesWay core slot inB = false → u.g.at_ core slot = true → u.mayIssue u.g inB = true →
      (slot = 64 → u.resident = true → step s = .next ((u.residentTurn core).getD u)) ∧
      (slot ≠ 64 ∨ u.resident = false →
        (u.g.stopAsked = true → step s = u.takeStop) ∧
        (u.g.stopAsked = false →
          (∀ w v, u.fetch = .ok (w, v) → (held w → step s = .next u) ∧
            (¬held w → (∀ i, decode w = some i → step s = exec i v) ∧ (decode w = none → step s = v.takeTrap { code := codeIIN }))) ∧
          (∀ e, u.fetch = .error e → step s = u.raise e) ∧ (∀ tr, u.fetch = .error (.trap tr) → step s = u.takeTrap tr) ∧
          (∀ v tr, u.fetch = .error (.trapAfter v tr) → step s = v.takeTrap tr))))) ∧
  (∀ (s : State) (i : Instr) (rest : List Turn), s.settled.agenda = .event i :: rest → i.isWord = false →
    step s = if s.settled.retained && Instr.onCore i then .next { s.settled with agenda := rest } else exec i { s.settled with agenda := rest }) ∧
  (∀ s : State, s.settled.agenda = [] → (s.settled.choose = none → step s = .next s.settled) ∧ (∀ act, s.settled.choose = some act → step s = act s.settled)) ∧
  (∀ s : State, s.defer = false → (∀ row, s.check s.who .fetch false 4 s.cur.pc = .fails row →
      s.fetch = .error (.trap { code := rowCode row, addr := s.cur.pc, info := Kind.fetch.info })) ∧
    (∀ f, s.check s.who .fetch false 4 s.cur.pc = .passes f →
      let pa := f.pa s.cur.pc
      let t := s.fillTlb s.g.core s.g.asid s.g.root .fetch s.cur.pc f
      let trap := fun (code : Nat) (va : W64) => s.fetch = .error (.trapAfter t { code := code, addr := va, info := Kind.fetch.info })
      (∀ x, (s.core s.g.core).icache.find? (fun i => i.pa == pa / 128 * 128) = some x →
        s.fetch = .ok (BitVec.ofNat 32 (fromBytes ((x.bytes.drop (pa % 128)).take 4)), t)) ∧
      (s.icached s.g.core pa = false → (s.moduleFailed pa = true → trap codeFabric s.cur.pc) ∧
        (s.moduleFailed pa = false → (∀ l, s.poisonedLine (pa / 128 * 128) 128 = some l → trap codeEcc (BitVec.ofNat 64 l)) ∧
          (s.poisonedLine (pa / 128 * 128) 128 = none → pa % 4 = 0 → moduleOf pa = s.module → s.wheelAt (wheelOf pa) = none → s.hostCopies = [] →
            s.fetch = .ok (BitVec.ofNat 32 (s.mem.readNat pa 4), t.fillLine s.g.core pa))))))

/-- Words that the manual writes out beside their assembly text (chapters 12 to 18) decode to the instruction they stand for: at least one of
every family of words. -/
def Obligations.DecodeSpecWords : Prop :=
  (decode 0x00421064 = some (.hintSch 2 1 0 6 4) ∧ decode 0x00848D15 = some (.hintImm 0x48D15) ∧ decode 0x01400409 = some (.hintExt 1 0 9) ∧
   decode 0x0842FFFD = some (.bs 4 2 0xFFFD) ∧ decode 0x10800010 = some (.bdiv 1 false 16) ∧ decode 0x1471050B = some (.mwait 4 5 false true 3) ∧
   decode 0x14818700 = some (.spawn 6 7 false) ∧ decode 0x18A30002 = some (.xmAnd 10 12) ∧ decode 0x1C310586 = some (.sdivu 3 4 5 true) ∧
   decode 0x30310087 = some (.sshi 3 4 false 2 7) ∧ decode 0x34600422 = some (.vmfs 6 4 true) ∧ decode 0x3C210602 = some (.scas 2 4 6 0 2)) ∧
  (decode 0x40180405 = some (.vsub 3 { sel := 0, reg := 1 } { sel := 0, reg := 2 }) ∧
   decode 0x6D100405 = some (.vcmp 2 2 { sel := 0, reg := 1 } { sel := 0, reg := 2 } true) ∧
   decode 0x84100443 = some (.vshi 2 { sel := 0, reg := 1 } 2 3) ∧ decode 0x902008A7 = some (.vread 2 { sel := 0, reg := 1 } 5) ∧
   decode 0x94100401 = some (.vscanx 2 { sel := 0, reg := 1 } 0) ∧ decode 0xA4280405 = some (.vfma 5 { sel := 0, reg := 1 } { sel := 0, reg := 2 }) ∧
   decode 0xB8100740 = some (.vcvt 2 { sel := 0, reg := 1 } true 10)) ∧
  (decode 0xC8103110 = some (.vst 2 3 4 2 0) ∧ decode 0xE8311810 = some (.sld 3 4 3 0 16) ∧ decode 0xF4205193 = some (.vred 4 5 6 1 3) ∧
   decode 0xF8210528 = some (.inv 4 5 5) ∧ decode 0xF8414601 = some (.wfetch 5 6 1) ∧ decode 0xFC410702 = some (.barTry 4 7 2) ∧
   decode 0xFCA10503 = some (.tord 4 5 3) ∧ decode 0xFCB20A15 = some (.ecmd 8 10 true 5) ∧ decode 0xFD510502 = some (.tdescTWrite 4 5 2) ∧
   decode 0xFD9000A1 = some (.mget 0 2 4 1) ∧ decode 0xFDD10501 = some (.tlbi 4 5 1))

/-- Decoding and encoding agree: the word of every well-formed instruction, with every operand at every value that its field admits, decodes to
that instruction (R229 to R233, R250 to R253). -/
def Obligations.DecodeEncode : Prop :=
  ∀ i : Instr, i.isWord = true → i.wellFormed = true → encode i = [BitVec.ofNat 32 (encodeNat i)] ∧ decode (BitVec.ofNat 32 (encodeNat i)) = some i

/-- What reset leaves, by the values that the manual gives: no launch, workgroup or instance; every accumulator tile +0 (R319); version clocks
and time stamp 0 (R80, R19); card sequence numbers at 1 (R334); every wheel idle and no directory record (R116); the commit and fallback tokens free (R161,
R166); guards free (R223); and the control registers at the reset values of Table 09-6 and chapters 19 to 21. Memory is in its canonical form. The zeros
of RRCTL, RRSTAT, PWRCTL, FWCTL and ATTCTL are the model's choice, for the manual gives none (log entry 4). -/
def Obligations.ResetState : Prop :=
  let s := State.reset
  (s.launches = [] ∧ s.wgs = [] ∧ s.insts = [] ∧ s.wheels = [] ∧ s.dir = [] ∧ s.l1 = [] ∧ s.l2 = [] ∧ s.tlbs = [] ∧ s.fabric = [] ∧ s.msix = [] ∧
   s.clock = 0 ∧ s.tstamp = 0 ∧ s.fallback = none ∧ Memory.wf s.mem = true) ∧
  (s.ctl.hbmwin = 0 ∧ s.ctl.fabtmo = 1000 ∧ s.ctl.eccthr = 4 ∧ s.ctl.eccwin = 86400 ∧ s.ctl.dbgctl = 0 ∧ s.ctl.smpctl = 0 ∧ s.ctl.rrctl = 0 ∧
   s.ctl.rrstat = 0 ∧ s.ctl.fwctl = 0 ∧ s.ctl.fwstat = 0 ∧ s.ctl.attctl = 0 ∧ s.ctl.pwrctl = 0 ∧ s.ctl.pwrstat = 0 ∧ s.ctl.pcap = 5600 ∧
   s.ctl.bootstat.getLsbD 12 = false) ∧
  (∀ c, c < 32 → s.ctl.tilemask.getD c 0 = 0xFFFFFFFF ∧ (s.cluster c).tiles = [] ∧ (s.cluster c).resv = [] ∧ (s.cluster c).sg = [] ∧
    (s.cluster c).intake = []) ∧
  (∀ d, d < 4 → (∀ k, k < 32 → (s.die d).clocks.getD k 1 = 0) ∧ (∀ k, k < 16 → (s.die d).caveWin.getD k 1 = 0) ∧ (s.die d).token = none ∧
    (s.die d).ecc = [] ∧ (s.die d).wheelDir = []) ∧
  (∀ c, c < 128 → (s.core c).cardNext = 1 ∧ (s.core c).cards = [] ∧ (s.core c).events = [] ∧ (s.core c).serving = none ∧
    ((s.core c).guards.all fun x => decide (x.state = .free)) = true)

/-- The memory stays canonical: whatever step the machine takes, from whatever state, memory whose form is canonical (addresses strictly rise and
no listed byte is zero) is canonical after it, so that memories with equal contents stay equal data.
Model choices that it rests on: log entry 1. -/
def Obligations.MemoryStaysCanonical : Prop :=
  ∀ s t : State, Memory.wf s.mem = true → step s = .next t → Memory.wf t.mem = true
end

