-- ==== Sys2Proof/Laws/Mem.lean ====
section
/-!
SUPPORT. The laws of a byte store: every write keeps the canonical form, a read after a write gives the byte written there and leaves every other
address alone, and canonical stores that read alike are the same list.
-/
namespace Sys2Proof.Machine
open Sys2Proof

set_option Elab.async false

/-! ### The canonical form -/

theorem Cells.wfFrom_mono {lo hi : Nat} (h : lo ≤ hi) : ∀ m : Cells, Cells.wfFrom hi m = true → Cells.wfFrom lo m = true
  | [], _ => rfl
  | (a, b) :: rest, hm => by
    simp only [Cells.wfFrom, Bool.and_eq_true, decide_eq_true_eq] at hm ⊢
    exact ⟨⟨by omega, hm.1.2⟩, hm.2⟩

theorem Cells.wfFrom_write (a : Nat) (v : Byte) : ∀ (lo : Nat) (m : Cells), lo ≤ a → Cells.wfFrom lo m = true → Cells.wfFrom lo (m.write a v) = true
  | lo, [], h, _ => by
    unfold Cells.write
    split
    · rfl
    · simp_all [Cells.wfFrom]
  | lo, (k, b) :: rest, h, hm => by
    simp only [Cells.wfFrom, Bool.and_eq_true, decide_eq_true_eq, bne_iff_ne, ne_eq] at hm
    obtain ⟨⟨h1, h2⟩, h3⟩ := hm
    unfold Cells.write
    split
    · split
      · simp_all [Cells.wfFrom]
      · simp_all [Cells.wfFrom] <;> omega
    · split
      · subst a
        split
        · exact Cells.wfFrom_mono (by omega) rest h3
        · simp_all [Cells.wfFrom]
      · simp only [Cells.wfFrom, Bool.and_eq_true, decide_eq_true_eq, bne_iff_ne, ne_eq]
        exact ⟨⟨h1, h2⟩, Cells.wfFrom_write a v (k + 1) rest (by omega) h3⟩

/-- Writing one byte keeps the canonical form. -/
@[simp] theorem Memory.wf_write {m : Cells} (h : Memory.wf m = true) (a : Nat) (v : Byte) : Memory.wf (m.write a v) = true :=
  Cells.wfFrom_write a v 0 m (Nat.zero_le a) h

/-- Writing a run of bytes keeps the canonical form. -/
@[simp] theorem Memory.wf_writeBytes {m : Cells} (h : Memory.wf m = true) (a : Nat) (bs : List Byte) : Memory.wf (m.writeBytes a bs) = true := by
  induction bs generalizing m a with
  | nil => exact h
  | cons b bs ih => exact ih (Memory.wf_write h a b) (a + 1)

/-- Writing a number keeps the canonical form. -/
@[simp] theorem Memory.wf_writeNat {m : Cells} (h : Memory.wf m = true) (a n v : Nat) : Memory.wf (m.writeNat a n v) = true :=
  Memory.wf_writeBytes h a _

/-- Leaving out some of the bytes keeps the canonical form. -/
theorem Cells.wfFrom_filter (p : Host.Cell → Bool) : ∀ (lo : Nat) (m : Cells), Cells.wfFrom lo m = true → Cells.wfFrom lo (m.filter p) = true
  | _, [], _ => rfl
  | lo, (k, b) :: rest, hm => by
    simp only [Cells.wfFrom, Bool.and_eq_true, decide_eq_true_eq] at hm
    have ih := Cells.wfFrom_filter p (k + 1) rest hm.2
    rw [List.filter_cons]
    split
    · simp only [Cells.wfFrom, Bool.and_eq_true, decide_eq_true_eq]
      exact ⟨hm.1, ih⟩
    · exact Cells.wfFrom_mono (by omega) _ ih

@[simp] theorem Memory.wf_filter {m : Cells} (h : Memory.wf m = true) (p : Host.Cell → Bool) : Memory.wf (m.filter p) = true :=
  Cells.wfFrom_filter p 0 m h

/-- A chain of changes that each keep the canonical form keeps it. -/
theorem Memory.wf_foldl {α : Type} (f : Cells → α → Cells) (hf : ∀ m x, Memory.wf m = true → Memory.wf (f m x) = true) (xs : List α) :
    ∀ m : Cells, Memory.wf m = true → Memory.wf (xs.foldl f m) = true := by
  induction xs with
  | nil => exact fun _ h => h
  | cons x xs ih => exact fun m h => ih (f m x) (hf m x h)

/-- The empty store is canonical, and it is the memory of the state after reset. -/
@[simp] theorem Memory.wf_nil : Memory.wf [] = true := rfl
@[simp] theorem State.reset_mem : State.reset.mem = [] := rfl

/-! ### Reads after writes -/

/-- Below its first address a canonical store reads as zero. -/
theorem Cells.read_below {lo a : Nat} : ∀ m : Cells, Cells.wfFrom lo m = true → a < lo → m.read a = 0
  | [], _, _ => rfl
  | (k, b) :: rest, hm, h => by
    simp only [Cells.wfFrom, Bool.and_eq_true, decide_eq_true_eq] at hm
    unfold Cells.read
    rw [if_neg (by omega), if_pos (by omega)]

theorem Cells.read_write_of (a : Nat) (v : Byte) (x : Nat) :
    ∀ (lo : Nat) (m : Cells), Cells.wfFrom lo m = true → (m.write a v).read x = if x = a then v else m.read x
  | _, [], _ => by
    unfold Cells.write
    split
    · simp_all [Cells.read]
    · simp [Cells.read]
  | lo, (k, b) :: rest, hm => by
    simp only [Cells.wfFrom, Bool.and_eq_true, decide_eq_true_eq] at hm
    have ih := Cells.read_write_of a v x (k + 1) rest hm.2
    have hb : ∀ y, y < k + 1 → Cells.read rest y = 0 := fun y hy => Cells.read_below rest hm.2 hy
    unfold Cells.write
    split
    · split
      · by_cases hx : x = a
        · subst x; subst v
          simp only [Cells.read]; rw [if_neg (by omega), if_pos (by omega), if_pos trivial]
        · rw [if_neg hx]
      · simp only [Cells.read]
        by_cases hx : x = a
        · rw [if_pos hx, if_pos hx]
        · rw [if_neg hx, if_neg hx]
          by_cases hx2 : x < a
          · rw [if_pos hx2, if_neg (by omega), if_pos (by omega)]
          · rw [if_neg hx2]
    · split
      · subst a
        by_cases hx : x = k
        · subst x
          rw [if_pos rfl]
          split
          · subst v; exact hb k (by omega)
          · simp [Cells.read]
        · rw [if_neg hx]
          split
          · simp only [Cells.read]
            rw [if_neg hx]
            by_cases hx2 : x < k
            · rw [if_pos hx2]; exact hb x (by omega)
            · rw [if_neg hx2]
          · simp only [Cells.read]; rw [if_neg hx, if_neg hx]
      · simp only [Cells.read, ih]
        by_cases hx : x = k
        · rw [if_pos hx, if_pos hx, if_neg (by omega)]
        · rw [if_neg hx, if_neg hx]
          by_cases hx2 : x < k
          · rw [if_pos hx2, if_pos hx2, if_neg (by omega)]
          · rw [if_neg hx2, if_neg hx2]

/-- A read gives the byte written last at its address, and any other address reads as before. -/
theorem Cells.read_write {m : Cells} (h : Memory.wf m = true) (a x : Nat) (v : Byte) : (m.write a v).read x = if x = a then v else m.read x :=
  Cells.read_write_of a v x 0 m h

/-- What a store reads as after a run of bytes is written. -/
theorem Cells.read_writeBytes {m : Cells} (h : Memory.wf m = true) (a x : Nat) (bs : List Byte) :
    (m.writeBytes a bs).read x = if a ≤ x ∧ x < a + bs.length then bs.getD (x - a) 0 else m.read x := by
  induction bs generalizing m a with
  | nil => rw [if_neg (by simp only [List.length_nil]; omega)]; rfl
  | cons b bs ih =>
    rw [Cells.writeBytes, ih (Memory.wf_write h a b) (a + 1), Cells.read_write h]
    simp only [List.length_cons]
    by_cases hx : x = a
    · subst x
      rw [if_neg (by omega), if_pos rfl, if_pos (by omega), Nat.sub_self]; rfl
    · rw [if_neg hx]
      by_cases h1 : a + 1 ≤ x ∧ x < a + 1 + bs.length
      · rw [if_pos h1, if_pos (by omega), show x - a = (x - (a + 1)) + 1 by omega]; rfl
      · rw [if_neg h1, if_neg (by omega)]

/-- Outside the bytes written, memory reads as before. -/
theorem Cells.read_writeBytes_of_outside {m : Cells} (h : Memory.wf m = true) {a x : Nat} {bs : List Byte} (hx : x < a ∨ a + bs.length ≤ x) :
    (m.writeBytes a bs).read x = m.read x := by
  rw [Cells.read_writeBytes h, if_neg (by omega)]

@[simp] theorem toBytes_length (n v : Nat) : (toBytes n v).length = n := by
  induction n generalizing v with
  | zero => rfl
  | succ n ih => simp [toBytes, ih]

@[simp] theorem Cells.readBytes_length (m : Cells) (a n : Nat) : (m.readBytes a n).length = n := by
  induction n generalizing a with
  | zero => rfl
  | succ n ih => simp [Cells.readBytes, ih]

theorem Cells.readBytes_getElem? (m : Cells) (a n k : Nat) : (m.readBytes a n)[k]? = if k < n then some (m.read (a + k)) else none := by
  induction n generalizing a k with
  | zero => rfl
  | succ n ih =>
    cases k with
    | zero => rfl
    | succ k => simp only [Cells.readBytes, List.getElem?_cons_succ, ih]; rw [show a + 1 + k = a + (k + 1) by omega]; simp

/-- Reading back a run of bytes just written. -/
theorem Cells.readBytes_writeBytes {m : Cells} (h : Memory.wf m = true) (a : Nat) (bs : List Byte) : (m.writeBytes a bs).readBytes a bs.length = bs := by
  apply List.ext_getElem?
  intro k
  rw [Cells.readBytes_getElem?]
  split
  · rename_i hk
    rw [Cells.read_writeBytes h, if_pos (by omega), Nat.add_sub_cancel_left, List.getD_eq_getElem?_getD, List.getElem?_eq_getElem hk]; rfl
  · rename_i hk
    rw [List.getElem?_eq_none (by omega)]

/-- Bytes taken from the middle of a run that was read. -/
theorem Cells.readBytes_drop_take (m : Cells) (a n k j : Nat) (h : k + j ≤ n) : ((m.readBytes a n).drop k).take j = m.readBytes (a + k) j := by
  apply List.ext_getElem?
  intro i
  rw [Cells.readBytes_getElem?, List.getElem?_take]
  split
  · rw [List.getElem?_drop, Cells.readBytes_getElem?, if_pos (by omega), Nat.add_assoc]
  · rfl

theorem fromBytes_toBytes (n v : Nat) : fromBytes (toBytes n v) = v % 256 ^ n := by
  induction n generalizing v with
  | zero => simp [toBytes, fromBytes, Nat.mod_one]
  | succ n ih =>
    have h : v % 256 ^ (n + 1) = v % 256 + 256 * (v / 256 % 256 ^ n) := by rw [Nat.pow_succ', Nat.mod_mul]
    simp only [toBytes, fromBytes, ih, h, BitVec.toNat_ofNat]

/-- Reading back a number just written. -/
theorem Cells.readNat_writeNat {m : Cells} (h : Memory.wf m = true) (a n v : Nat) : (m.writeNat a n v).readNat a n = v % 256 ^ n := by
  have := Cells.readBytes_writeBytes h a (toBytes n v)
  rw [toBytes_length] at this
  rw [Cells.readNat, Cells.writeNat, this, fromBytes_toBytes]

/-! ### Canonical stores with equal contents are equal -/

theorem Cells.ext_of : ∀ (lo : Nat) (m n : Cells), Cells.wfFrom lo m = true → Cells.wfFrom lo n = true → (∀ a, m.read a = n.read a) → m = n
  | _, [], [], _, _, _ => rfl
  | _, [], (k, b) :: rest, _, hn, h => by
    simp only [Cells.wfFrom, Bool.and_eq_true, decide_eq_true_eq, bne_iff_ne, ne_eq] at hn
    have := h k
    simp only [Cells.read, if_pos] at this
    exact absurd this.symm hn.1.2
  | _, (k, b) :: rest, [], hm, _, h => by
    simp only [Cells.wfFrom, Bool.and_eq_true, decide_eq_true_eq, bne_iff_ne, ne_eq] at hm
    have := h k
    simp only [Cells.read, if_pos] at this
    exact absurd this hm.1.2
  | lo, (k, b) :: r, (j, c) :: t, hm, hn, h => by
    have hm' := hm
    have hn' := hn
    simp only [Cells.wfFrom, Bool.and_eq_true, decide_eq_true_eq, bne_iff_ne, ne_eq] at hm hn
    have hk := h k
    have hj := h j
    have hkj : k = j := by
      apply Nat.le_antisymm
      · apply Nat.le_of_not_lt
        intro hl
        simp only [Cells.read, if_pos] at hj
        rw [if_neg (by omega), if_pos hl] at hj
        exact hn.1.2 hj.symm
      · apply Nat.le_of_not_lt
        intro hl
        simp only [Cells.read, if_pos] at hk
        rw [if_neg (by omega), if_pos hl] at hk
        exact hm.1.2 hk
    subst hkj
    have hbc : b = c := by simpa [Cells.read] using hk
    subst hbc
    congr 1
    apply Cells.ext_of (k + 1) r t hm.2 hn.2
    intro a
    by_cases ha : a < k + 1
    · rw [Cells.read_below r hm.2 ha, Cells.read_below t hn.2 ha]
    · have := h a
      simp only [Cells.read] at this
      rwa [if_neg (by omega), if_neg (by omega), if_neg (by omega), if_neg (by omega)] at this

/-- Canonical stores that read alike at every address are the same list. -/
theorem Memory.ext {m n : Cells} (hm : Memory.wf m = true) (hn : Memory.wf n = true) (h : ∀ a, m.read a = n.read a) : m = n :=
  Cells.ext_of 0 m n hm hn h

end Sys2Proof.Machine
end

