-- ==== Sys2Proof/Laws/Ops.lean ====
section
/-!
SUPPORT. What the shared run of an instruction does: where it succeeds, and what beginning, advancing and finishing leave alone.
-/
namespace Sys2Proof.Machine
open Sys2Proof

set_option Elab.async false

/-! ### Slots of a group -/

@[simp] theorem Group.setCur_cur (g : Group) (c : Slot) : (g.setCur c).cur = c := by
  cases h : g.inB <;> simp [Group.setCur, Group.cur, h]
@[simp] theorem Group.setCur_setCur (g : Group) (c d : Slot) : (g.setCur c).setCur d = g.setCur d := by
  cases h : g.inB <;> simp [Group.setCur, h]
@[simp] theorem Group.setCur_self (g : Group) : g.setCur g.cur = g := by
  unfold Group.setCur Group.cur; split <;> rfl
@[simp] theorem State.setCur_cur (s : State) (c : Slot) : (s.setCur c).cur = c := by simp [State.setCur, State.cur]

/-! ### The issuing path's bookkeeping -/

@[simp] theorem Slot.still_goto (c : Slot) (pc : W64) : (c.goto pc).still = c.still := rfl
@[simp] theorem Form.still_cover (f : Form) (g : Group) (n : Nat) : (f.cover g n).still = g.cur.still := rfl
@[simp] theorem Slot.still_wskip (c : Slot) (b : Bool) : ({ c with wskip := b } : Slot).still = c.still := rfl

/-- Replacing the issuing slot by one with the same lanes, depth and tag changes nothing of the rest. -/
theorem Group.still_setCur (g : Group) (c : Slot) (h : c.still = g.cur.still) : (g.setCur c).still = g.still := by
  cases hb : g.inB <;> simp_all [Group.still, Group.setCur, Group.cur]
theorem State.still_setCur (s : State) (c : Slot) (h : c.still = s.cur.still) : (s.setCur c).still = s.still := by
  simp only [State.still, State.setCur, Group.still_setCur s.g c h]

@[simp] theorem Group.still_early (g : Group) (x : List (RegName × RegVal)) : ({ g with early := x } : Group).still = g.still := rfl
@[simp] theorem State.still_advance (s : State) : s.advance.still = s.still := s.still_setCur _ rfl
@[simp] theorem State.still_jump (s : State) (pc : W64) : (s.jump pc).still = s.still := s.still_setCur _ rfl
@[simp] theorem State.still_finish (s : State) : s.finish.still = s.still := by
  unfold State.finish
  rw [State.still_setCur]
  · rfl
  · rfl
@[simp] theorem Form.still_begin (f : Form) (s : State) : (f.begin_ s).still = s.still := by
  simp only [Form.begin_, State.still, Group.still_early, Group.still_setCur s.g (f.cover s.g s.clock) rfl]

/-! ### Where an instruction runs -/

theorem Form.control_runs (f : Form) (s : State) (k : Hints → State → Res State) (h : f.runs s = true) :
    f.control s k = match k s.cur.hints (f.begin_ s) with
      | .ok t => .next t.finish
      | .error e => s.raise e := by
  simp only [Form.runs, Bool.and_eq_true, Bool.or_eq_true, Bool.not_eq_true', bne_iff_ne] at h
  obtain ⟨⟨⟨⟨h1, h2⟩, h3⟩, h4⟩, h5⟩ := h
  have h2' : (if s.g.schkMode = 1 then f.short s.cur s.cur.hints else none) = none := by
    split
    · rcases h2 with h2 | h2
      · contradiction
      · simpa using h2
    · rfl
  have h5' : f.pends s.g s.cur.hints = none := by simpa using h5
  have h4' : ((f.noTx || s.cur.hints.ord.isSome) && s.g.txIn s.exm != 0) = false := by simpa using h4
  simp only [Form.control, h1, h2', h4', h5']
  rfl

theorem Form.run_runs (f : Form) (s : State) (k : Hints → State → Res State) (h : f.runs s = true) :
    f.run s k = match k s.cur.hints (f.begin_ s) with
      | .ok t => .next t.advance.finish
      | .error e => s.raise e := by
  rw [Form.run, Form.control_runs f s _ h]
  cases k s.cur.hints (f.begin_ s) <;> rfl

theorem Form.pure_runs (f : Form) (s : State) (k : Hints → State → State) (h : f.runs s = true) :
    f.pure_ s k = .next (k s.cur.hints (f.begin_ s)).advance.finish := by
  rw [Form.pure_, Form.run_runs f s _ h]

/-! ### The state as an instruction begins -/

@[simp] theorem Form.begin_exm (f : Form) (s : State) : (f.begin_ s).exm = s.exm := by
  cases hb : s.g.inB <;> simp [Form.begin_, State.exm, State.cur, Group.cur, Group.setCur, hb, Form.cover]
@[simp] theorem Form.begin_pc (f : Form) (s : State) : (f.begin_ s).cur.pc = s.cur.pc := by
  cases hb : s.g.inB <;> simp [Form.begin_, State.cur, Group.cur, Group.setCur, hb, Form.cover]
@[simp] theorem Form.begin_hints (f : Form) (s : State) : (f.begin_ s).cur.hints = {} := by
  cases hb : s.g.inB <;> simp [Form.begin_, State.cur, Group.cur, Group.setCur, hb, Form.cover]
@[simp] theorem State.advance_pc (s : State) : s.advance.cur.pc = s.cur.pc + 4 := by simp [State.advance, Slot.goto]
@[simp] theorem State.advance_run (s : State) : s.advance.cur.run = 0 := by simp [State.advance, Slot.goto]
@[simp] theorem State.advance_hints (s : State) : s.advance.cur.hints = s.cur.hints := by simp [State.advance, Slot.goto]
@[simp] theorem State.finish_pc (s : State) : s.finish.cur.pc = s.cur.pc := by simp [State.finish]
@[simp] theorem State.finish_run (s : State) : s.finish.cur.run = s.cur.run := by simp [State.finish]
@[simp] theorem State.finish_hints (s : State) : s.finish.cur.hints = s.cur.hints := by simp [State.finish]

/-- A form that runs reads nothing early. -/
theorem Form.runs_early (f : Form) (s : State) (h : f.runs s = true) : (f.begin_ s).g.early = [] := by
  have h3 : f.earlyReads s.g s.clock s.cur.hints = [] := by
    simp only [Form.runs, Bool.and_eq_true] at h
    simpa using h.1.1.2
  cases hb : s.g.inB <;> simp [Form.begin_, h3]

theorem Form.begin_srcS (f : Form) (s : State) (n : Nat) (h : f.runs s = true) : (f.begin_ s).g.srcS n = s.g.readS n := by
  have := f.runs_early s h
  simp only [Group.srcS, Group.earlyOf, this]
  cases hb : s.g.inB <;> simp [Form.begin_, Group.setCur, hb, Group.readS]

theorem Form.begin_srcV (f : Form) (s : State) (n : Nat) (h : f.runs s = true) : (f.begin_ s).g.srcV n = s.g.readV n := by
  have := f.runs_early s h
  simp only [Group.srcV, Group.earlyOf, this]
  cases hb : s.g.inB <;> simp [Form.begin_, Group.setCur, hb, Group.readV]

theorem Form.begin_srcP (f : Form) (s : State) (n : Nat) (h : f.runs s = true) : (f.begin_ s).g.srcP n = s.g.readP n := by
  have := f.runs_early s h
  simp only [Group.srcP, Group.earlyOf, this]
  cases hb : s.g.inB <;> simp [Form.begin_, Group.setCur, hb, Group.readP]

/-! ### Results -/

theorem Group.still_overtake (g : Group) (r : RegName) (m : W32) : (g.overtake r m).still = g.still.overtake r m := rfl
theorem Group.still_writeS (g : Group) (n : Nat) (x : W64) : (g.writeS n x).still = g.still.writeS n x := by
  unfold Group.writeS; split <;> rfl
theorem Group.still_writeV (g : Group) (n : Nat) (m : W32) (z : Bool) (f : Nat → W32) : (g.writeV n m z f).still = g.still.writeV n m z f := by
  unfold Group.writeV; split <;> rfl
theorem Group.still_writeP (g : Group) (n : Nat) (m : W32) (z : Bool) (f : Nat → Bool) : (g.writeP n m z f).still = g.still.writeP n m z f := by
  unfold Group.writeP; split <;> rfl

/-- Writing a register does not look at the issuing path's bookkeeping. -/
theorem State.still_putS (s : State) (v m : Bool) (n : Nat) (x : W64) : (s.putS v m n x).still = s.still.putS v m n x := by
  have e : s.still.defer = s.defer := rfl
  unfold State.putS
  rw [e]
  split
  · rfl
  · simp only [State.still, Group.still_writeS, Group.still_overtake]

theorem State.still_putV (s : State) (v m : Bool) (n : Nat) (mask : W32) (z : Bool) (f : Nat → W32) :
    (s.putV v m n mask z f).still = s.still.putV v m n mask z f := by
  have e : s.still.defer = s.defer := rfl
  unfold State.putV
  rw [e]
  split
  · rfl
  · dsimp only
    split
    · rfl
    · simp only [State.still, Group.still_writeV, Group.still_overtake]

theorem State.still_putP (s : State) (n : Nat) (mask : W32) (z : Bool) (f : Nat → Bool) :
    (s.putP n mask z f).still = s.still.putP n mask z f := by
  simp only [State.putP, State.still, Group.still_writeP, Group.still_overtake]

@[simp] theorem State.putS_cur (s : State) (v m : Bool) (n : Nat) (x : W64) : (s.putS v m n x).cur = s.cur := by
  unfold State.putS State.cur Group.cur Group.overtake Group.writeS
  split <;> (try split) <;> rfl
@[simp] theorem State.putV_cur (s : State) (v m : Bool) (n : Nat) (mask : W32) (z : Bool) (f : Nat → W32) : (s.putV v m n mask z f).cur = s.cur := by
  simp only [State.putV, State.cur, Group.cur, Group.overtake, Group.writeV]
  repeat' split
  all_goals simp_all
@[simp] theorem State.putP_cur (s : State) (n : Nat) (mask : W32) (z : Bool) (f : Nat → Bool) : (s.putP n mask z f).cur = s.cur := by
  simp only [State.putP, State.cur, Group.cur, Group.overtake, Group.writeP]
  repeat' split
  all_goals simp_all

/-! ### A form that writes one register ends at the next word -/

/-- What `Form.pure_` gives where it runs, as `Ends` says it. -/
theorem Ends.of_pure {i : Instr} {s u : State} (f : Form) (k : Hints → State → State) (he : exec i s = f.pure_ s k) (h : f.runs s = true)
    (hc : (k s.cur.hints (f.begin_ s)).cur = (f.begin_ s).cur) (hu : (k s.cur.hints (f.begin_ s)).still = u.still) : Ends i s u := by
  refine ⟨_, he.trans (Form.pure_runs f s k h), ?_, ?_, ?_, ?_⟩ <;> simp [hc, hu]

end Sys2Proof.Machine
end

