-- ==== Sys2Proof/Laws/PerInstr.lean ====
section
/-!
SUPPORT. Statements made of every instruction, one lemma per constructor. `RoundTrip`: the fields of a well-formed word, read back from its number,
are the instruction's. One lemma per layout of fields does the arithmetic.
-/
namespace Sys2Proof.Laws
open Sys2Proof

set_option Elab.async false

theorem bit_lt (b : Bool) : b.toNat < 2 := by cases b <;> decide

theorem bitAt_of {w lo : Nat} {b : Bool} (h : bitsAt w lo 1 = b.toNat) : bitAt w lo = b := by
  unfold bitAt
  rw [show w / 2 ^ lo % 2 = b.toNat from h]
  cases b <;> rfl

theorem vsrc_lt {x : VSrc} (hx : x.wf = true) : vsrcBits x < 512 := by
  simp only [VSrc.wf, Bool.and_eq_true, decide_eq_true_eq] at hx
  unfold vsrcBits; omega

theorem vsrcAt_of {w lo : Nat} {x : VSrc} (hx : x.wf = true) (h : bitsAt w lo 9 = vsrcBits x) : vsrcAt w lo = x := by
  simp only [VSrc.wf, Bool.and_eq_true, decide_eq_true_eq] at hx
  have h1 : w / 2 ^ (lo + 7) = w / 2 ^ lo / 128 := by rw [Nat.pow_add, Nat.div_div_eq_div_mul]
  cases x
  simp only [vsrcAt, bitsAt, vsrcBits] at *
  rw [h1]
  congr 1 <;> omega

/-- The fields of a well-formed word are read back from its number. -/
def RoundTrip.Statement (i : Instr) : Prop :=
  i.isWord = true → i.wellFormed = true → encodeNat i < 2 ^ 32 ∧ decodeFields (encodeNat i) = some i

/-! ### Layouts -/

theorem layout_1 {K m c0 x0 x1 x2 x3 x4 : Nat} (hK : K = m * 67108864 + c0 * 4194304) (hm : m < 64) (h0 : x0 < 16) (h1 : x1 < 16) (h2 : x2 < 16) (h3 : x3 < 16) (h4 : x4 < 16) (g0 : c0 < 16) :
    K + x0 * 65536 + x1 * 4096 + x2 * 256 + x3 * 16 + x4 < 2 ^ 32 ∧ bitsAt (K + x0 * 65536 + x1 * 4096 + x2 * 256 + x3 * 16 + x4) 26 6 = m ∧ bitsAt (K + x0 * 65536 + x1 * 4096 + x2 * 256 + x3 * 16 + x4) 22 4 = c0 ∧ bitsAt (K + x0 * 65536 + x1 * 4096 + x2 * 256 + x3 * 16 + x4) 16 4 = x0 ∧ bitsAt (K + x0 * 65536 + x1 * 4096 + x2 * 256 + x3 * 16 + x4) 12 4 = x1 ∧ bitsAt (K + x0 * 65536 + x1 * 4096 + x2 * 256 + x3 * 16 + x4) 8 4 = x2 ∧ bitsAt (K + x0 * 65536 + x1 * 4096 + x2 * 256 + x3 * 16 + x4) 4 4 = x3 ∧ bitsAt (K + x0 * 65536 + x1 * 4096 + x2 * 256 + x3 * 16 + x4) 0 4 = x4 := by
  generalize hw : K + x0 * 65536 + x1 * 4096 + x2 * 256 + x3 * 16 + x4 = w
  subst hK
  unfold bitsAt
  refine ⟨?_, ?_, ?_, ?_, ?_, ?_, ?_, ?_⟩ <;> omega
theorem layout_2 {K m c0 x0 : Nat} (hK : K = m * 67108864 + c0 * 4194304) (hm : m < 64) (h0 : x0 < 4194304) (g0 : c0 < 16) :
    K + x0 < 2 ^ 32 ∧ bitsAt (K + x0) 26 6 = m ∧ bitsAt (K + x0) 22 4 = c0 ∧ bitsAt (K + x0) 0 22 = x0 := by
  generalize hw : K + x0 = w
  subst hK
  unfold bitsAt
  refine ⟨?_, ?_, ?_, ?_⟩ <;> omega
theorem layout_3 {K m c0 x0 x1 : Nat} (hK : K = m * 67108864 + c0 * 4194304) (hm : m < 64) (h0 : x0 < 8) (h1 : x1 < 8) (g0 : c0 < 16) :
    K + x0 * 8 + x1 < 2 ^ 32 ∧ bitsAt (K + x0 * 8 + x1) 26 6 = m ∧ bitsAt (K + x0 * 8 + x1) 22 4 = c0 ∧ bitsAt (K + x0 * 8 + x1) 3 3 = x0 ∧ bitsAt (K + x0 * 8 + x1) 0 3 = x1 := by
  generalize hw : K + x0 * 8 + x1 = w
  subst hK
  unfold bitsAt
  refine ⟨?_, ?_, ?_, ?_, ?_⟩ <;> omega
theorem layout_4 {K m c0 x0 x1 x2 x3 x4 x5 x6 : Nat} (hK : K = m * 67108864 + c0 * 4194304) (hm : m < 64) (h0 : x0 < 2) (h1 : x1 < 8) (h2 : x2 < 2) (h3 : x3 < 4) (h4 : x4 < 2) (h5 : x5 < 8) (h6 : x6 < 4) (g0 : c0 < 16) :
    K + x0 * 4096 + x1 * 512 + x2 * 256 + x3 * 64 + x4 * 32 + x5 * 4 + x6 < 2 ^ 32 ∧ bitsAt (K + x0 * 4096 + x1 * 512 + x2 * 256 + x3 * 64 + x4 * 32 + x5 * 4 + x6) 26 6 = m ∧ bitsAt (K + x0 * 4096 + x1 * 512 + x2 * 256 + x3 * 64 + x4 * 32 + x5 * 4 + x6) 22 4 = c0 ∧ bitsAt (K + x0 * 4096 + x1 * 512 + x2 * 256 + x3 * 64 + x4 * 32 + x5 * 4 + x6) 12 1 = x0 ∧ bitsAt (K + x0 * 4096 + x1 * 512 + x2 * 256 + x3 * 64 + x4 * 32 + x5 * 4 + x6) 9 3 = x1 ∧ bitsAt (K + x0 * 4096 + x1 * 512 + x2 * 256 + x3 * 64 + x4 * 32 + x5 * 4 + x6) 8 1 = x2 ∧ bitsAt (K + x0 * 4096 + x1 * 512 + x2 * 256 + x3 * 64 + x4 * 32 + x5 * 4 + x6) 6 2 = x3 ∧ bitsAt (K + x0 * 4096 + x1 * 512 + x2 * 256 + x3 * 64 + x4 * 32 + x5 * 4 + x6) 5 1 = x4 ∧ bitsAt (K + x0 * 4096 + x1 * 512 + x2 * 256 + x3 * 64 + x4 * 32 + x5 * 4 + x6) 2 3 = x5 ∧ bitsAt (K + x0 * 4096 + x1 * 512 + x2 * 256 + x3 * 64 + x4 * 32 + x5 * 4 + x6) 0 2 = x6 := by
  generalize hw : K + x0 * 4096 + x1 * 512 + x2 * 256 + x3 * 64 + x4 * 32 + x5 * 4 + x6 = w
  subst hK
  unfold bitsAt
  refine ⟨?_, ?_, ?_, ?_, ?_, ?_, ?_, ?_, ?_, ?_⟩ <;> omega
theorem layout_5 {K m c0 x0 x1 x2 : Nat} (hK : K = m * 67108864 + c0 * 4194304) (hm : m < 64) (h0 : x0 < 4) (h1 : x1 < 8) (h2 : x2 < 128) (g0 : c0 < 16) :
    K + x0 * 1024 + x1 * 128 + x2 < 2 ^ 32 ∧ bitsAt (K + x0 * 1024 + x1 * 128 + x2) 26 6 = m ∧ bitsAt (K + x0 * 1024 + x1 * 128 + x2) 22 4 = c0 ∧ bitsAt (K + x0 * 1024 + x1 * 128 + x2) 10 2 = x0 ∧ bitsAt (K + x0 * 1024 + x1 * 128 + x2) 7 3 = x1 ∧ bitsAt (K + x0 * 1024 + x1 * 128 + x2) 0 7 = x2 := by
  generalize hw : K + x0 * 1024 + x1 * 128 + x2 = w
  subst hK
  unfold bitsAt
  refine ⟨?_, ?_, ?_, ?_, ?_, ?_⟩ <;> omega
theorem layout_6 {K m x0 x1 x2 : Nat} (hK : K = m * 67108864) (hm : m < 64) (h0 : x0 < 64) (h1 : x1 < 16) (h2 : x2 < 65536) :
    K + x0 * 1048576 + x1 * 65536 + x2 < 2 ^ 32 ∧ bitsAt (K + x0 * 1048576 + x1 * 65536 + x2) 26 6 = m ∧ bitsAt (K + x0 * 1048576 + x1 * 65536 + x2) 20 6 = x0 ∧ bitsAt (K + x0 * 1048576 + x1 * 65536 + x2) 16 4 = x1 ∧ bitsAt (K + x0 * 1048576 + x1 * 65536 + x2) 0 16 = x2 := by
  generalize hw : K + x0 * 1048576 + x1 * 65536 + x2 = w
  subst hK
  unfold bitsAt
  refine ⟨?_, ?_, ?_, ?_, ?_⟩ <;> omega
theorem layout_7 {K m x0 x1 x2 : Nat} (hK : K = m * 67108864) (hm : m < 64) (h0 : x0 < 8) (h1 : x1 < 2) (h2 : x2 < 4194304) :
    K + x0 * 8388608 + x1 * 4194304 + x2 < 2 ^ 32 ∧ bitsAt (K + x0 * 8388608 + x1 * 4194304 + x2) 26 6 = m ∧ bitsAt (K + x0 * 8388608 + x1 * 4194304 + x2) 23 3 = x0 ∧ bitsAt (K + x0 * 8388608 + x1 * 4194304 + x2) 22 1 = x1 ∧ bitsAt (K + x0 * 8388608 + x1 * 4194304 + x2) 0 22 = x2 := by
  generalize hw : K + x0 * 8388608 + x1 * 4194304 + x2 = w
  subst hK
  unfold bitsAt
  refine ⟨?_, ?_, ?_, ?_, ?_⟩ <;> omega
theorem layout_8 {K m c0 x0 : Nat} (hK : K = m * 67108864 + c0 * 1048576) (hm : m < 64) (h0 : x0 < 64) (g0 : c0 < 64) :
    K + x0 * 16384 < 2 ^ 32 ∧ bitsAt (K + x0 * 16384) 26 6 = m ∧ bitsAt (K + x0 * 16384) 20 6 = c0 ∧ bitsAt (K + x0 * 16384) 14 6 = x0 := by
  generalize hw : K + x0 * 16384 = w
  subst hK
  unfold bitsAt
  refine ⟨?_, ?_, ?_, ?_⟩ <;> omega
theorem layout_9 {K m c0 x0 x1 x2 : Nat} (hK : K = m * 67108864 + c0 * 1048576) (hm : m < 64) (h0 : x0 < 64) (h1 : x1 < 64) (h2 : x2 < 128) (g0 : c0 < 64) :
    K + x0 * 16384 + x1 * 256 + x2 < 2 ^ 32 ∧ bitsAt (K + x0 * 16384 + x1 * 256 + x2) 26 6 = m ∧ bitsAt (K + x0 * 16384 + x1 * 256 + x2) 20 6 = c0 ∧ bitsAt (K + x0 * 16384 + x1 * 256 + x2) 14 6 = x0 ∧ bitsAt (K + x0 * 16384 + x1 * 256 + x2) 8 6 = x1 ∧ bitsAt (K + x0 * 16384 + x1 * 256 + x2) 0 7 = x2 := by
  generalize hw : K + x0 * 16384 + x1 * 256 + x2 = w
  subst hK
  unfold bitsAt
  refine ⟨?_, ?_, ?_, ?_, ?_, ?_⟩ <;> omega
theorem layout_10 {K m c0 x0 x1 x2 x3 x4 : Nat} (hK : K = m * 67108864 + c0 * 1048576) (hm : m < 64) (h0 : x0 < 64) (h1 : x1 < 64) (h2 : x2 < 2) (h3 : x3 < 2) (h4 : x4 < 8) (g0 : c0 < 64) :
    K + x0 * 16384 + x1 * 256 + x2 * 16 + x3 * 8 + x4 < 2 ^ 32 ∧ bitsAt (K + x0 * 16384 + x1 * 256 + x2 * 16 + x3 * 8 + x4) 26 6 = m ∧ bitsAt (K + x0 * 16384 + x1 * 256 + x2 * 16 + x3 * 8 + x4) 20 6 = c0 ∧ bitsAt (K + x0 * 16384 + x1 * 256 + x2 * 16 + x3 * 8 + x4) 14 6 = x0 ∧ bitsAt (K + x0 * 16384 + x1 * 256 + x2 * 16 + x3 * 8 + x4) 8 6 = x1 ∧ bitsAt (K + x0 * 16384 + x1 * 256 + x2 * 16 + x3 * 8 + x4) 4 1 = x2 ∧ bitsAt (K + x0 * 16384 + x1 * 256 + x2 * 16 + x3 * 8 + x4) 3 1 = x3 ∧ bitsAt (K + x0 * 16384 + x1 * 256 + x2 * 16 + x3 * 8 + x4) 0 3 = x4 := by
  generalize hw : K + x0 * 16384 + x1 * 256 + x2 * 16 + x3 * 8 + x4 = w
  subst hK
  unfold bitsAt
  refine ⟨?_, ?_, ?_, ?_, ?_, ?_, ?_, ?_⟩ <;> omega
theorem layout_11 {K m c0 x0 x1 x2 : Nat} (hK : K = m * 67108864 + c0 * 1048576) (hm : m < 64) (h0 : x0 < 64) (h1 : x1 < 64) (h2 : x2 < 2) (g0 : c0 < 64) :
    K + x0 * 16384 + x1 * 256 + x2 < 2 ^ 32 ∧ bitsAt (K + x0 * 16384 + x1 * 256 + x2) 26 6 = m ∧ bitsAt (K + x0 * 16384 + x1 * 256 + x2) 20 6 = c0 ∧ bitsAt (K + x0 * 16384 + x1 * 256 + x2) 14 6 = x0 ∧ bitsAt (K + x0 * 16384 + x1 * 256 + x2) 8 6 = x1 ∧ bitsAt (K + x0 * 16384 + x1 * 256 + x2) 0 1 = x2 := by
  generalize hw : K + x0 * 16384 + x1 * 256 + x2 = w
  subst hK
  unfold bitsAt
  refine ⟨?_, ?_, ?_, ?_, ?_, ?_⟩ <;> omega
theorem layout_12 {K m c0 x0 x1 : Nat} (hK : K = m * 67108864 + c0 * 1048576) (hm : m < 64) (h0 : x0 < 64) (h1 : x1 < 64) (g0 : c0 < 64) :
    K + x0 * 16384 + x1 * 256 < 2 ^ 32 ∧ bitsAt (K + x0 * 16384 + x1 * 256) 26 6 = m ∧ bitsAt (K + x0 * 16384 + x1 * 256) 20 6 = c0 ∧ bitsAt (K + x0 * 16384 + x1 * 256) 14 6 = x0 ∧ bitsAt (K + x0 * 16384 + x1 * 256) 8 6 = x1 := by
  generalize hw : K + x0 * 16384 + x1 * 256 = w
  subst hK
  unfold bitsAt
  refine ⟨?_, ?_, ?_, ?_, ?_⟩ <;> omega
theorem layout_13 {K m c0 x0 : Nat} (hK : K = m * 67108864 + c0 * 1048576) (hm : m < 64) (h0 : x0 < 256) (g0 : c0 < 64) :
    K + x0 < 2 ^ 32 ∧ bitsAt (K + x0) 26 6 = m ∧ bitsAt (K + x0) 20 6 = c0 ∧ bitsAt (K + x0) 0 8 = x0 := by
  generalize hw : K + x0 = w
  subst hK
  unfold bitsAt
  refine ⟨?_, ?_, ?_, ?_⟩ <;> omega
theorem layout_14 {K m c0 x0 : Nat} (hK : K = m * 67108864 + c0) (hm : m < 64) (h0 : x0 < 64) (g0 : c0 < 32) :
    K + x0 * 1048576 < 2 ^ 32 ∧ bitsAt (K + x0 * 1048576) 26 6 = m ∧ bitsAt (K + x0 * 1048576) 0 5 = c0 ∧ bitsAt (K + x0 * 1048576) 20 6 = x0 := by
  generalize hw : K + x0 * 1048576 = w
  subst hK
  unfold bitsAt
  refine ⟨?_, ?_, ?_, ?_⟩ <;> omega
theorem layout_15 {K m c0 x0 x1 : Nat} (hK : K = m * 67108864 + c0) (hm : m < 64) (h0 : x0 < 64) (h1 : x1 < 64) (g0 : c0 < 32) :
    K + x0 * 1048576 + x1 * 16384 < 2 ^ 32 ∧ bitsAt (K + x0 * 1048576 + x1 * 16384) 26 6 = m ∧ bitsAt (K + x0 * 1048576 + x1 * 16384) 0 5 = c0 ∧ bitsAt (K + x0 * 1048576 + x1 * 16384) 20 6 = x0 ∧ bitsAt (K + x0 * 1048576 + x1 * 16384) 14 6 = x1 := by
  generalize hw : K + x0 * 1048576 + x1 * 16384 = w
  subst hK
  unfold bitsAt
  refine ⟨?_, ?_, ?_, ?_, ?_⟩ <;> omega
theorem layout_16 {K m c0 x0 x1 : Nat} (hK : K = m * 67108864 + c0) (hm : m < 64) (h0 : x0 < 64) (h1 : x1 < 8) (g0 : c0 < 32) :
    K + x0 * 1048576 + x1 * 16384 < 2 ^ 32 ∧ bitsAt (K + x0 * 1048576 + x1 * 16384) 26 6 = m ∧ bitsAt (K + x0 * 1048576 + x1 * 16384) 0 5 = c0 ∧ bitsAt (K + x0 * 1048576 + x1 * 16384) 20 6 = x0 ∧ bitsAt (K + x0 * 1048576 + x1 * 16384) 14 3 = x1 := by
  generalize hw : K + x0 * 1048576 + x1 * 16384 = w
  subst hK
  unfold bitsAt
  refine ⟨?_, ?_, ?_, ?_, ?_⟩ <;> omega
theorem layout_17 {K m c0 x0 x1 x2 x3 : Nat} (hK : K = m * 67108864 + c0) (hm : m < 64) (h0 : x0 < 64) (h1 : x1 < 64) (h2 : x2 < 64) (h3 : x3 < 2) (g0 : c0 < 32) :
    K + x0 * 1048576 + x1 * 16384 + x2 * 256 + x3 * 128 < 2 ^ 32 ∧ bitsAt (K + x0 * 1048576 + x1 * 16384 + x2 * 256 + x3 * 128) 26 6 = m ∧ bitsAt (K + x0 * 1048576 + x1 * 16384 + x2 * 256 + x3 * 128) 0 5 = c0 ∧ bitsAt (K + x0 * 1048576 + x1 * 16384 + x2 * 256 + x3 * 128) 20 6 = x0 ∧ bitsAt (K + x0 * 1048576 + x1 * 16384 + x2 * 256 + x3 * 128) 14 6 = x1 ∧ bitsAt (K + x0 * 1048576 + x1 * 16384 + x2 * 256 + x3 * 128) 8 6 = x2 ∧ bitsAt (K + x0 * 1048576 + x1 * 16384 + x2 * 256 + x3 * 128) 7 1 = x3 := by
  generalize hw : K + x0 * 1048576 + x1 * 16384 + x2 * 256 + x3 * 128 = w
  subst hK
  unfold bitsAt
  refine ⟨?_, ?_, ?_, ?_, ?_, ?_, ?_⟩ <;> omega
theorem layout_18 {K m c0 x0 x1 x2 : Nat} (hK : K = m * 67108864 + c0) (hm : m < 64) (h0 : x0 < 64) (h1 : x1 < 64) (h2 : x2 < 2) (g0 : c0 < 32) :
    K + x0 * 1048576 + x1 * 16384 + x2 * 128 < 2 ^ 32 ∧ bitsAt (K + x0 * 1048576 + x1 * 16384 + x2 * 128) 26 6 = m ∧ bitsAt (K + x0 * 1048576 + x1 * 16384 + x2 * 128) 0 5 = c0 ∧ bitsAt (K + x0 * 1048576 + x1 * 16384 + x2 * 128) 20 6 = x0 ∧ bitsAt (K + x0 * 1048576 + x1 * 16384 + x2 * 128) 14 6 = x1 ∧ bitsAt (K + x0 * 1048576 + x1 * 16384 + x2 * 128) 7 1 = x2 := by
  generalize hw : K + x0 * 1048576 + x1 * 16384 + x2 * 128 = w
  subst hK
  unfold bitsAt
  refine ⟨?_, ?_, ?_, ?_, ?_, ?_⟩ <;> omega
theorem layout_19 {K m x0 x1 x2 : Nat} (hK : K = m * 67108864) (hm : m < 64) (h0 : x0 < 64) (h1 : x1 < 64) (h2 : x2 < 16384) :
    K + x0 * 1048576 + x1 * 16384 + x2 < 2 ^ 32 ∧ bitsAt (K + x0 * 1048576 + x1 * 16384 + x2) 26 6 = m ∧ bitsAt (K + x0 * 1048576 + x1 * 16384 + x2) 20 6 = x0 ∧ bitsAt (K + x0 * 1048576 + x1 * 16384 + x2) 14 6 = x1 ∧ bitsAt (K + x0 * 1048576 + x1 * 16384 + x2) 0 14 = x2 := by
  generalize hw : K + x0 * 1048576 + x1 * 16384 + x2 = w
  subst hK
  unfold bitsAt
  refine ⟨?_, ?_, ?_, ?_, ?_⟩ <;> omega
theorem layout_20 {K m x0 x1 : Nat} (hK : K = m * 67108864) (hm : m < 64) (h0 : x0 < 64) (h1 : x1 < 1048576) :
    K + x0 * 1048576 + x1 < 2 ^ 32 ∧ bitsAt (K + x0 * 1048576 + x1) 26 6 = m ∧ bitsAt (K + x0 * 1048576 + x1) 20 6 = x0 ∧ bitsAt (K + x0 * 1048576 + x1) 0 20 = x1 := by
  generalize hw : K + x0 * 1048576 + x1 = w
  subst hK
  unfold bitsAt
  refine ⟨?_, ?_, ?_, ?_⟩ <;> omega
theorem layout_21 {K m x0 x1 x2 x3 x4 : Nat} (hK : K = m * 67108864) (hm : m < 64) (h0 : x0 < 64) (h1 : x1 < 64) (h2 : x2 < 2) (h3 : x3 < 4) (h4 : x4 < 64) :
    K + x0 * 1048576 + x1 * 16384 + x2 * 256 + x3 * 64 + x4 < 2 ^ 32 ∧ bitsAt (K + x0 * 1048576 + x1 * 16384 + x2 * 256 + x3 * 64 + x4) 26 6 = m ∧ bitsAt (K + x0 * 1048576 + x1 * 16384 + x2 * 256 + x3 * 64 + x4) 20 6 = x0 ∧ bitsAt (K + x0 * 1048576 + x1 * 16384 + x2 * 256 + x3 * 64 + x4) 14 6 = x1 ∧ bitsAt (K + x0 * 1048576 + x1 * 16384 + x2 * 256 + x3 * 64 + x4) 8 1 = x2 ∧ bitsAt (K + x0 * 1048576 + x1 * 16384 + x2 * 256 + x3 * 64 + x4) 6 2 = x3 ∧ bitsAt (K + x0 * 1048576 + x1 * 16384 + x2 * 256 + x3 * 64 + x4) 0 6 = x4 := by
  generalize hw : K + x0 * 1048576 + x1 * 16384 + x2 * 256 + x3 * 64 + x4 = w
  subst hK
  unfold bitsAt
  refine ⟨?_, ?_, ?_, ?_, ?_, ?_, ?_⟩ <;> omega
theorem layout_22 {K m c0 x0 x1 : Nat} (hK : K = m * 67108864 + c0) (hm : m < 64) (h0 : x0 < 64) (h1 : x1 < 64) (g0 : c0 < 32) :
    K + x0 * 1048576 + x1 * 256 < 2 ^ 32 ∧ bitsAt (K + x0 * 1048576 + x1 * 256) 26 6 = m ∧ bitsAt (K + x0 * 1048576 + x1 * 256) 0 5 = c0 ∧ bitsAt (K + x0 * 1048576 + x1 * 256) 20 6 = x0 ∧ bitsAt (K + x0 * 1048576 + x1 * 256) 8 6 = x1 := by
  generalize hw : K + x0 * 1048576 + x1 * 256 = w
  subst hK
  unfold bitsAt
  refine ⟨?_, ?_, ?_, ?_, ?_⟩ <;> omega
theorem layout_23 {K m c0 x0 x1 : Nat} (hK : K = m * 67108864 + c0) (hm : m < 64) (h0 : x0 < 64) (h1 : x1 < 64) (g0 : c0 < 32) :
    K + x0 * 16384 + x1 * 256 < 2 ^ 32 ∧ bitsAt (K + x0 * 16384 + x1 * 256) 26 6 = m ∧ bitsAt (K + x0 * 16384 + x1 * 256) 0 5 = c0 ∧ bitsAt (K + x0 * 16384 + x1 * 256) 14 6 = x0 ∧ bitsAt (K + x0 * 16384 + x1 * 256) 8 6 = x1 := by
  generalize hw : K + x0 * 16384 + x1 * 256 = w
  subst hK
  unfold bitsAt
  refine ⟨?_, ?_, ?_, ?_, ?_⟩ <;> omega
theorem layout_24 {K m c0 x0 x1 x2 : Nat} (hK : K = m * 67108864 + c0) (hm : m < 64) (h0 : x0 < 64) (h1 : x1 < 64) (h2 : x2 < 2) (g0 : c0 < 32) :
    K + x0 * 1048576 + x1 * 256 + x2 * 32 < 2 ^ 32 ∧ bitsAt (K + x0 * 1048576 + x1 * 256 + x2 * 32) 26 6 = m ∧ bitsAt (K + x0 * 1048576 + x1 * 256 + x2 * 32) 0 5 = c0 ∧ bitsAt (K + x0 * 1048576 + x1 * 256 + x2 * 32) 20 6 = x0 ∧ bitsAt (K + x0 * 1048576 + x1 * 256 + x2 * 32) 8 6 = x1 ∧ bitsAt (K + x0 * 1048576 + x1 * 256 + x2 * 32) 5 1 = x2 := by
  generalize hw : K + x0 * 1048576 + x1 * 256 + x2 * 32 = w
  subst hK
  unfold bitsAt
  refine ⟨?_, ?_, ?_, ?_, ?_, ?_⟩ <;> omega
theorem layout_25 {K m x0 x1 x2 x3 x4 : Nat} (hK : K = m * 67108864) (hm : m < 64) (h0 : x0 < 64) (h1 : x1 < 64) (h2 : x2 < 64) (h3 : x3 < 4) (h4 : x4 < 16) :
    K + x0 * 1048576 + x1 * 16384 + x2 * 256 + x3 * 64 + x4 < 2 ^ 32 ∧ bitsAt (K + x0 * 1048576 + x1 * 16384 + x2 * 256 + x3 * 64 + x4) 26 6 = m ∧ bitsAt (K + x0 * 1048576 + x1 * 16384 + x2 * 256 + x3 * 64 + x4) 20 6 = x0 ∧ bitsAt (K + x0 * 1048576 + x1 * 16384 + x2 * 256 + x3 * 64 + x4) 14 6 = x1 ∧ bitsAt (K + x0 * 1048576 + x1 * 16384 + x2 * 256 + x3 * 64 + x4) 8 6 = x2 ∧ bitsAt (K + x0 * 1048576 + x1 * 16384 + x2 * 256 + x3 * 64 + x4) 6 2 = x3 ∧ bitsAt (K + x0 * 1048576 + x1 * 16384 + x2 * 256 + x3 * 64 + x4) 0 4 = x4 := by
  generalize hw : K + x0 * 1048576 + x1 * 16384 + x2 * 256 + x3 * 64 + x4 = w
  subst hK
  unfold bitsAt
  refine ⟨?_, ?_, ?_, ?_, ?_, ?_, ?_⟩ <;> omega
theorem layout_26 {K m x0 x1 x2 x3 x4 : Nat} (hK : K = m * 67108864) (hm : m < 64) (h0 : x0 < 64) (h1 : x1 < 64) (h2 : x2 < 64) (h3 : x3 < 4) (h4 : x4 < 4) :
    K + x0 * 1048576 + x1 * 16384 + x2 * 256 + x3 * 64 + x4 < 2 ^ 32 ∧ bitsAt (K + x0 * 1048576 + x1 * 16384 + x2 * 256 + x3 * 64 + x4) 26 6 = m ∧ bitsAt (K + x0 * 1048576 + x1 * 16384 + x2 * 256 + x3 * 64 + x4) 20 6 = x0 ∧ bitsAt (K + x0 * 1048576 + x1 * 16384 + x2 * 256 + x3 * 64 + x4) 14 6 = x1 ∧ bitsAt (K + x0 * 1048576 + x1 * 16384 + x2 * 256 + x3 * 64 + x4) 8 6 = x2 ∧ bitsAt (K + x0 * 1048576 + x1 * 16384 + x2 * 256 + x3 * 64 + x4) 6 2 = x3 ∧ bitsAt (K + x0 * 1048576 + x1 * 16384 + x2 * 256 + x3 * 64 + x4) 0 2 = x4 := by
  generalize hw : K + x0 * 1048576 + x1 * 16384 + x2 * 256 + x3 * 64 + x4 = w
  subst hK
  unfold bitsAt
  refine ⟨?_, ?_, ?_, ?_, ?_, ?_, ?_⟩ <;> omega
theorem layout_27 {K m c0 x0 x1 x2 : Nat} (hK : K = m * 67108864 + c0) (hm : m < 64) (h0 : x0 < 128) (h1 : x1 < 512) (h2 : x2 < 512) (g0 : c0 < 2) :
    K + x0 * 524288 + x1 * 1024 + x2 * 2 < 2 ^ 32 ∧ bitsAt (K + x0 * 524288 + x1 * 1024 + x2 * 2) 26 6 = m ∧ bitsAt (K + x0 * 524288 + x1 * 1024 + x2 * 2) 0 1 = c0 ∧ bitsAt (K + x0 * 524288 + x1 * 1024 + x2 * 2) 19 7 = x0 ∧ bitsAt (K + x0 * 524288 + x1 * 1024 + x2 * 2) 10 9 = x1 ∧ bitsAt (K + x0 * 524288 + x1 * 1024 + x2 * 2) 1 9 = x2 := by
  generalize hw : K + x0 * 524288 + x1 * 1024 + x2 * 2 = w
  subst hK
  unfold bitsAt
  refine ⟨?_, ?_, ?_, ?_, ?_, ?_⟩ <;> omega
theorem layout_28 {K m x0 x1 x2 x3 x4 : Nat} (hK : K = m * 67108864) (hm : m < 64) (h0 : x0 < 8) (h1 : x1 < 16) (h2 : x2 < 512) (h3 : x3 < 512) (h4 : x4 < 2) :
    K + x0 * 8388608 + x1 * 524288 + x2 * 1024 + x3 * 2 + x4 < 2 ^ 32 ∧ bitsAt (K + x0 * 8388608 + x1 * 524288 + x2 * 1024 + x3 * 2 + x4) 26 6 = m ∧ bitsAt (K + x0 * 8388608 + x1 * 524288 + x2 * 1024 + x3 * 2 + x4) 23 3 = x0 ∧ bitsAt (K + x0 * 8388608 + x1 * 524288 + x2 * 1024 + x3 * 2 + x4) 19 4 = x1 ∧ bitsAt (K + x0 * 8388608 + x1 * 524288 + x2 * 1024 + x3 * 2 + x4) 10 9 = x2 ∧ bitsAt (K + x0 * 8388608 + x1 * 524288 + x2 * 1024 + x3 * 2 + x4) 1 9 = x3 ∧ bitsAt (K + x0 * 8388608 + x1 * 524288 + x2 * 1024 + x3 * 2 + x4) 0 1 = x4 := by
  generalize hw : K + x0 * 8388608 + x1 * 524288 + x2 * 1024 + x3 * 2 + x4 = w
  subst hK
  unfold bitsAt
  refine ⟨?_, ?_, ?_, ?_, ?_, ?_, ?_⟩ <;> omega
theorem layout_29 {K m x0 x1 x2 x3 : Nat} (hK : K = m * 67108864) (hm : m < 64) (h0 : x0 < 8) (h1 : x1 < 16) (h2 : x2 < 512) (h3 : x3 < 512) :
    K + x0 * 8388608 + x1 * 524288 + x2 * 1024 + x3 * 2 < 2 ^ 32 ∧ bitsAt (K + x0 * 8388608 + x1 * 524288 + x2 * 1024 + x3 * 2) 26 6 = m ∧ bitsAt (K + x0 * 8388608 + x1 * 524288 + x2 * 1024 + x3 * 2) 23 3 = x0 ∧ bitsAt (K + x0 * 8388608 + x1 * 524288 + x2 * 1024 + x3 * 2) 19 4 = x1 ∧ bitsAt (K + x0 * 8388608 + x1 * 524288 + x2 * 1024 + x3 * 2) 10 9 = x2 ∧ bitsAt (K + x0 * 8388608 + x1 * 524288 + x2 * 1024 + x3 * 2) 1 9 = x3 := by
  generalize hw : K + x0 * 8388608 + x1 * 524288 + x2 * 1024 + x3 * 2 = w
  subst hK
  unfold bitsAt
  refine ⟨?_, ?_, ?_, ?_, ?_, ?_⟩ <;> omega
theorem layout_30 {K m c0 x0 x1 : Nat} (hK : K = m * 67108864 + c0) (hm : m < 64) (h0 : x0 < 128) (h1 : x1 < 512) (g0 : c0 < 32) :
    K + x0 * 524288 + x1 * 1024 < 2 ^ 32 ∧ bitsAt (K + x0 * 524288 + x1 * 1024) 26 6 = m ∧ bitsAt (K + x0 * 524288 + x1 * 1024) 0 5 = c0 ∧ bitsAt (K + x0 * 524288 + x1 * 1024) 19 7 = x0 ∧ bitsAt (K + x0 * 524288 + x1 * 1024) 10 9 = x1 := by
  generalize hw : K + x0 * 524288 + x1 * 1024 = w
  subst hK
  unfold bitsAt
  refine ⟨?_, ?_, ?_, ?_, ?_⟩ <;> omega
theorem layout_31 {K m c0 x0 x1 x2 x3 : Nat} (hK : K = m * 67108864 + c0) (hm : m < 64) (h0 : x0 < 128) (h1 : x1 < 512) (h2 : x2 < 2) (h3 : x3 < 2) (g0 : c0 < 32) :
    K + x0 * 524288 + x1 * 1024 + x2 * 64 + x3 * 32 < 2 ^ 32 ∧ bitsAt (K + x0 * 524288 + x1 * 1024 + x2 * 64 + x3 * 32) 26 6 = m ∧ bitsAt (K + x0 * 524288 + x1 * 1024 + x2 * 64 + x3 * 32) 0 5 = c0 ∧ bitsAt (K + x0 * 524288 + x1 * 1024 + x2 * 64 + x3 * 32) 19 7 = x0 ∧ bitsAt (K + x0 * 524288 + x1 * 1024 + x2 * 64 + x3 * 32) 10 9 = x1 ∧ bitsAt (K + x0 * 524288 + x1 * 1024 + x2 * 64 + x3 * 32) 6 1 = x2 ∧ bitsAt (K + x0 * 524288 + x1 * 1024 + x2 * 64 + x3 * 32) 5 1 = x3 := by
  generalize hw : K + x0 * 524288 + x1 * 1024 + x2 * 64 + x3 * 32 = w
  subst hK
  unfold bitsAt
  refine ⟨?_, ?_, ?_, ?_, ?_, ?_, ?_⟩ <;> omega
theorem layout_32 {K m c0 x0 : Nat} (hK : K = m * 67108864 + c0) (hm : m < 64) (h0 : x0 < 128) (g0 : c0 < 32) :
    K + x0 * 524288 < 2 ^ 32 ∧ bitsAt (K + x0 * 524288) 26 6 = m ∧ bitsAt (K + x0 * 524288) 0 5 = c0 ∧ bitsAt (K + x0 * 524288) 19 7 = x0 := by
  generalize hw : K + x0 * 524288 = w
  subst hK
  unfold bitsAt
  refine ⟨?_, ?_, ?_, ?_⟩ <;> omega
theorem layout_33 {K m x0 x1 x2 : Nat} (hK : K = m * 67108864) (hm : m < 64) (h0 : x0 < 128) (h1 : x1 < 512) (h2 : x2 < 1024) :
    K + x0 * 524288 + x1 * 1024 + x2 < 2 ^ 32 ∧ bitsAt (K + x0 * 524288 + x1 * 1024 + x2) 26 6 = m ∧ bitsAt (K + x0 * 524288 + x1 * 1024 + x2) 19 7 = x0 ∧ bitsAt (K + x0 * 524288 + x1 * 1024 + x2) 10 9 = x1 ∧ bitsAt (K + x0 * 524288 + x1 * 1024 + x2) 0 10 = x2 := by
  generalize hw : K + x0 * 524288 + x1 * 1024 + x2 = w
  subst hK
  unfold bitsAt
  refine ⟨?_, ?_, ?_, ?_, ?_⟩ <;> omega
theorem layout_34 {K m x0 x1 x2 x3 : Nat} (hK : K = m * 67108864) (hm : m < 64) (h0 : x0 < 128) (h1 : x1 < 512) (h2 : x2 < 4) (h3 : x3 < 32) :
    K + x0 * 524288 + x1 * 1024 + x2 * 32 + x3 < 2 ^ 32 ∧ bitsAt (K + x0 * 524288 + x1 * 1024 + x2 * 32 + x3) 26 6 = m ∧ bitsAt (K + x0 * 524288 + x1 * 1024 + x2 * 32 + x3) 19 7 = x0 ∧ bitsAt (K + x0 * 524288 + x1 * 1024 + x2 * 32 + x3) 10 9 = x1 ∧ bitsAt (K + x0 * 524288 + x1 * 1024 + x2 * 32 + x3) 5 2 = x2 ∧ bitsAt (K + x0 * 524288 + x1 * 1024 + x2 * 32 + x3) 0 5 = x3 := by
  generalize hw : K + x0 * 524288 + x1 * 1024 + x2 * 32 + x3 = w
  subst hK
  unfold bitsAt
  refine ⟨?_, ?_, ?_, ?_, ?_, ?_⟩ <;> omega
theorem layout_35 {K m x0 x1 : Nat} (hK : K = m * 67108864) (hm : m < 64) (h0 : x0 < 128) (h1 : x1 < 1024) :
    K + x0 * 524288 + x1 < 2 ^ 32 ∧ bitsAt (K + x0 * 524288 + x1) 26 6 = m ∧ bitsAt (K + x0 * 524288 + x1) 19 7 = x0 ∧ bitsAt (K + x0 * 524288 + x1) 0 10 = x1 := by
  generalize hw : K + x0 * 524288 + x1 = w
  subst hK
  unfold bitsAt
  refine ⟨?_, ?_, ?_, ?_⟩ <;> omega
theorem layout_36 {K m c0 x0 x1 : Nat} (hK : K = m * 67108864 + c0) (hm : m < 64) (h0 : x0 < 64) (h1 : x1 < 512) (g0 : c0 < 32) :
    K + x0 * 1048576 + x1 * 2048 < 2 ^ 32 ∧ bitsAt (K + x0 * 1048576 + x1 * 2048) 26 6 = m ∧ bitsAt (K + x0 * 1048576 + x1 * 2048) 0 5 = c0 ∧ bitsAt (K + x0 * 1048576 + x1 * 2048) 20 6 = x0 ∧ bitsAt (K + x0 * 1048576 + x1 * 2048) 11 9 = x1 := by
  generalize hw : K + x0 * 1048576 + x1 * 2048 = w
  subst hK
  unfold bitsAt
  refine ⟨?_, ?_, ?_, ?_, ?_⟩ <;> omega
theorem layout_37 {K m c0 x0 x1 x2 : Nat} (hK : K = m * 67108864 + c0) (hm : m < 64) (h0 : x0 < 64) (h1 : x1 < 512) (h2 : x2 < 2) (g0 : c0 < 32) :
    K + x0 * 1048576 + x1 * 2048 + x2 * 32 < 2 ^ 32 ∧ bitsAt (K + x0 * 1048576 + x1 * 2048 + x2 * 32) 26 6 = m ∧ bitsAt (K + x0 * 1048576 + x1 * 2048 + x2 * 32) 0 5 = c0 ∧ bitsAt (K + x0 * 1048576 + x1 * 2048 + x2 * 32) 20 6 = x0 ∧ bitsAt (K + x0 * 1048576 + x1 * 2048 + x2 * 32) 11 9 = x1 ∧ bitsAt (K + x0 * 1048576 + x1 * 2048 + x2 * 32) 5 1 = x2 := by
  generalize hw : K + x0 * 1048576 + x1 * 2048 + x2 * 32 = w
  subst hK
  unfold bitsAt
  refine ⟨?_, ?_, ?_, ?_, ?_, ?_⟩ <;> omega
theorem layout_38 {K m c0 x0 x1 x2 : Nat} (hK : K = m * 67108864 + c0) (hm : m < 64) (h0 : x0 < 64) (h1 : x1 < 512) (h2 : x2 < 32) (g0 : c0 < 32) :
    K + x0 * 1048576 + x1 * 2048 + x2 * 32 < 2 ^ 32 ∧ bitsAt (K + x0 * 1048576 + x1 * 2048 + x2 * 32) 26 6 = m ∧ bitsAt (K + x0 * 1048576 + x1 * 2048 + x2 * 32) 0 5 = c0 ∧ bitsAt (K + x0 * 1048576 + x1 * 2048 + x2 * 32) 20 6 = x0 ∧ bitsAt (K + x0 * 1048576 + x1 * 2048 + x2 * 32) 11 9 = x1 ∧ bitsAt (K + x0 * 1048576 + x1 * 2048 + x2 * 32) 5 5 = x2 := by
  generalize hw : K + x0 * 1048576 + x1 * 2048 + x2 * 32 = w
  subst hK
  unfold bitsAt
  refine ⟨?_, ?_, ?_, ?_, ?_, ?_⟩ <;> omega
theorem layout_39 {K m c0 x0 x1 x2 : Nat} (hK : K = m * 67108864 + c0) (hm : m < 64) (h0 : x0 < 64) (h1 : x1 < 128) (h2 : x2 < 32) (g0 : c0 < 32) :
    K + x0 * 1048576 + x1 * 2048 + x2 * 32 < 2 ^ 32 ∧ bitsAt (K + x0 * 1048576 + x1 * 2048 + x2 * 32) 26 6 = m ∧ bitsAt (K + x0 * 1048576 + x1 * 2048 + x2 * 32) 0 5 = c0 ∧ bitsAt (K + x0 * 1048576 + x1 * 2048 + x2 * 32) 20 6 = x0 ∧ bitsAt (K + x0 * 1048576 + x1 * 2048 + x2 * 32) 11 7 = x1 ∧ bitsAt (K + x0 * 1048576 + x1 * 2048 + x2 * 32) 5 5 = x2 := by
  generalize hw : K + x0 * 1048576 + x1 * 2048 + x2 * 32 = w
  subst hK
  unfold bitsAt
  refine ⟨?_, ?_, ?_, ?_, ?_, ?_⟩ <;> omega
theorem layout_40 {K m c0 x0 x1 : Nat} (hK : K = m * 67108864 + c0) (hm : m < 64) (h0 : x0 < 64) (h1 : x1 < 128) (g0 : c0 < 32) :
    K + x0 * 1048576 + x1 * 2048 < 2 ^ 32 ∧ bitsAt (K + x0 * 1048576 + x1 * 2048) 26 6 = m ∧ bitsAt (K + x0 * 1048576 + x1 * 2048) 0 5 = c0 ∧ bitsAt (K + x0 * 1048576 + x1 * 2048) 20 6 = x0 ∧ bitsAt (K + x0 * 1048576 + x1 * 2048) 11 7 = x1 := by
  generalize hw : K + x0 * 1048576 + x1 * 2048 = w
  subst hK
  unfold bitsAt
  refine ⟨?_, ?_, ?_, ?_, ?_⟩ <;> omega
theorem layout_41 {K m c0 x0 x1 x2 : Nat} (hK : K = m * 67108864 + c0) (hm : m < 64) (h0 : x0 < 128) (h1 : x1 < 512) (h2 : x2 < 8) (g0 : c0 < 32) :
    K + x0 * 524288 + x1 * 1024 + x2 * 32 < 2 ^ 32 ∧ bitsAt (K + x0 * 524288 + x1 * 1024 + x2 * 32) 26 6 = m ∧ bitsAt (K + x0 * 524288 + x1 * 1024 + x2 * 32) 0 5 = c0 ∧ bitsAt (K + x0 * 524288 + x1 * 1024 + x2 * 32) 19 7 = x0 ∧ bitsAt (K + x0 * 524288 + x1 * 1024 + x2 * 32) 10 9 = x1 ∧ bitsAt (K + x0 * 524288 + x1 * 1024 + x2 * 32) 5 3 = x2 := by
  generalize hw : K + x0 * 524288 + x1 * 1024 + x2 * 32 = w
  subst hK
  unfold bitsAt
  refine ⟨?_, ?_, ?_, ?_, ?_, ?_⟩ <;> omega
theorem layout_42 {K m c0 x0 x1 x2 x3 : Nat} (hK : K = m * 67108864 + c0) (hm : m < 64) (h0 : x0 < 128) (h1 : x1 < 512) (h2 : x2 < 2) (h3 : x3 < 16) (g0 : c0 < 32) :
    K + x0 * 524288 + x1 * 1024 + x2 * 512 + x3 * 32 < 2 ^ 32 ∧ bitsAt (K + x0 * 524288 + x1 * 1024 + x2 * 512 + x3 * 32) 26 6 = m ∧ bitsAt (K + x0 * 524288 + x1 * 1024 + x2 * 512 + x3 * 32) 0 5 = c0 ∧ bitsAt (K + x0 * 524288 + x1 * 1024 + x2 * 512 + x3 * 32) 19 7 = x0 ∧ bitsAt (K + x0 * 524288 + x1 * 1024 + x2 * 512 + x3 * 32) 10 9 = x1 ∧ bitsAt (K + x0 * 524288 + x1 * 1024 + x2 * 512 + x3 * 32) 9 1 = x2 ∧ bitsAt (K + x0 * 524288 + x1 * 1024 + x2 * 512 + x3 * 32) 5 4 = x3 := by
  generalize hw : K + x0 * 524288 + x1 * 1024 + x2 * 512 + x3 * 32 = w
  subst hK
  unfold bitsAt
  refine ⟨?_, ?_, ?_, ?_, ?_, ?_, ?_⟩ <;> omega
theorem layout_43 {K m c0 x0 x1 : Nat} (hK : K = m * 67108864 + c0) (hm : m < 64) (h0 : x0 < 128) (h1 : x1 < 512) (g0 : c0 < 2) :
    K + x0 * 524288 + x1 * 1024 < 2 ^ 32 ∧ bitsAt (K + x0 * 524288 + x1 * 1024) 26 6 = m ∧ bitsAt (K + x0 * 524288 + x1 * 1024) 0 1 = c0 ∧ bitsAt (K + x0 * 524288 + x1 * 1024) 19 7 = x0 ∧ bitsAt (K + x0 * 524288 + x1 * 1024) 10 9 = x1 := by
  generalize hw : K + x0 * 524288 + x1 * 1024 = w
  subst hK
  unfold bitsAt
  refine ⟨?_, ?_, ?_, ?_, ?_⟩ <;> omega
theorem layout_44 {K m x0 x1 x2 x3 x4 : Nat} (hK : K = m * 67108864) (hm : m < 64) (h0 : x0 < 128) (h1 : x1 < 128) (h2 : x2 < 64) (h3 : x3 < 8) (h4 : x4 < 8) :
    K + x0 * 524288 + x1 * 4096 + x2 * 64 + x3 * 8 + x4 < 2 ^ 32 ∧ bitsAt (K + x0 * 524288 + x1 * 4096 + x2 * 64 + x3 * 8 + x4) 26 6 = m ∧ bitsAt (K + x0 * 524288 + x1 * 4096 + x2 * 64 + x3 * 8 + x4) 19 7 = x0 ∧ bitsAt (K + x0 * 524288 + x1 * 4096 + x2 * 64 + x3 * 8 + x4) 12 7 = x1 ∧ bitsAt (K + x0 * 524288 + x1 * 4096 + x2 * 64 + x3 * 8 + x4) 6 6 = x2 ∧ bitsAt (K + x0 * 524288 + x1 * 4096 + x2 * 64 + x3 * 8 + x4) 3 3 = x3 ∧ bitsAt (K + x0 * 524288 + x1 * 4096 + x2 * 64 + x3 * 8 + x4) 0 3 = x4 := by
  generalize hw : K + x0 * 524288 + x1 * 4096 + x2 * 64 + x3 * 8 + x4 = w
  subst hK
  unfold bitsAt
  refine ⟨?_, ?_, ?_, ?_, ?_, ?_, ?_⟩ <;> omega
theorem layout_45 {K m c0 x0 x1 x2 x3 x4 : Nat} (hK : K = m * 67108864 + c0 * 256) (hm : m < 64) (h0 : x0 < 64) (h1 : x1 < 64) (h2 : x2 < 8) (h3 : x3 < 4) (h4 : x4 < 256) (g0 : c0 < 2) :
    K + x0 * 1048576 + x1 * 16384 + x2 * 2048 + x3 * 512 + x4 < 2 ^ 32 ∧ bitsAt (K + x0 * 1048576 + x1 * 16384 + x2 * 2048 + x3 * 512 + x4) 26 6 = m ∧ bitsAt (K + x0 * 1048576 + x1 * 16384 + x2 * 2048 + x3 * 512 + x4) 8 1 = c0 ∧ bitsAt (K + x0 * 1048576 + x1 * 16384 + x2 * 2048 + x3 * 512 + x4) 20 6 = x0 ∧ bitsAt (K + x0 * 1048576 + x1 * 16384 + x2 * 2048 + x3 * 512 + x4) 14 6 = x1 ∧ bitsAt (K + x0 * 1048576 + x1 * 16384 + x2 * 2048 + x3 * 512 + x4) 11 3 = x2 ∧ bitsAt (K + x0 * 1048576 + x1 * 16384 + x2 * 2048 + x3 * 512 + x4) 9 2 = x3 ∧ bitsAt (K + x0 * 1048576 + x1 * 16384 + x2 * 2048 + x3 * 512 + x4) 0 8 = x4 := by
  generalize hw : K + x0 * 1048576 + x1 * 16384 + x2 * 2048 + x3 * 512 + x4 = w
  subst hK
  unfold bitsAt
  refine ⟨?_, ?_, ?_, ?_, ?_, ?_, ?_, ?_⟩ <;> omega
theorem layout_46 {K m x0 x1 x2 x3 x4 : Nat} (hK : K = m * 67108864) (hm : m < 64) (h0 : x0 < 128) (h1 : x1 < 128) (h2 : x2 < 64) (h3 : x3 < 4) (h4 : x4 < 16) :
    K + x0 * 524288 + x1 * 4096 + x2 * 64 + x3 * 16 + x4 < 2 ^ 32 ∧ bitsAt (K + x0 * 524288 + x1 * 4096 + x2 * 64 + x3 * 16 + x4) 26 6 = m ∧ bitsAt (K + x0 * 524288 + x1 * 4096 + x2 * 64 + x3 * 16 + x4) 19 7 = x0 ∧ bitsAt (K + x0 * 524288 + x1 * 4096 + x2 * 64 + x3 * 16 + x4) 12 7 = x1 ∧ bitsAt (K + x0 * 524288 + x1 * 4096 + x2 * 64 + x3 * 16 + x4) 6 6 = x2 ∧ bitsAt (K + x0 * 524288 + x1 * 4096 + x2 * 64 + x3 * 16 + x4) 4 2 = x3 ∧ bitsAt (K + x0 * 524288 + x1 * 4096 + x2 * 64 + x3 * 16 + x4) 0 4 = x4 := by
  generalize hw : K + x0 * 524288 + x1 * 4096 + x2 * 64 + x3 * 16 + x4 = w
  subst hK
  unfold bitsAt
  refine ⟨?_, ?_, ?_, ?_, ?_, ?_, ?_⟩ <;> omega
theorem layout_47 {K m c0 x0 x1 x2 x3 : Nat} (hK : K = m * 67108864 + c0) (hm : m < 64) (h0 : x0 < 128) (h1 : x1 < 128) (h2 : x2 < 64) (h3 : x3 < 4) (g0 : c0 < 16) :
    K + x0 * 524288 + x1 * 4096 + x2 * 64 + x3 * 16 < 2 ^ 32 ∧ bitsAt (K + x0 * 524288 + x1 * 4096 + x2 * 64 + x3 * 16) 26 6 = m ∧ bitsAt (K + x0 * 524288 + x1 * 4096 + x2 * 64 + x3 * 16) 0 4 = c0 ∧ bitsAt (K + x0 * 524288 + x1 * 4096 + x2 * 64 + x3 * 16) 19 7 = x0 ∧ bitsAt (K + x0 * 524288 + x1 * 4096 + x2 * 64 + x3 * 16) 12 7 = x1 ∧ bitsAt (K + x0 * 524288 + x1 * 4096 + x2 * 64 + x3 * 16) 6 6 = x2 ∧ bitsAt (K + x0 * 524288 + x1 * 4096 + x2 * 64 + x3 * 16) 4 2 = x3 := by
  generalize hw : K + x0 * 524288 + x1 * 4096 + x2 * 64 + x3 * 16 = w
  subst hK
  unfold bitsAt
  refine ⟨?_, ?_, ?_, ?_, ?_, ?_, ?_⟩ <;> omega
theorem layout_48 {K m c0 x0 x1 : Nat} (hK : K = m * 67108864 + c0 * 1048576) (hm : m < 64) (h0 : x0 < 64) (h1 : x1 < 4) (g0 : c0 < 64) :
    K + x0 * 16384 + x1 < 2 ^ 32 ∧ bitsAt (K + x0 * 16384 + x1) 26 6 = m ∧ bitsAt (K + x0 * 16384 + x1) 20 6 = c0 ∧ bitsAt (K + x0 * 16384 + x1) 14 6 = x0 ∧ bitsAt (K + x0 * 16384 + x1) 0 2 = x1 := by
  generalize hw : K + x0 * 16384 + x1 = w
  subst hK
  unfold bitsAt
  refine ⟨?_, ?_, ?_, ?_, ?_⟩ <;> omega
theorem layout_49 {K m c0 x0 x1 x2 : Nat} (hK : K = m * 67108864 + c0 * 1048576) (hm : m < 64) (h0 : x0 < 64) (h1 : x1 < 64) (h2 : x2 < 8) (g0 : c0 < 64) :
    K + x0 * 16384 + x1 * 256 + x2 * 8 < 2 ^ 32 ∧ bitsAt (K + x0 * 16384 + x1 * 256 + x2 * 8) 26 6 = m ∧ bitsAt (K + x0 * 16384 + x1 * 256 + x2 * 8) 20 6 = c0 ∧ bitsAt (K + x0 * 16384 + x1 * 256 + x2 * 8) 14 6 = x0 ∧ bitsAt (K + x0 * 16384 + x1 * 256 + x2 * 8) 8 6 = x1 ∧ bitsAt (K + x0 * 16384 + x1 * 256 + x2 * 8) 3 3 = x2 := by
  generalize hw : K + x0 * 16384 + x1 * 256 + x2 * 8 = w
  subst hK
  unfold bitsAt
  refine ⟨?_, ?_, ?_, ?_, ?_, ?_⟩ <;> omega
theorem layout_50 {K m c0 x0 x1 : Nat} (hK : K = m * 67108864 + c0 * 1048576) (hm : m < 64) (h0 : x0 < 8) (h1 : x1 < 8) (g0 : c0 < 64) :
    K + x0 * 8 + x1 < 2 ^ 32 ∧ bitsAt (K + x0 * 8 + x1) 26 6 = m ∧ bitsAt (K + x0 * 8 + x1) 20 6 = c0 ∧ bitsAt (K + x0 * 8 + x1) 3 3 = x0 ∧ bitsAt (K + x0 * 8 + x1) 0 3 = x1 := by
  generalize hw : K + x0 * 8 + x1 = w
  subst hK
  unfold bitsAt
  refine ⟨?_, ?_, ?_, ?_, ?_⟩ <;> omega
theorem layout_51 {K m c0 x0 x1 x2 : Nat} (hK : K = m * 67108864 + c0 * 1048576) (hm : m < 64) (h0 : x0 < 64) (h1 : x1 < 64) (h2 : x2 < 4) (g0 : c0 < 64) :
    K + x0 * 16384 + x1 * 256 + x2 < 2 ^ 32 ∧ bitsAt (K + x0 * 16384 + x1 * 256 + x2) 26 6 = m ∧ bitsAt (K + x0 * 16384 + x1 * 256 + x2) 20 6 = c0 ∧ bitsAt (K + x0 * 16384 + x1 * 256 + x2) 14 6 = x0 ∧ bitsAt (K + x0 * 16384 + x1 * 256 + x2) 8 6 = x1 ∧ bitsAt (K + x0 * 16384 + x1 * 256 + x2) 0 2 = x2 := by
  generalize hw : K + x0 * 16384 + x1 * 256 + x2 = w
  subst hK
  unfold bitsAt
  refine ⟨?_, ?_, ?_, ?_, ?_, ?_⟩ <;> omega
theorem layout_52 {K m c0 x0 x1 x2 : Nat} (hK : K = m * 67108864 + c0 * 1048576) (hm : m < 64) (h0 : x0 < 64) (h1 : x1 < 2) (h2 : x2 < 8) (g0 : c0 < 64) :
    K + x0 * 16384 + x1 * 8 + x2 < 2 ^ 32 ∧ bitsAt (K + x0 * 16384 + x1 * 8 + x2) 26 6 = m ∧ bitsAt (K + x0 * 16384 + x1 * 8 + x2) 20 6 = c0 ∧ bitsAt (K + x0 * 16384 + x1 * 8 + x2) 14 6 = x0 ∧ bitsAt (K + x0 * 16384 + x1 * 8 + x2) 3 1 = x1 ∧ bitsAt (K + x0 * 16384 + x1 * 8 + x2) 0 3 = x2 := by
  generalize hw : K + x0 * 16384 + x1 * 8 + x2 = w
  subst hK
  unfold bitsAt
  refine ⟨?_, ?_, ?_, ?_, ?_, ?_⟩ <;> omega
theorem layout_53 {K m c0 x0 x1 x2 : Nat} (hK : K = m * 67108864 + c0 * 1048576) (hm : m < 64) (h0 : x0 < 64) (h1 : x1 < 64) (h2 : x2 < 8) (g0 : c0 < 64) :
    K + x0 * 16384 + x1 * 256 + x2 < 2 ^ 32 ∧ bitsAt (K + x0 * 16384 + x1 * 256 + x2) 26 6 = m ∧ bitsAt (K + x0 * 16384 + x1 * 256 + x2) 20 6 = c0 ∧ bitsAt (K + x0 * 16384 + x1 * 256 + x2) 14 6 = x0 ∧ bitsAt (K + x0 * 16384 + x1 * 256 + x2) 8 6 = x1 ∧ bitsAt (K + x0 * 16384 + x1 * 256 + x2) 0 3 = x2 := by
  generalize hw : K + x0 * 16384 + x1 * 256 + x2 = w
  subst hK
  unfold bitsAt
  refine ⟨?_, ?_, ?_, ?_, ?_, ?_⟩ <;> omega
theorem layout_54 {K m c0 c1 x0 x1 : Nat} (hK : K = m * 67108864 + c0 * 1048576 + c1 * 16) (hm : m < 64) (h0 : x0 < 64) (h1 : x1 < 16) (g0 : c0 < 64) (g1 : c1 < 2) :
    K + x0 * 16384 + x1 < 2 ^ 32 ∧ bitsAt (K + x0 * 16384 + x1) 26 6 = m ∧ bitsAt (K + x0 * 16384 + x1) 20 6 = c0 ∧ bitsAt (K + x0 * 16384 + x1) 4 1 = c1 ∧ bitsAt (K + x0 * 16384 + x1) 14 6 = x0 ∧ bitsAt (K + x0 * 16384 + x1) 0 4 = x1 := by
  generalize hw : K + x0 * 16384 + x1 = w
  subst hK
  unfold bitsAt
  refine ⟨?_, ?_, ?_, ?_, ?_, ?_⟩ <;> omega
theorem layout_55 {K m c0 x0 x1 x2 : Nat} (hK : K = m * 67108864 + c0 * 1048576) (hm : m < 64) (h0 : x0 < 64) (h1 : x1 < 64) (h2 : x2 < 16) (g0 : c0 < 64) :
    K + x0 * 16384 + x1 * 256 + x2 < 2 ^ 32 ∧ bitsAt (K + x0 * 16384 + x1 * 256 + x2) 26 6 = m ∧ bitsAt (K + x0 * 16384 + x1 * 256 + x2) 20 6 = c0 ∧ bitsAt (K + x0 * 16384 + x1 * 256 + x2) 14 6 = x0 ∧ bitsAt (K + x0 * 16384 + x1 * 256 + x2) 8 6 = x1 ∧ bitsAt (K + x0 * 16384 + x1 * 256 + x2) 0 4 = x2 := by
  generalize hw : K + x0 * 16384 + x1 * 256 + x2 = w
  subst hK
  unfold bitsAt
  refine ⟨?_, ?_, ?_, ?_, ?_, ?_⟩ <;> omega
theorem layout_56 {K m c0 x0 x1 x2 x3 : Nat} (hK : K = m * 67108864 + c0 * 1048576) (hm : m < 64) (h0 : x0 < 64) (h1 : x1 < 64) (h2 : x2 < 2) (h3 : x3 < 16) (g0 : c0 < 64) :
    K + x0 * 16384 + x1 * 256 + x2 * 16 + x3 < 2 ^ 32 ∧ bitsAt (K + x0 * 16384 + x1 * 256 + x2 * 16 + x3) 26 6 = m ∧ bitsAt (K + x0 * 16384 + x1 * 256 + x2 * 16 + x3) 20 6 = c0 ∧ bitsAt (K + x0 * 16384 + x1 * 256 + x2 * 16 + x3) 14 6 = x0 ∧ bitsAt (K + x0 * 16384 + x1 * 256 + x2 * 16 + x3) 8 6 = x1 ∧ bitsAt (K + x0 * 16384 + x1 * 256 + x2 * 16 + x3) 4 1 = x2 ∧ bitsAt (K + x0 * 16384 + x1 * 256 + x2 * 16 + x3) 0 4 = x3 := by
  generalize hw : K + x0 * 16384 + x1 * 256 + x2 * 16 + x3 = w
  subst hK
  unfold bitsAt
  refine ⟨?_, ?_, ?_, ?_, ?_, ?_, ?_⟩ <;> omega
theorem layout_57 {K m c0 x0 : Nat} (hK : K = m * 67108864 + c0 * 1048576) (hm : m < 64) (h0 : x0 < 16) (g0 : c0 < 64) :
    K + x0 < 2 ^ 32 ∧ bitsAt (K + x0) 26 6 = m ∧ bitsAt (K + x0) 20 6 = c0 ∧ bitsAt (K + x0) 0 4 = x0 := by
  generalize hw : K + x0 = w
  subst hK
  unfold bitsAt
  refine ⟨?_, ?_, ?_, ?_⟩ <;> omega
theorem layout_58 {K m c0 x0 x1 : Nat} (hK : K = m * 67108864 + c0 * 1048576) (hm : m < 64) (h0 : x0 < 64) (h1 : x1 < 16) (g0 : c0 < 64) :
    K + x0 * 16384 + x1 < 2 ^ 32 ∧ bitsAt (K + x0 * 16384 + x1) 26 6 = m ∧ bitsAt (K + x0 * 16384 + x1) 20 6 = c0 ∧ bitsAt (K + x0 * 16384 + x1) 14 6 = x0 ∧ bitsAt (K + x0 * 16384 + x1) 0 4 = x1 := by
  generalize hw : K + x0 * 16384 + x1 = w
  subst hK
  unfold bitsAt
  refine ⟨?_, ?_, ?_, ?_, ?_⟩ <;> omega
theorem layout_59 {K m c0 x0 x1 x2 x3 : Nat} (hK : K = m * 67108864 + c0 * 1048576) (hm : m < 64) (h0 : x0 < 64) (h1 : x1 < 64) (h2 : x2 < 2) (h3 : x3 < 128) (g0 : c0 < 64) :
    K + x0 * 16384 + x1 * 256 + x2 * 128 + x3 < 2 ^ 32 ∧ bitsAt (K + x0 * 16384 + x1 * 256 + x2 * 128 + x3) 26 6 = m ∧ bitsAt (K + x0 * 16384 + x1 * 256 + x2 * 128 + x3) 20 6 = c0 ∧ bitsAt (K + x0 * 16384 + x1 * 256 + x2 * 128 + x3) 14 6 = x0 ∧ bitsAt (K + x0 * 16384 + x1 * 256 + x2 * 128 + x3) 8 6 = x1 ∧ bitsAt (K + x0 * 16384 + x1 * 256 + x2 * 128 + x3) 7 1 = x2 ∧ bitsAt (K + x0 * 16384 + x1 * 256 + x2 * 128 + x3) 0 7 = x3 := by
  generalize hw : K + x0 * 16384 + x1 * 256 + x2 * 128 + x3 = w
  subst hK
  unfold bitsAt
  refine ⟨?_, ?_, ?_, ?_, ?_, ?_, ?_⟩ <;> omega
theorem layout_60 {K m c0 x0 x1 : Nat} (hK : K = m * 67108864 + c0 * 1048576) (hm : m < 64) (h0 : x0 < 64) (h1 : x1 < 128) (g0 : c0 < 64) :
    K + x0 * 16384 + x1 < 2 ^ 32 ∧ bitsAt (K + x0 * 16384 + x1) 26 6 = m ∧ bitsAt (K + x0 * 16384 + x1) 20 6 = c0 ∧ bitsAt (K + x0 * 16384 + x1) 14 6 = x0 ∧ bitsAt (K + x0 * 16384 + x1) 0 7 = x1 := by
  generalize hw : K + x0 * 16384 + x1 = w
  subst hK
  unfold bitsAt
  refine ⟨?_, ?_, ?_, ?_, ?_⟩ <;> omega
theorem layout_61 {K m c0 c1 c2 x0 x1 x2 : Nat} (hK : K = m * 67108864 + c0 * 1048576 + c1 * 16 + c2 * 8) (hm : m < 64) (h0 : x0 < 64) (h1 : x1 < 64) (h2 : x2 < 8) (g0 : c0 < 64) (g1 : c1 < 2) (g2 : c2 < 2) :
    K + x0 * 16384 + x1 * 256 + x2 < 2 ^ 32 ∧ bitsAt (K + x0 * 16384 + x1 * 256 + x2) 26 6 = m ∧ bitsAt (K + x0 * 16384 + x1 * 256 + x2) 20 6 = c0 ∧ bitsAt (K + x0 * 16384 + x1 * 256 + x2) 4 1 = c1 ∧ bitsAt (K + x0 * 16384 + x1 * 256 + x2) 3 1 = c2 ∧ bitsAt (K + x0 * 16384 + x1 * 256 + x2) 14 6 = x0 ∧ bitsAt (K + x0 * 16384 + x1 * 256 + x2) 8 6 = x1 ∧ bitsAt (K + x0 * 16384 + x1 * 256 + x2) 0 3 = x2 := by
  generalize hw : K + x0 * 16384 + x1 * 256 + x2 = w
  subst hK
  unfold bitsAt
  refine ⟨?_, ?_, ?_, ?_, ?_, ?_, ?_, ?_⟩ <;> omega
theorem layout_62 {K m c0 c1 c2 x0 x1 : Nat} (hK : K = m * 67108864 + c0 * 1048576 + c1 * 16 + c2 * 8) (hm : m < 64) (h0 : x0 < 64) (h1 : x1 < 8) (g0 : c0 < 64) (g1 : c1 < 2) (g2 : c2 < 2) :
    K + x0 * 16384 + x1 < 2 ^ 32 ∧ bitsAt (K + x0 * 16384 + x1) 26 6 = m ∧ bitsAt (K + x0 * 16384 + x1) 20 6 = c0 ∧ bitsAt (K + x0 * 16384 + x1) 4 1 = c1 ∧ bitsAt (K + x0 * 16384 + x1) 3 1 = c2 ∧ bitsAt (K + x0 * 16384 + x1) 14 6 = x0 ∧ bitsAt (K + x0 * 16384 + x1) 0 3 = x1 := by
  generalize hw : K + x0 * 16384 + x1 = w
  subst hK
  unfold bitsAt
  refine ⟨?_, ?_, ?_, ?_, ?_, ?_, ?_⟩ <;> omega
theorem layout_63 {K m c0 x0 x1 x2 : Nat} (hK : K = m * 67108864 + c0 * 1048576) (hm : m < 64) (h0 : x0 < 64) (h1 : x1 < 4) (h2 : x2 < 8) (g0 : c0 < 64) :
    K + x0 * 16384 + x1 * 64 + x2 < 2 ^ 32 ∧ bitsAt (K + x0 * 16384 + x1 * 64 + x2) 26 6 = m ∧ bitsAt (K + x0 * 16384 + x1 * 64 + x2) 20 6 = c0 ∧ bitsAt (K + x0 * 16384 + x1 * 64 + x2) 14 6 = x0 ∧ bitsAt (K + x0 * 16384 + x1 * 64 + x2) 6 2 = x1 ∧ bitsAt (K + x0 * 16384 + x1 * 64 + x2) 0 3 = x2 := by
  generalize hw : K + x0 * 16384 + x1 * 64 + x2 = w
  subst hK
  unfold bitsAt
  refine ⟨?_, ?_, ?_, ?_, ?_, ?_⟩ <;> omega
theorem layout_64 {K m c0 x0 x1 x2 x3 x4 : Nat} (hK : K = m * 67108864 + c0 * 1048576) (hm : m < 64) (h0 : x0 < 64) (h1 : x1 < 64) (h2 : x2 < 4) (h3 : x3 < 8) (h4 : x4 < 8) (g0 : c0 < 64) :
    K + x0 * 16384 + x1 * 256 + x2 * 64 + x3 * 8 + x4 < 2 ^ 32 ∧ bitsAt (K + x0 * 16384 + x1 * 256 + x2 * 64 + x3 * 8 + x4) 26 6 = m ∧ bitsAt (K + x0 * 16384 + x1 * 256 + x2 * 64 + x3 * 8 + x4) 20 6 = c0 ∧ bitsAt (K + x0 * 16384 + x1 * 256 + x2 * 64 + x3 * 8 + x4) 14 6 = x0 ∧ bitsAt (K + x0 * 16384 + x1 * 256 + x2 * 64 + x3 * 8 + x4) 8 6 = x1 ∧ bitsAt (K + x0 * 16384 + x1 * 256 + x2 * 64 + x3 * 8 + x4) 6 2 = x2 ∧ bitsAt (K + x0 * 16384 + x1 * 256 + x2 * 64 + x3 * 8 + x4) 3 3 = x3 ∧ bitsAt (K + x0 * 16384 + x1 * 256 + x2 * 64 + x3 * 8 + x4) 0 3 = x4 := by
  generalize hw : K + x0 * 16384 + x1 * 256 + x2 * 64 + x3 * 8 + x4 = w
  subst hK
  unfold bitsAt
  refine ⟨?_, ?_, ?_, ?_, ?_, ?_, ?_, ?_⟩ <;> omega
theorem layout_65 {K m c0 x0 x1 x2 x3 : Nat} (hK : K = m * 67108864 + c0 * 1048576) (hm : m < 64) (h0 : x0 < 64) (h1 : x1 < 4) (h2 : x2 < 8) (h3 : x3 < 8) (g0 : c0 < 64) :
    K + x0 * 16384 + x1 * 64 + x2 * 8 + x3 < 2 ^ 32 ∧ bitsAt (K + x0 * 16384 + x1 * 64 + x2 * 8 + x3) 26 6 = m ∧ bitsAt (K + x0 * 16384 + x1 * 64 + x2 * 8 + x3) 20 6 = c0 ∧ bitsAt (K + x0 * 16384 + x1 * 64 + x2 * 8 + x3) 14 6 = x0 ∧ bitsAt (K + x0 * 16384 + x1 * 64 + x2 * 8 + x3) 6 2 = x1 ∧ bitsAt (K + x0 * 16384 + x1 * 64 + x2 * 8 + x3) 3 3 = x2 ∧ bitsAt (K + x0 * 16384 + x1 * 64 + x2 * 8 + x3) 0 3 = x3 := by
  generalize hw : K + x0 * 16384 + x1 * 64 + x2 * 8 + x3 = w
  subst hK
  unfold bitsAt
  refine ⟨?_, ?_, ?_, ?_, ?_, ?_, ?_⟩ <;> omega
theorem layout_66 {K m c0 x0 x1 x2 : Nat} (hK : K = m * 67108864 + c0 * 1048576) (hm : m < 64) (h0 : x0 < 64) (h1 : x1 < 64) (h2 : x2 < 256) (g0 : c0 < 64) :
    K + x0 * 16384 + x1 * 256 + x2 < 2 ^ 32 ∧ bitsAt (K + x0 * 16384 + x1 * 256 + x2) 26 6 = m ∧ bitsAt (K + x0 * 16384 + x1 * 256 + x2) 20 6 = c0 ∧ bitsAt (K + x0 * 16384 + x1 * 256 + x2) 14 6 = x0 ∧ bitsAt (K + x0 * 16384 + x1 * 256 + x2) 8 6 = x1 ∧ bitsAt (K + x0 * 16384 + x1 * 256 + x2) 0 8 = x2 := by
  generalize hw : K + x0 * 16384 + x1 * 256 + x2 = w
  subst hK
  unfold bitsAt
  refine ⟨?_, ?_, ?_, ?_, ?_, ?_⟩ <;> omega

/-! ### One lemma per constructor -/

theorem RoundTrip.nop : RoundTrip.Statement .nop := fun _ _ => by decide
theorem RoundTrip.hintSch (ymask : Nat) (c4 : Nat) (c3 : Nat) (c2 : Nat) (c1 : Nat) : RoundTrip.Statement (.hintSch ymask c4 c3 c2 c1) := by
  intro _ h
  change (decide (ymask < 16) && decide (c4 < 16) && decide (c3 < 16) && decide (c2 < 16) && decide (c1 < 16)) = true at h
  simp only [Bool.and_eq_true, decide_eq_true_eq] at h
  obtain ⟨hw, hm, c0, e_ymask, e_c4, e_c3, e_c2, e_c1⟩ := layout_1 (K := 0x400000) (m := 0) (c0 := 1) (x0 := ymask) (x1 := c4) (x2 := c3) (x3 := c2) (x4 := c1) rfl (by decide) (by omega) (by omega) (by omega) (by omega) (by omega) (by decide)
  change 0x400000 + ymask * 65536 + c4 * 4096 + c3 * 256 + c2 * 16 + c1 < 2 ^ 32 ∧ decodeFields (0x400000 + ymask * 65536 + c4 * 4096 + c3 * 256 + c2 * 16 + c1) = _
  revert hw hm c0 e_ymask e_c4 e_c3 e_c2 e_c1
  generalize 0x400000 + ymask * 65536 + c4 * 4096 + c3 * 256 + c2 * 16 + c1 = w
  intro hw hm c0 e_ymask e_c4 e_c3 e_c2 e_c1
  refine ⟨hw, ?_⟩
  simp only [decodeFields, hm, major00, c0, e_ymask, e_c4, e_c3, e_c2, e_c1]
theorem RoundTrip.hintImm (payload : Nat) : RoundTrip.Statement (.hintImm payload) := by
  intro _ h
  change (decide (payload < 4194304)) = true at h
  simp only [decide_eq_true_eq] at h
  obtain ⟨hw, hm, c0, e_payload⟩ := layout_2 (K := 0x800000) (m := 0) (c0 := 2) (x0 := payload) rfl (by decide) (by omega) (by decide)
  change 0x800000 + payload < 2 ^ 32 ∧ decodeFields (0x800000 + payload) = _
  revert hw hm c0 e_payload
  generalize 0x800000 + payload = w
  intro hw hm c0 e_payload
  refine ⟨hw, ?_⟩
  simp only [decodeFields, hm, major00, c0, e_payload]
theorem RoundTrip.hintOrd (scope : Nat) (order : Nat) : RoundTrip.Statement (.hintOrd scope order) := by
  intro _ h
  change (decide (scope < 8) && decide (order < 8) && decide (order ≤ 4) && decide (scope ≤ 5)) = true at h
  simp only [Bool.and_eq_true, decide_eq_true_eq] at h
  obtain ⟨hw, hm, c0, e_scope, e_order⟩ := layout_3 (K := 0xC00000) (m := 0) (c0 := 3) (x0 := scope) (x1 := order) rfl (by decide) (by omega) (by omega) (by decide)
  change 0xC00000 + scope * 8 + order < 2 ^ 32 ∧ decodeFields (0xC00000 + scope * 8 + order) = _
  revert hw hm c0 e_scope e_order
  generalize 0xC00000 + scope * 8 + order = w
  intro hw hm c0 e_scope e_order
  refine ⟨hw, ?_⟩
  simp only [decodeFields, hm, major00, c0, e_scope, e_order]
theorem RoundTrip.hintMod (upd : Bool) (sub : Nat) (zero : Bool) (pk : Nat) (sat : Bool) (rnd : Nat) (cache : Nat) : RoundTrip.Statement (.hintMod upd sub zero pk sat rnd cache) := by
  intro _ h
  change (decide (sub < 8) && decide (pk < 4) && decide (rnd < 8) && decide (cache < 4) && decide (sub ≤ 6) && decide (pk ≤ 2) && decide (rnd ≤ 4)) = true at h
  simp only [Bool.and_eq_true, decide_eq_true_eq] at h
  obtain ⟨hw, hm, c0, e_upd, e_sub, e_zero, e_pk, e_sat, e_rnd, e_cache⟩ := layout_4 (K := 0x1000000) (m := 0) (c0 := 4) (x0 := upd.toNat) (x1 := sub) (x2 := zero.toNat) (x3 := pk) (x4 := sat.toNat) (x5 := rnd) (x6 := cache) rfl (by decide) (bit_lt upd) (by omega) (bit_lt zero) (by omega) (bit_lt sat) (by omega) (by omega) (by decide)
  change 0x1000000 + upd.toNat * 4096 + sub * 512 + zero.toNat * 256 + pk * 64 + sat.toNat * 32 + rnd * 4 + cache < 2 ^ 32 ∧ decodeFields (0x1000000 + upd.toNat * 4096 + sub * 512 + zero.toNat * 256 + pk * 64 + sat.toNat * 32 + rnd * 4 + cache) = _
  revert hw hm c0 e_upd e_sub e_zero e_pk e_sat e_rnd e_cache
  generalize 0x1000000 + upd.toNat * 4096 + sub * 512 + zero.toNat * 256 + pk * 64 + sat.toNat * 32 + rnd * 4 + cache = w
  intro hw hm c0 e_upd e_sub e_zero e_pk e_sat e_rnd e_cache
  refine ⟨hw, ?_⟩
  simp only [decodeFields, hm, major00, c0, bitAt_of e_upd, e_sub, bitAt_of e_zero, e_pk, bitAt_of e_sat, e_rnd, e_cache]
theorem RoundTrip.hintExt (sel : Nat) (cls : Nat) (reg : Nat) : RoundTrip.Statement (.hintExt sel cls reg) := by
  intro _ h
  change (decide (sel < 4) && decide (cls < 8) && decide (reg < 128) && decide (cls ≤ 5) && (sel == 0 || cls == 0)) = true at h
  simp only [Bool.and_eq_true, decide_eq_true_eq] at h
  obtain ⟨hw, hm, c0, e_sel, e_cls, e_reg⟩ := layout_5 (K := 0x1400000) (m := 0) (c0 := 5) (x0 := sel) (x1 := cls) (x2 := reg) rfl (by decide) (by omega) (by omega) (by omega) (by decide)
  change 0x1400000 + sel * 1024 + cls * 128 + reg < 2 ^ 32 ∧ decodeFields (0x1400000 + sel * 1024 + cls * 128 + reg) = _
  revert hw hm c0 e_sel e_cls e_reg
  generalize 0x1400000 + sel * 1024 + cls * 128 + reg = w
  intro hw hm c0 e_sel e_cls e_reg
  refine ⟨hw, ?_⟩
  simp only [decodeFields, hm, major00, c0, e_sel, e_cls, e_reg]
theorem RoundTrip.br (off : Nat) : RoundTrip.Statement (.br off) := by
  intro _ h
  change (decide (off < 4194304)) = true at h
  simp only [decide_eq_true_eq] at h
  obtain ⟨hw, hm, c0, e_off⟩ := layout_2 (K := 0x4000000) (m := 1) (c0 := 0) (x0 := off) rfl (by decide) (by omega) (by decide)
  change 0x4000000 + off < 2 ^ 32 ∧ decodeFields (0x4000000 + off) = _
  revert hw hm c0 e_off
  generalize 0x4000000 + off = w
  intro hw hm c0 e_off
  refine ⟨hw, ?_⟩
  simp only [decodeFields, hm, major01, c0, e_off]
theorem RoundTrip.bxz (off : Nat) : RoundTrip.Statement (.bxz off) := by
  intro _ h
  change (decide (off < 4194304)) = true at h
  simp only [decide_eq_true_eq] at h
  obtain ⟨hw, hm, c0, e_off⟩ := layout_2 (K := 0x4400000) (m := 1) (c0 := 1) (x0 := off) rfl (by decide) (by omega) (by decide)
  change 0x4400000 + off < 2 ^ 32 ∧ decodeFields (0x4400000 + off) = _
  revert hw hm c0 e_off
  generalize 0x4400000 + off = w
  intro hw hm c0 e_off
  refine ⟨hw, ?_⟩
  simp only [decodeFields, hm, major01, c0, e_off]
theorem RoundTrip.bxnz (off : Nat) : RoundTrip.Statement (.bxnz off) := by
  intro _ h
  change (decide (off < 4194304)) = true at h
  simp only [decide_eq_true_eq] at h
  obtain ⟨hw, hm, c0, e_off⟩ := layout_2 (K := 0x4800000) (m := 1) (c0 := 2) (x0 := off) rfl (by decide) (by omega) (by decide)
  change 0x4800000 + off < 2 ^ 32 ∧ decodeFields (0x4800000 + off) = _
  revert hw hm c0 e_off
  generalize 0x4800000 + off = w
  intro hw hm c0 e_off
  refine ⟨hw, ?_⟩
  simp only [decodeFields, hm, major01, c0, e_off]
theorem RoundTrip.bxall (off : Nat) : RoundTrip.Statement (.bxall off) := by
  intro _ h
  change (decide (off < 4194304)) = true at h
  simp only [decide_eq_true_eq] at h
  obtain ⟨hw, hm, c0, e_off⟩ := layout_2 (K := 0x4C00000) (m := 1) (c0 := 3) (x0 := off) rfl (by decide) (by omega) (by decide)
  change 0x4C00000 + off < 2 ^ 32 ∧ decodeFields (0x4C00000 + off) = _
  revert hw hm c0 e_off
  generalize 0x4C00000 + off = w
  intro hw hm c0 e_off
  refine ⟨hw, ?_⟩
  simp only [decodeFields, hm, major01, c0, e_off]
theorem RoundTrip.bs (sa : Nat) (cond : Nat) (off : Nat) : RoundTrip.Statement (.bs sa cond off) := by
  intro _ h
  change (decide (sa < 64) && decide (cond < 16) && decide (off < 65536) && decide (cond ≤ 5)) = true at h
  simp only [Bool.and_eq_true, decide_eq_true_eq] at h
  obtain ⟨hw, hm, e_sa, e_cond, e_off⟩ := layout_6 (K := 0x8000000) (m := 2) (x0 := sa) (x1 := cond) (x2 := off) rfl (by decide) (by omega) (by omega) (by omega)
  change 0x8000000 + sa * 1048576 + cond * 65536 + off < 2 ^ 32 ∧ decodeFields (0x8000000 + sa * 1048576 + cond * 65536 + off) = _
  revert hw hm e_sa e_cond e_off
  generalize 0x8000000 + sa * 1048576 + cond * 65536 + off = w
  intro hw hm e_sa e_cond e_off
  refine ⟨hw, ?_⟩
  simp only [decodeFields, hm, major02, e_sa, e_cond, e_off]
theorem RoundTrip.call (off : Nat) : RoundTrip.Statement (.call off) := by
  intro _ h
  change (decide (off < 4194304)) = true at h
  simp only [decide_eq_true_eq] at h
  obtain ⟨hw, hm, c0, e_off⟩ := layout_2 (K := 0xC000000) (m := 3) (c0 := 0) (x0 := off) rfl (by decide) (by omega) (by decide)
  change 0xC000000 + off < 2 ^ 32 ∧ decodeFields (0xC000000 + off) = _
  revert hw hm c0 e_off
  generalize 0xC000000 + off = w
  intro hw hm c0 e_off
  refine ⟨hw, ?_⟩
  simp only [decodeFields, hm, major03, c0, e_off]
theorem RoundTrip.bdiv (p : Nat) (neg : Bool) (off : Nat) : RoundTrip.Statement (.bdiv p neg off) := by
  intro _ h
  change (decide (p < 8) && decide (off < 4194304)) = true at h
  simp only [Bool.and_eq_true, decide_eq_true_eq] at h
  obtain ⟨hw, hm, e_p, e_neg, e_off⟩ := layout_7 (K := 0x10000000) (m := 4) (x0 := p) (x1 := neg.toNat) (x2 := off) rfl (by decide) (by omega) (bit_lt neg) (by omega)
  change 0x10000000 + p * 8388608 + neg.toNat * 4194304 + off < 2 ^ 32 ∧ decodeFields (0x10000000 + p * 8388608 + neg.toNat * 4194304 + off) = _
  revert hw hm e_p e_neg e_off
  generalize 0x10000000 + p * 8388608 + neg.toNat * 4194304 + off = w
  intro hw hm e_p e_neg e_off
  refine ⟨hw, ?_⟩
  simp only [decodeFields, hm, major04, e_p, bitAt_of e_neg, e_off]
theorem RoundTrip.ret : RoundTrip.Statement .ret := fun _ _ => by decide
theorem RoundTrip.calli (sa : Nat) : RoundTrip.Statement (.calli sa) := by
  intro _ h
  change (decide (sa < 64)) = true at h
  simp only [decide_eq_true_eq] at h
  obtain ⟨hw, hm, c0, e_sa⟩ := layout_8 (K := 0x14100000) (m := 5) (c0 := 1) (x0 := sa) rfl (by decide) (by omega) (by decide)
  change 0x14100000 + sa * 16384 < 2 ^ 32 ∧ decodeFields (0x14100000 + sa * 16384) = _
  revert hw hm c0 e_sa
  generalize 0x14100000 + sa * 16384 = w
  intro hw hm c0 e_sa
  refine ⟨hw, ?_⟩
  simp only [decodeFields, hm, major05, c0, e_sa]
theorem RoundTrip.jmpi (sa : Nat) : RoundTrip.Statement (.jmpi sa) := by
  intro _ h
  change (decide (sa < 64)) = true at h
  simp only [decide_eq_true_eq] at h
  obtain ⟨hw, hm, c0, e_sa⟩ := layout_8 (K := 0x14200000) (m := 5) (c0 := 2) (x0 := sa) rfl (by decide) (by omega) (by decide)
  change 0x14200000 + sa * 16384 < 2 ^ 32 ∧ decodeFields (0x14200000 + sa * 16384) = _
  revert hw hm c0 e_sa
  generalize 0x14200000 + sa * 16384 = w
  intro hw hm c0 e_sa
  refine ⟨hw, ?_⟩
  simp only [decodeFields, hm, major05, c0, e_sa]
theorem RoundTrip.bjt (sa : Nat) (sb : Nat) (vi : Nat) : RoundTrip.Statement (.bjt sa sb vi) := by
  intro _ h
  change (decide (sa < 64) && decide (sb < 64) && decide (vi < 128)) = true at h
  simp only [Bool.and_eq_true, decide_eq_true_eq] at h
  obtain ⟨hw, hm, c0, e_sa, e_sb, e_vi⟩ := layout_9 (K := 0x14300000) (m := 5) (c0 := 3) (x0 := sa) (x1 := sb) (x2 := vi) rfl (by decide) (by omega) (by omega) (by omega) (by decide)
  change 0x14300000 + sa * 16384 + sb * 256 + vi < 2 ^ 32 ∧ decodeFields (0x14300000 + sa * 16384 + sb * 256 + vi) = _
  revert hw hm c0 e_sa e_sb e_vi
  generalize 0x14300000 + sa * 16384 + sb * 256 + vi = w
  intro hw hm c0 e_sa e_sb e_vi
  refine ⟨hw, ?_⟩
  simp only [decodeFields, hm, major05, c0, e_sa, e_sb, e_vi]
theorem RoundTrip.join : RoundTrip.Statement .join := fun _ _ => by decide
theorem RoundTrip.yield : RoundTrip.Statement .yield := fun _ _ => by decide
theorem RoundTrip.exit : RoundTrip.Statement .exit := fun _ _ => by decide
theorem RoundTrip.mwait (sa : Nat) (sb : Nat) (dbl : Bool) (uns : Bool) (cond : Nat) : RoundTrip.Statement (.mwait sa sb dbl uns cond) := by
  intro _ h
  change (decide (sa < 64) && decide (sb < 64) && decide (cond < 8) && decide (cond ≤ 5)) = true at h
  simp only [Bool.and_eq_true, decide_eq_true_eq] at h
  obtain ⟨hw, hm, c0, e_sa, e_sb, e_dbl, e_uns, e_cond⟩ := layout_10 (K := 0x14700000) (m := 5) (c0 := 7) (x0 := sa) (x1 := sb) (x2 := dbl.toNat) (x3 := uns.toNat) (x4 := cond) rfl (by decide) (by omega) (by omega) (bit_lt dbl) (bit_lt uns) (by omega) (by decide)
  change 0x14700000 + sa * 16384 + sb * 256 + dbl.toNat * 16 + uns.toNat * 8 + cond < 2 ^ 32 ∧ decodeFields (0x14700000 + sa * 16384 + sb * 256 + dbl.toNat * 16 + uns.toNat * 8 + cond) = _
  revert hw hm c0 e_sa e_sb e_dbl e_uns e_cond
  generalize 0x14700000 + sa * 16384 + sb * 256 + dbl.toNat * 16 + uns.toNat * 8 + cond = w
  intro hw hm c0 e_sa e_sb e_dbl e_uns e_cond
  refine ⟨hw, ?_⟩
  simp only [decodeFields, hm, major05, c0, e_sa, e_sb, bitAt_of e_dbl, bitAt_of e_uns, e_cond]
theorem RoundTrip.spawn (sa : Nat) (sb : Nat) (sup : Bool) : RoundTrip.Statement (.spawn sa sb sup) := by
  intro _ h
  change (decide (sa < 64) && decide (sb < 64) && (!sup || sa != 63)) = true at h
  simp only [Bool.and_eq_true, decide_eq_true_eq] at h
  obtain ⟨hw, hm, c0, e_sa, e_sb, e_sup⟩ := layout_11 (K := 0x14800000) (m := 5) (c0 := 8) (x0 := sa) (x1 := sb) (x2 := sup.toNat) rfl (by decide) (by omega) (by omega) (bit_lt sup) (by decide)
  change 0x14800000 + sa * 16384 + sb * 256 + sup.toNat < 2 ^ 32 ∧ decodeFields (0x14800000 + sa * 16384 + sb * 256 + sup.toNat) = _
  revert hw hm c0 e_sa e_sb e_sup
  generalize 0x14800000 + sa * 16384 + sb * 256 + sup.toNat = w
  intro hw hm c0 e_sa e_sb e_sup
  refine ⟨hw, ?_⟩
  simp only [decodeFields, hm, major05, c0, e_sa, e_sb, bitAt_of e_sup]
theorem RoundTrip.waitc (sa : Nat) (sb : Nat) : RoundTrip.Statement (.waitc sa sb) := by
  intro _ h
  change (decide (sa < 64) && decide (sb < 64)) = true at h
  simp only [Bool.and_eq_true, decide_eq_true_eq] at h
  obtain ⟨hw, hm, c0, e_sa, e_sb⟩ := layout_12 (K := 0x14900000) (m := 5) (c0 := 9) (x0 := sa) (x1 := sb) rfl (by decide) (by omega) (by omega) (by decide)
  change 0x14900000 + sa * 16384 + sb * 256 < 2 ^ 32 ∧ decodeFields (0x14900000 + sa * 16384 + sb * 256) = _
  revert hw hm c0 e_sa e_sb
  generalize 0x14900000 + sa * 16384 + sb * 256 = w
  intro hw hm c0 e_sa e_sb
  refine ⟨hw, ?_⟩
  simp only [decodeFields, hm, major05, c0, e_sa, e_sb]
theorem RoundTrip.trap (n : Nat) : RoundTrip.Statement (.trap n) := by
  intro _ h
  change (decide (n < 256)) = true at h
  simp only [decide_eq_true_eq] at h
  obtain ⟨hw, hm, c0, e_n⟩ := layout_13 (K := 0x14A00000) (m := 5) (c0 := 10) (x0 := n) rfl (by decide) (by omega) (by decide)
  change 0x14A00000 + n < 2 ^ 32 ∧ decodeFields (0x14A00000 + n) = _
  revert hw hm c0 e_n
  generalize 0x14A00000 + n = w
  intro hw hm c0 e_n
  refine ⟨hw, ?_⟩
  simp only [decodeFields, hm, major05, c0, e_n]
theorem RoundTrip.brk (n : Nat) : RoundTrip.Statement (.brk n) := by
  intro _ h
  change (decide (n < 256)) = true at h
  simp only [decide_eq_true_eq] at h
  obtain ⟨hw, hm, c0, e_n⟩ := layout_13 (K := 0x14B00000) (m := 5) (c0 := 11) (x0 := n) rfl (by decide) (by omega) (by decide)
  change 0x14B00000 + n < 2 ^ 32 ∧ decodeFields (0x14B00000 + n) = _
  revert hw hm c0 e_n
  generalize 0x14B00000 + n = w
  intro hw hm c0 e_n
  refine ⟨hw, ?_⟩
  simp only [decodeFields, hm, major05, c0, e_n]
theorem RoundTrip.xmGet (sd : Nat) : RoundTrip.Statement (.xmGet sd) := by
  intro _ h
  change (decide (sd < 64)) = true at h
  simp only [decide_eq_true_eq] at h
  obtain ⟨hw, hm, c0, e_sd⟩ := layout_14 (K := 0x18000000) (m := 6) (c0 := 0) (x0 := sd) rfl (by decide) (by omega) (by decide)
  change 0x18000000 + sd * 1048576 < 2 ^ 32 ∧ decodeFields (0x18000000 + sd * 1048576) = _
  revert hw hm c0 e_sd
  generalize 0x18000000 + sd * 1048576 = w
  intro hw hm c0 e_sd
  refine ⟨hw, ?_⟩
  simp only [decodeFields, hm, major06, c0, e_sd]
theorem RoundTrip.xmSet (sd : Nat) (sa : Nat) : RoundTrip.Statement (.xmSet sd sa) := by
  intro _ h
  change (decide (sd < 64) && decide (sa < 64)) = true at h
  simp only [Bool.and_eq_true, decide_eq_true_eq] at h
  obtain ⟨hw, hm, c0, e_sd, e_sa⟩ := layout_15 (K := 0x18000001) (m := 6) (c0 := 1) (x0 := sd) (x1 := sa) rfl (by decide) (by omega) (by omega) (by decide)
  change 0x18000001 + sd * 1048576 + sa * 16384 < 2 ^ 32 ∧ decodeFields (0x18000001 + sd * 1048576 + sa * 16384) = _
  revert hw hm c0 e_sd e_sa
  generalize 0x18000001 + sd * 1048576 + sa * 16384 = w
  intro hw hm c0 e_sd e_sa
  refine ⟨hw, ?_⟩
  simp only [decodeFields, hm, major06, c0, e_sd, e_sa]
theorem RoundTrip.xmAnd (sd : Nat) (sa : Nat) : RoundTrip.Statement (.xmAnd sd sa) := by
  intro _ h
  change (decide (sd < 64) && decide (sa < 64)) = true at h
  simp only [Bool.and_eq_true, decide_eq_true_eq] at h
  obtain ⟨hw, hm, c0, e_sd, e_sa⟩ := layout_15 (K := 0x18000002) (m := 6) (c0 := 2) (x0 := sd) (x1 := sa) rfl (by decide) (by omega) (by omega) (by decide)
  change 0x18000002 + sd * 1048576 + sa * 16384 < 2 ^ 32 ∧ decodeFields (0x18000002 + sd * 1048576 + sa * 16384) = _
  revert hw hm c0 e_sd e_sa
  generalize 0x18000002 + sd * 1048576 + sa * 16384 = w
  intro hw hm c0 e_sd e_sa
  refine ⟨hw, ?_⟩
  simp only [decodeFields, hm, major06, c0, e_sd, e_sa]
theorem RoundTrip.xmAndn (sd : Nat) (sa : Nat) : RoundTrip.Statement (.xmAndn sd sa) := by
  intro _ h
  change (decide (sd < 64) && decide (sa < 64)) = true at h
  simp only [Bool.and_eq_true, decide_eq_true_eq] at h
  obtain ⟨hw, hm, c0, e_sd, e_sa⟩ := layout_15 (K := 0x18000003) (m := 6) (c0 := 3) (x0 := sd) (x1 := sa) rfl (by decide) (by omega) (by omega) (by decide)
  change 0x18000003 + sd * 1048576 + sa * 16384 < 2 ^ 32 ∧ decodeFields (0x18000003 + sd * 1048576 + sa * 16384) = _
  revert hw hm c0 e_sd e_sa
  generalize 0x18000003 + sd * 1048576 + sa * 16384 = w
  intro hw hm c0 e_sd e_sa
  refine ⟨hw, ?_⟩
  simp only [decodeFields, hm, major06, c0, e_sd, e_sa]
theorem RoundTrip.xmFromp (sd : Nat) (p : Nat) : RoundTrip.Statement (.xmFromp sd p) := by
  intro _ h
  change (decide (sd < 64) && decide (p < 8)) = true at h
  simp only [Bool.and_eq_true, decide_eq_true_eq] at h
  obtain ⟨hw, hm, c0, e_sd, e_p⟩ := layout_16 (K := 0x18000004) (m := 6) (c0 := 4) (x0 := sd) (x1 := p) rfl (by decide) (by omega) (by omega) (by decide)
  change 0x18000004 + sd * 1048576 + p * 16384 < 2 ^ 32 ∧ decodeFields (0x18000004 + sd * 1048576 + p * 16384) = _
  revert hw hm c0 e_sd e_p
  generalize 0x18000004 + sd * 1048576 + p * 16384 = w
  intro hw hm c0 e_sd e_p
  refine ⟨hw, ?_⟩
  simp only [decodeFields, hm, major06, c0, e_sd, e_p]
theorem RoundTrip.xmPop (sd : Nat) : RoundTrip.Statement (.xmPop sd) := by
  intro _ h
  change (decide (sd < 64)) = true at h
  simp only [decide_eq_true_eq] at h
  obtain ⟨hw, hm, c0, e_sd⟩ := layout_14 (K := 0x18000005) (m := 6) (c0 := 5) (x0 := sd) rfl (by decide) (by omega) (by decide)
  change 0x18000005 + sd * 1048576 < 2 ^ 32 ∧ decodeFields (0x18000005 + sd * 1048576) = _
  revert hw hm c0 e_sd
  generalize 0x18000005 + sd * 1048576 = w
  intro hw hm c0 e_sd
  refine ⟨hw, ?_⟩
  simp only [decodeFields, hm, major06, c0, e_sd]
theorem RoundTrip.sadd (sd : Nat) (sa : Nat) (sb : Nat) (w32 : Bool) : RoundTrip.Statement (.sadd sd sa sb w32) := by
  intro _ h
  change (decide (sd < 64) && decide (sa < 64) && decide (sb < 64)) = true at h
  simp only [Bool.and_eq_true, decide_eq_true_eq] at h
  obtain ⟨hw, hm, c0, e_sd, e_sa, e_sb, e_w32⟩ := layout_17 (K := 0x1C000000) (m := 7) (c0 := 0) (x0 := sd) (x1 := sa) (x2 := sb) (x3 := w32.toNat) rfl (by decide) (by omega) (by omega) (by omega) (bit_lt w32) (by decide)
  change 0x1C000000 + sd * 1048576 + sa * 16384 + sb * 256 + w32.toNat * 128 < 2 ^ 32 ∧ decodeFields (0x1C000000 + sd * 1048576 + sa * 16384 + sb * 256 + w32.toNat * 128) = _
  revert hw hm c0 e_sd e_sa e_sb e_w32
  generalize 0x1C000000 + sd * 1048576 + sa * 16384 + sb * 256 + w32.toNat * 128 = w
  intro hw hm c0 e_sd e_sa e_sb e_w32
  refine ⟨hw, ?_⟩
  simp only [decodeFields, hm, major07, c0, e_sd, e_sa, e_sb, bitAt_of e_w32]
theorem RoundTrip.ssub (sd : Nat) (sa : Nat) (sb : Nat) (w32 : Bool) : RoundTrip.Statement (.ssub sd sa sb w32) := by
  intro _ h
  change (decide (sd < 64) && decide (sa < 64) && decide (sb < 64)) = true at h
  simp only [Bool.and_eq_true, decide_eq_true_eq] at h
  obtain ⟨hw, hm, c0, e_sd, e_sa, e_sb, e_w32⟩ := layout_17 (K := 0x1C000001) (m := 7) (c0 := 1) (x0 := sd) (x1 := sa) (x2 := sb) (x3 := w32.toNat) rfl (by decide) (by omega) (by omega) (by omega) (bit_lt w32) (by decide)
  change 0x1C000001 + sd * 1048576 + sa * 16384 + sb * 256 + w32.toNat * 128 < 2 ^ 32 ∧ decodeFields (0x1C000001 + sd * 1048576 + sa * 16384 + sb * 256 + w32.toNat * 128) = _
  revert hw hm c0 e_sd e_sa e_sb e_w32
  generalize 0x1C000001 + sd * 1048576 + sa * 16384 + sb * 256 + w32.toNat * 128 = w
  intro hw hm c0 e_sd e_sa e_sb e_w32
  refine ⟨hw, ?_⟩
  simp only [decodeFields, hm, major07, c0, e_sd, e_sa, e_sb, bitAt_of e_w32]
theorem RoundTrip.smul (sd : Nat) (sa : Nat) (sb : Nat) (w32 : Bool) : RoundTrip.Statement (.smul sd sa sb w32) := by
  intro _ h
  change (decide (sd < 64) && decide (sa < 64) && decide (sb < 64)) = true at h
  simp only [Bool.and_eq_true, decide_eq_true_eq] at h
  obtain ⟨hw, hm, c0, e_sd, e_sa, e_sb, e_w32⟩ := layout_17 (K := 0x1C000002) (m := 7) (c0 := 2) (x0 := sd) (x1 := sa) (x2 := sb) (x3 := w32.toNat) rfl (by decide) (by omega) (by omega) (by omega) (bit_lt w32) (by decide)
  change 0x1C000002 + sd * 1048576 + sa * 16384 + sb * 256 + w32.toNat * 128 < 2 ^ 32 ∧ decodeFields (0x1C000002 + sd * 1048576 + sa * 16384 + sb * 256 + w32.toNat * 128) = _
  revert hw hm c0 e_sd e_sa e_sb e_w32
  generalize 0x1C000002 + sd * 1048576 + sa * 16384 + sb * 256 + w32.toNat * 128 = w
  intro hw hm c0 e_sd e_sa e_sb e_w32
  refine ⟨hw, ?_⟩
  simp only [decodeFields, hm, major07, c0, e_sd, e_sa, e_sb, bitAt_of e_w32]
theorem RoundTrip.smulh (sd : Nat) (sa : Nat) (sb : Nat) (w32 : Bool) : RoundTrip.Statement (.smulh sd sa sb w32) := by
  intro _ h
  change (decide (sd < 64) && decide (sa < 64) && decide (sb < 64)) = true at h
  simp only [Bool.and_eq_true, decide_eq_true_eq] at h
  obtain ⟨hw, hm, c0, e_sd, e_sa, e_sb, e_w32⟩ := layout_17 (K := 0x1C000003) (m := 7) (c0 := 3) (x0 := sd) (x1 := sa) (x2 := sb) (x3 := w32.toNat) rfl (by decide) (by omega) (by omega) (by omega) (bit_lt w32) (by decide)
  change 0x1C000003 + sd * 1048576 + sa * 16384 + sb * 256 + w32.toNat * 128 < 2 ^ 32 ∧ decodeFields (0x1C000003 + sd * 1048576 + sa * 16384 + sb * 256 + w32.toNat * 128) = _
  revert hw hm c0 e_sd e_sa e_sb e_w32
  generalize 0x1C000003 + sd * 1048576 + sa * 16384 + sb * 256 + w32.toNat * 128 = w
  intro hw hm c0 e_sd e_sa e_sb e_w32
  refine ⟨hw, ?_⟩
  simp only [decodeFields, hm, major07, c0, e_sd, e_sa, e_sb, bitAt_of e_w32]
theorem RoundTrip.smulhu (sd : Nat) (sa : Nat) (sb : Nat) (w32 : Bool) : RoundTrip.Statement (.smulhu sd sa sb w32) := by
  intro _ h
  change (decide (sd < 64) && decide (sa < 64) && decide (sb < 64)) = true at h
  simp only [Bool.and_eq_true, decide_eq_true_eq] at h
  obtain ⟨hw, hm, c0, e_sd, e_sa, e_sb, e_w32⟩ := layout_17 (K := 0x1C000004) (m := 7) (c0 := 4) (x0 := sd) (x1 := sa) (x2 := sb) (x3 := w32.toNat) rfl (by decide) (by omega) (by omega) (by omega) (bit_lt w32) (by decide)
  change 0x1C000004 + sd * 1048576 + sa * 16384 + sb * 256 + w32.toNat * 128 < 2 ^ 32 ∧ decodeFields (0x1C000004 + sd * 1048576 + sa * 16384 + sb * 256 + w32.toNat * 128) = _
  revert hw hm c0 e_sd e_sa e_sb e_w32
  generalize 0x1C000004 + sd * 1048576 + sa * 16384 + sb * 256 + w32.toNat * 128 = w
  intro hw hm c0 e_sd e_sa e_sb e_w32
  refine ⟨hw, ?_⟩
  simp only [decodeFields, hm, major07, c0, e_sd, e_sa, e_sb, bitAt_of e_w32]
theorem RoundTrip.sdiv (sd : Nat) (sa : Nat) (sb : Nat) (w32 : Bool) : RoundTrip.Statement (.sdiv sd sa sb w32) := by
  intro _ h
  change (decide (sd < 64) && decide (sa < 64) && decide (sb < 64)) = true at h
  simp only [Bool.and_eq_true, decide_eq_true_eq] at h
  obtain ⟨hw, hm, c0, e_sd, e_sa, e_sb, e_w32⟩ := layout_17 (K := 0x1C000005) (m := 7) (c0 := 5) (x0 := sd) (x1 := sa) (x2 := sb) (x3 := w32.toNat) rfl (by decide) (by omega) (by omega) (by omega) (bit_lt w32) (by decide)
  change 0x1C000005 + sd * 1048576 + sa * 16384 + sb * 256 + w32.toNat * 128 < 2 ^ 32 ∧ decodeFields (0x1C000005 + sd * 1048576 + sa * 16384 + sb * 256 + w32.toNat * 128) = _
  revert hw hm c0 e_sd e_sa e_sb e_w32
  generalize 0x1C000005 + sd * 1048576 + sa * 16384 + sb * 256 + w32.toNat * 128 = w
  intro hw hm c0 e_sd e_sa e_sb e_w32
  refine ⟨hw, ?_⟩
  simp only [decodeFields, hm, major07, c0, e_sd, e_sa, e_sb, bitAt_of e_w32]
theorem RoundTrip.sdivu (sd : Nat) (sa : Nat) (sb : Nat) (w32 : Bool) : RoundTrip.Statement (.sdivu sd sa sb w32) := by
  intro _ h
  change (decide (sd < 64) && decide (sa < 64) && decide (sb < 64)) = true at h
  simp only [Bool.and_eq_true, decide_eq_true_eq] at h
  obtain ⟨hw, hm, c0, e_sd, e_sa, e_sb, e_w32⟩ := layout_17 (K := 0x1C000006) (m := 7) (c0 := 6) (x0 := sd) (x1 := sa) (x2 := sb) (x3 := w32.toNat) rfl (by decide) (by omega) (by omega) (by omega) (bit_lt w32) (by decide)
  change 0x1C000006 + sd * 1048576 + sa * 16384 + sb * 256 + w32.toNat * 128 < 2 ^ 32 ∧ decodeFields (0x1C000006 + sd * 1048576 + sa * 16384 + sb * 256 + w32.toNat * 128) = _
  revert hw hm c0 e_sd e_sa e_sb e_w32
  generalize 0x1C000006 + sd * 1048576 + sa * 16384 + sb * 256 + w32.toNat * 128 = w
  intro hw hm c0 e_sd e_sa e_sb e_w32
  refine ⟨hw, ?_⟩
  simp only [decodeFields, hm, major07, c0, e_sd, e_sa, e_sb, bitAt_of e_w32]
theorem RoundTrip.srem (sd : Nat) (sa : Nat) (sb : Nat) (w32 : Bool) : RoundTrip.Statement (.srem sd sa sb w32) := by
  intro _ h
  change (decide (sd < 64) && decide (sa < 64) && decide (sb < 64)) = true at h
  simp only [Bool.and_eq_true, decide_eq_true_eq] at h
  obtain ⟨hw, hm, c0, e_sd, e_sa, e_sb, e_w32⟩ := layout_17 (K := 0x1C000007) (m := 7) (c0 := 7) (x0 := sd) (x1 := sa) (x2 := sb) (x3 := w32.toNat) rfl (by decide) (by omega) (by omega) (by omega) (bit_lt w32) (by decide)
  change 0x1C000007 + sd * 1048576 + sa * 16384 + sb * 256 + w32.toNat * 128 < 2 ^ 32 ∧ decodeFields (0x1C000007 + sd * 1048576 + sa * 16384 + sb * 256 + w32.toNat * 128) = _
  revert hw hm c0 e_sd e_sa e_sb e_w32
  generalize 0x1C000007 + sd * 1048576 + sa * 16384 + sb * 256 + w32.toNat * 128 = w
  intro hw hm c0 e_sd e_sa e_sb e_w32
  refine ⟨hw, ?_⟩
  simp only [decodeFields, hm, major07, c0, e_sd, e_sa, e_sb, bitAt_of e_w32]
theorem RoundTrip.sand (sd : Nat) (sa : Nat) (sb : Nat) (w32 : Bool) : RoundTrip.Statement (.sand sd sa sb w32) := by
  intro _ h
  change (decide (sd < 64) && decide (sa < 64) && decide (sb < 64)) = true at h
  simp only [Bool.and_eq_true, decide_eq_true_eq] at h
  obtain ⟨hw, hm, c0, e_sd, e_sa, e_sb, e_w32⟩ := layout_17 (K := 0x1C000008) (m := 7) (c0 := 8) (x0 := sd) (x1 := sa) (x2 := sb) (x3 := w32.toNat) rfl (by decide) (by omega) (by omega) (by omega) (bit_lt w32) (by decide)
  change 0x1C000008 + sd * 1048576 + sa * 16384 + sb * 256 + w32.toNat * 128 < 2 ^ 32 ∧ decodeFields (0x1C000008 + sd * 1048576 + sa * 16384 + sb * 256 + w32.toNat * 128) = _
  revert hw hm c0 e_sd e_sa e_sb e_w32
  generalize 0x1C000008 + sd * 1048576 + sa * 16384 + sb * 256 + w32.toNat * 128 = w
  intro hw hm c0 e_sd e_sa e_sb e_w32
  refine ⟨hw, ?_⟩
  simp only [decodeFields, hm, major07, c0, e_sd, e_sa, e_sb, bitAt_of e_w32]
theorem RoundTrip.sor (sd : Nat) (sa : Nat) (sb : Nat) (w32 : Bool) : RoundTrip.Statement (.sor sd sa sb w32) := by
  intro _ h
  change (decide (sd < 64) && decide (sa < 64) && decide (sb < 64)) = true at h
  simp only [Bool.and_eq_true, decide_eq_true_eq] at h
  obtain ⟨hw, hm, c0, e_sd, e_sa, e_sb, e_w32⟩ := layout_17 (K := 0x1C000009) (m := 7) (c0 := 9) (x0 := sd) (x1 := sa) (x2 := sb) (x3 := w32.toNat) rfl (by decide) (by omega) (by omega) (by omega) (bit_lt w32) (by decide)
  change 0x1C000009 + sd * 1048576 + sa * 16384 + sb * 256 + w32.toNat * 128 < 2 ^ 32 ∧ decodeFields (0x1C000009 + sd * 1048576 + sa * 16384 + sb * 256 + w32.toNat * 128) = _
  revert hw hm c0 e_sd e_sa e_sb e_w32
  generalize 0x1C000009 + sd * 1048576 + sa * 16384 + sb * 256 + w32.toNat * 128 = w
  intro hw hm c0 e_sd e_sa e_sb e_w32
  refine ⟨hw, ?_⟩
  simp only [decodeFields, hm, major07, c0, e_sd, e_sa, e_sb, bitAt_of e_w32]
theorem RoundTrip.sxor (sd : Nat) (sa : Nat) (sb : Nat) (w32 : Bool) : RoundTrip.Statement (.sxor sd sa sb w32) := by
  intro _ h
  change (decide (sd < 64) && decide (sa < 64) && decide (sb < 64)) = true at h
  simp only [Bool.and_eq_true, decide_eq_true_eq] at h
  obtain ⟨hw, hm, c0, e_sd, e_sa, e_sb, e_w32⟩ := layout_17 (K := 0x1C00000A) (m := 7) (c0 := 10) (x0 := sd) (x1 := sa) (x2 := sb) (x3 := w32.toNat) rfl (by decide) (by omega) (by omega) (by omega) (bit_lt w32) (by decide)
  change 0x1C00000A + sd * 1048576 + sa * 16384 + sb * 256 + w32.toNat * 128 < 2 ^ 32 ∧ decodeFields (0x1C00000A + sd * 1048576 + sa * 16384 + sb * 256 + w32.toNat * 128) = _
  revert hw hm c0 e_sd e_sa e_sb e_w32
  generalize 0x1C00000A + sd * 1048576 + sa * 16384 + sb * 256 + w32.toNat * 128 = w
  intro hw hm c0 e_sd e_sa e_sb e_w32
  refine ⟨hw, ?_⟩
  simp only [decodeFields, hm, major07, c0, e_sd, e_sa, e_sb, bitAt_of e_w32]
theorem RoundTrip.sandn (sd : Nat) (sa : Nat) (sb : Nat) (w32 : Bool) : RoundTrip.Statement (.sandn sd sa sb w32) := by
  intro _ h
  change (decide (sd < 64) && decide (sa < 64) && decide (sb < 64)) = true at h
  simp only [Bool.and_eq_true, decide_eq_true_eq] at h
  obtain ⟨hw, hm, c0, e_sd, e_sa, e_sb, e_w32⟩ := layout_17 (K := 0x1C00000B) (m := 7) (c0 := 11) (x0 := sd) (x1 := sa) (x2 := sb) (x3 := w32.toNat) rfl (by decide) (by omega) (by omega) (by omega) (bit_lt w32) (by decide)
  change 0x1C00000B + sd * 1048576 + sa * 16384 + sb * 256 + w32.toNat * 128 < 2 ^ 32 ∧ decodeFields (0x1C00000B + sd * 1048576 + sa * 16384 + sb * 256 + w32.toNat * 128) = _
  revert hw hm c0 e_sd e_sa e_sb e_w32
  generalize 0x1C00000B + sd * 1048576 + sa * 16384 + sb * 256 + w32.toNat * 128 = w
  intro hw hm c0 e_sd e_sa e_sb e_w32
  refine ⟨hw, ?_⟩
  simp only [decodeFields, hm, major07, c0, e_sd, e_sa, e_sb, bitAt_of e_w32]
theorem RoundTrip.sshl (sd : Nat) (sa : Nat) (sb : Nat) (w32 : Bool) : RoundTrip.Statement (.sshl sd sa sb w32) := by
  intro _ h
  change (decide (sd < 64) && decide (sa < 64) && decide (sb < 64)) = true at h
  simp only [Bool.and_eq_true, decide_eq_true_eq] at h
  obtain ⟨hw, hm, c0, e_sd, e_sa, e_sb, e_w32⟩ := layout_17 (K := 0x1C00000C) (m := 7) (c0 := 12) (x0 := sd) (x1 := sa) (x2 := sb) (x3 := w32.toNat) rfl (by decide) (by omega) (by omega) (by omega) (bit_lt w32) (by decide)
  change 0x1C00000C + sd * 1048576 + sa * 16384 + sb * 256 + w32.toNat * 128 < 2 ^ 32 ∧ decodeFields (0x1C00000C + sd * 1048576 + sa * 16384 + sb * 256 + w32.toNat * 128) = _
  revert hw hm c0 e_sd e_sa e_sb e_w32
  generalize 0x1C00000C + sd * 1048576 + sa * 16384 + sb * 256 + w32.toNat * 128 = w
  intro hw hm c0 e_sd e_sa e_sb e_w32
  refine ⟨hw, ?_⟩
  simp only [decodeFields, hm, major07, c0, e_sd, e_sa, e_sb, bitAt_of e_w32]
theorem RoundTrip.sshr (sd : Nat) (sa : Nat) (sb : Nat) (w32 : Bool) : RoundTrip.Statement (.sshr sd sa sb w32) := by
  intro _ h
  change (decide (sd < 64) && decide (sa < 64) && decide (sb < 64)) = true at h
  simp only [Bool.and_eq_true, decide_eq_true_eq] at h
  obtain ⟨hw, hm, c0, e_sd, e_sa, e_sb, e_w32⟩ := layout_17 (K := 0x1C00000D) (m := 7) (c0 := 13) (x0 := sd) (x1 := sa) (x2 := sb) (x3 := w32.toNat) rfl (by decide) (by omega) (by omega) (by omega) (bit_lt w32) (by decide)
  change 0x1C00000D + sd * 1048576 + sa * 16384 + sb * 256 + w32.toNat * 128 < 2 ^ 32 ∧ decodeFields (0x1C00000D + sd * 1048576 + sa * 16384 + sb * 256 + w32.toNat * 128) = _
  revert hw hm c0 e_sd e_sa e_sb e_w32
  generalize 0x1C00000D + sd * 1048576 + sa * 16384 + sb * 256 + w32.toNat * 128 = w
  intro hw hm c0 e_sd e_sa e_sb e_w32
  refine ⟨hw, ?_⟩
  simp only [decodeFields, hm, major07, c0, e_sd, e_sa, e_sb, bitAt_of e_w32]
theorem RoundTrip.ssra (sd : Nat) (sa : Nat) (sb : Nat) (w32 : Bool) : RoundTrip.Statement (.ssra sd sa sb w32) := by
  intro _ h
  change (decide (sd < 64) && decide (sa < 64) && decide (sb < 64)) = true at h
  simp only [Bool.and_eq_true, decide_eq_true_eq] at h
  obtain ⟨hw, hm, c0, e_sd, e_sa, e_sb, e_w32⟩ := layout_17 (K := 0x1C00000E) (m := 7) (c0 := 14) (x0 := sd) (x1 := sa) (x2 := sb) (x3 := w32.toNat) rfl (by decide) (by omega) (by omega) (by omega) (bit_lt w32) (by decide)
  change 0x1C00000E + sd * 1048576 + sa * 16384 + sb * 256 + w32.toNat * 128 < 2 ^ 32 ∧ decodeFields (0x1C00000E + sd * 1048576 + sa * 16384 + sb * 256 + w32.toNat * 128) = _
  revert hw hm c0 e_sd e_sa e_sb e_w32
  generalize 0x1C00000E + sd * 1048576 + sa * 16384 + sb * 256 + w32.toNat * 128 = w
  intro hw hm c0 e_sd e_sa e_sb e_w32
  refine ⟨hw, ?_⟩
  simp only [decodeFields, hm, major07, c0, e_sd, e_sa, e_sb, bitAt_of e_w32]
theorem RoundTrip.srot (sd : Nat) (sa : Nat) (sb : Nat) (w32 : Bool) : RoundTrip.Statement (.srot sd sa sb w32) := by
  intro _ h
  change (decide (sd < 64) && decide (sa < 64) && decide (sb < 64)) = true at h
  simp only [Bool.and_eq_true, decide_eq_true_eq] at h
  obtain ⟨hw, hm, c0, e_sd, e_sa, e_sb, e_w32⟩ := layout_17 (K := 0x1C00000F) (m := 7) (c0 := 15) (x0 := sd) (x1 := sa) (x2 := sb) (x3 := w32.toNat) rfl (by decide) (by omega) (by omega) (by omega) (bit_lt w32) (by decide)
  change 0x1C00000F + sd * 1048576 + sa * 16384 + sb * 256 + w32.toNat * 128 < 2 ^ 32 ∧ decodeFields (0x1C00000F + sd * 1048576 + sa * 16384 + sb * 256 + w32.toNat * 128) = _
  revert hw hm c0 e_sd e_sa e_sb e_w32
  generalize 0x1C00000F + sd * 1048576 + sa * 16384 + sb * 256 + w32.toNat * 128 = w
  intro hw hm c0 e_sd e_sa e_sb e_w32
  refine ⟨hw, ?_⟩
  simp only [decodeFields, hm, major07, c0, e_sd, e_sa, e_sb, bitAt_of e_w32]
theorem RoundTrip.smin (sd : Nat) (sa : Nat) (sb : Nat) (w32 : Bool) : RoundTrip.Statement (.smin sd sa sb w32) := by
  intro _ h
  change (decide (sd < 64) && decide (sa < 64) && decide (sb < 64)) = true at h
  simp only [Bool.and_eq_true, decide_eq_true_eq] at h
  obtain ⟨hw, hm, c0, e_sd, e_sa, e_sb, e_w32⟩ := layout_17 (K := 0x1C000010) (m := 7) (c0 := 16) (x0 := sd) (x1 := sa) (x2 := sb) (x3 := w32.toNat) rfl (by decide) (by omega) (by omega) (by omega) (bit_lt w32) (by decide)
  change 0x1C000010 + sd * 1048576 + sa * 16384 + sb * 256 + w32.toNat * 128 < 2 ^ 32 ∧ decodeFields (0x1C000010 + sd * 1048576 + sa * 16384 + sb * 256 + w32.toNat * 128) = _
  revert hw hm c0 e_sd e_sa e_sb e_w32
  generalize 0x1C000010 + sd * 1048576 + sa * 16384 + sb * 256 + w32.toNat * 128 = w
  intro hw hm c0 e_sd e_sa e_sb e_w32
  refine ⟨hw, ?_⟩
  simp only [decodeFields, hm, major07, c0, e_sd, e_sa, e_sb, bitAt_of e_w32]
theorem RoundTrip.sminu (sd : Nat) (sa : Nat) (sb : Nat) (w32 : Bool) : RoundTrip.Statement (.sminu sd sa sb w32) := by
  intro _ h
  change (decide (sd < 64) && decide (sa < 64) && decide (sb < 64)) = true at h
  simp only [Bool.and_eq_true, decide_eq_true_eq] at h
  obtain ⟨hw, hm, c0, e_sd, e_sa, e_sb, e_w32⟩ := layout_17 (K := 0x1C000011) (m := 7) (c0 := 17) (x0 := sd) (x1 := sa) (x2 := sb) (x3 := w32.toNat) rfl (by decide) (by omega) (by omega) (by omega) (bit_lt w32) (by decide)
  change 0x1C000011 + sd * 1048576 + sa * 16384 + sb * 256 + w32.toNat * 128 < 2 ^ 32 ∧ decodeFields (0x1C000011 + sd * 1048576 + sa * 16384 + sb * 256 + w32.toNat * 128) = _
  revert hw hm c0 e_sd e_sa e_sb e_w32
  generalize 0x1C000011 + sd * 1048576 + sa * 16384 + sb * 256 + w32.toNat * 128 = w
  intro hw hm c0 e_sd e_sa e_sb e_w32
  refine ⟨hw, ?_⟩
  simp only [decodeFields, hm, major07, c0, e_sd, e_sa, e_sb, bitAt_of e_w32]
theorem RoundTrip.smax (sd : Nat) (sa : Nat) (sb : Nat) (w32 : Bool) : RoundTrip.Statement (.smax sd sa sb w32) := by
  intro _ h
  change (decide (sd < 64) && decide (sa < 64) && decide (sb < 64)) = true at h
  simp only [Bool.and_eq_true, decide_eq_true_eq] at h
  obtain ⟨hw, hm, c0, e_sd, e_sa, e_sb, e_w32⟩ := layout_17 (K := 0x1C000012) (m := 7) (c0 := 18) (x0 := sd) (x1 := sa) (x2 := sb) (x3 := w32.toNat) rfl (by decide) (by omega) (by omega) (by omega) (bit_lt w32) (by decide)
  change 0x1C000012 + sd * 1048576 + sa * 16384 + sb * 256 + w32.toNat * 128 < 2 ^ 32 ∧ decodeFields (0x1C000012 + sd * 1048576 + sa * 16384 + sb * 256 + w32.toNat * 128) = _
  revert hw hm c0 e_sd e_sa e_sb e_w32
  generalize 0x1C000012 + sd * 1048576 + sa * 16384 + sb * 256 + w32.toNat * 128 = w
  intro hw hm c0 e_sd e_sa e_sb e_w32
  refine ⟨hw, ?_⟩
  simp only [decodeFields, hm, major07, c0, e_sd, e_sa, e_sb, bitAt_of e_w32]
theorem RoundTrip.smaxu (sd : Nat) (sa : Nat) (sb : Nat) (w32 : Bool) : RoundTrip.Statement (.smaxu sd sa sb w32) := by
  intro _ h
  change (decide (sd < 64) && decide (sa < 64) && decide (sb < 64)) = true at h
  simp only [Bool.and_eq_true, decide_eq_true_eq] at h
  obtain ⟨hw, hm, c0, e_sd, e_sa, e_sb, e_w32⟩ := layout_17 (K := 0x1C000013) (m := 7) (c0 := 19) (x0 := sd) (x1 := sa) (x2 := sb) (x3 := w32.toNat) rfl (by decide) (by omega) (by omega) (by omega) (bit_lt w32) (by decide)
  change 0x1C000013 + sd * 1048576 + sa * 16384 + sb * 256 + w32.toNat * 128 < 2 ^ 32 ∧ decodeFields (0x1C000013 + sd * 1048576 + sa * 16384 + sb * 256 + w32.toNat * 128) = _
  revert hw hm c0 e_sd e_sa e_sb e_w32
  generalize 0x1C000013 + sd * 1048576 + sa * 16384 + sb * 256 + w32.toNat * 128 = w
  intro hw hm c0 e_sd e_sa e_sb e_w32
  refine ⟨hw, ?_⟩
  simp only [decodeFields, hm, major07, c0, e_sd, e_sa, e_sb, bitAt_of e_w32]
theorem RoundTrip.spopc (sd : Nat) (sa : Nat) (w32 : Bool) : RoundTrip.Statement (.spopc sd sa w32) := by
  intro _ h
  change (decide (sd < 64) && decide (sa < 64)) = true at h
  simp only [Bool.and_eq_true, decide_eq_true_eq] at h
  obtain ⟨hw, hm, c0, e_sd, e_sa, e_w32⟩ := layout_18 (K := 0x1C000014) (m := 7) (c0 := 20) (x0 := sd) (x1 := sa) (x2 := w32.toNat) rfl (by decide) (by omega) (by omega) (bit_lt w32) (by decide)
  change 0x1C000014 + sd * 1048576 + sa * 16384 + w32.toNat * 128 < 2 ^ 32 ∧ decodeFields (0x1C000014 + sd * 1048576 + sa * 16384 + w32.toNat * 128) = _
  revert hw hm c0 e_sd e_sa e_w32
  generalize 0x1C000014 + sd * 1048576 + sa * 16384 + w32.toNat * 128 = w
  intro hw hm c0 e_sd e_sa e_w32
  refine ⟨hw, ?_⟩
  simp only [decodeFields, hm, major07, c0, e_sd, e_sa, bitAt_of e_w32]
theorem RoundTrip.sclz (sd : Nat) (sa : Nat) (w32 : Bool) : RoundTrip.Statement (.sclz sd sa w32) := by
  intro _ h
  change (decide (sd < 64) && decide (sa < 64)) = true at h
  simp only [Bool.and_eq_true, decide_eq_true_eq] at h
  obtain ⟨hw, hm, c0, e_sd, e_sa, e_w32⟩ := layout_18 (K := 0x1C000015) (m := 7) (c0 := 21) (x0 := sd) (x1 := sa) (x2 := w32.toNat) rfl (by decide) (by omega) (by omega) (bit_lt w32) (by decide)
  change 0x1C000015 + sd * 1048576 + sa * 16384 + w32.toNat * 128 < 2 ^ 32 ∧ decodeFields (0x1C000015 + sd * 1048576 + sa * 16384 + w32.toNat * 128) = _
  revert hw hm c0 e_sd e_sa e_w32
  generalize 0x1C000015 + sd * 1048576 + sa * 16384 + w32.toNat * 128 = w
  intro hw hm c0 e_sd e_sa e_w32
  refine ⟨hw, ?_⟩
  simp only [decodeFields, hm, major07, c0, e_sd, e_sa, bitAt_of e_w32]
theorem RoundTrip.sctz (sd : Nat) (sa : Nat) (w32 : Bool) : RoundTrip.Statement (.sctz sd sa w32) := by
  intro _ h
  change (decide (sd < 64) && decide (sa < 64)) = true at h
  simp only [Bool.and_eq_true, decide_eq_true_eq] at h
  obtain ⟨hw, hm, c0, e_sd, e_sa, e_w32⟩ := layout_18 (K := 0x1C000016) (m := 7) (c0 := 22) (x0 := sd) (x1 := sa) (x2 := w32.toNat) rfl (by decide) (by omega) (by omega) (bit_lt w32) (by decide)
  change 0x1C000016 + sd * 1048576 + sa * 16384 + w32.toNat * 128 < 2 ^ 32 ∧ decodeFields (0x1C000016 + sd * 1048576 + sa * 16384 + w32.toNat * 128) = _
  revert hw hm c0 e_sd e_sa e_w32
  generalize 0x1C000016 + sd * 1048576 + sa * 16384 + w32.toNat * 128 = w
  intro hw hm c0 e_sd e_sa e_w32
  refine ⟨hw, ?_⟩
  simp only [decodeFields, hm, major07, c0, e_sd, e_sa, bitAt_of e_w32]
theorem RoundTrip.sbrev (sd : Nat) (sa : Nat) (w32 : Bool) : RoundTrip.Statement (.sbrev sd sa w32) := by
  intro _ h
  change (decide (sd < 64) && decide (sa < 64)) = true at h
  simp only [Bool.and_eq_true, decide_eq_true_eq] at h
  obtain ⟨hw, hm, c0, e_sd, e_sa, e_w32⟩ := layout_18 (K := 0x1C000017) (m := 7) (c0 := 23) (x0 := sd) (x1 := sa) (x2 := w32.toNat) rfl (by decide) (by omega) (by omega) (bit_lt w32) (by decide)
  change 0x1C000017 + sd * 1048576 + sa * 16384 + w32.toNat * 128 < 2 ^ 32 ∧ decodeFields (0x1C000017 + sd * 1048576 + sa * 16384 + w32.toNat * 128) = _
  revert hw hm c0 e_sd e_sa e_w32
  generalize 0x1C000017 + sd * 1048576 + sa * 16384 + w32.toNat * 128 = w
  intro hw hm c0 e_sd e_sa e_w32
  refine ⟨hw, ?_⟩
  simp only [decodeFields, hm, major07, c0, e_sd, e_sa, bitAt_of e_w32]
theorem RoundTrip.sbfx (sd : Nat) (sa : Nat) (sb : Nat) (w32 : Bool) : RoundTrip.Statement (.sbfx sd sa sb w32) := by
  intro _ h
  change (decide (sd < 64) && decide (sa < 64) && decide (sb < 64)) = true at h
  simp only [Bool.and_eq_true, decide_eq_true_eq] at h
  obtain ⟨hw, hm, c0, e_sd, e_sa, e_sb, e_w32⟩ := layout_17 (K := 0x1C000018) (m := 7) (c0 := 24) (x0 := sd) (x1 := sa) (x2 := sb) (x3 := w32.toNat) rfl (by decide) (by omega) (by omega) (by omega) (bit_lt w32) (by decide)
  change 0x1C000018 + sd * 1048576 + sa * 16384 + sb * 256 + w32.toNat * 128 < 2 ^ 32 ∧ decodeFields (0x1C000018 + sd * 1048576 + sa * 16384 + sb * 256 + w32.toNat * 128) = _
  revert hw hm c0 e_sd e_sa e_sb e_w32
  generalize 0x1C000018 + sd * 1048576 + sa * 16384 + sb * 256 + w32.toNat * 128 = w
  intro hw hm c0 e_sd e_sa e_sb e_w32
  refine ⟨hw, ?_⟩
  simp only [decodeFields, hm, major07, c0, e_sd, e_sa, e_sb, bitAt_of e_w32]
theorem RoundTrip.sbfi (sd : Nat) (sa : Nat) (sb : Nat) (w32 : Bool) : RoundTrip.Statement (.sbfi sd sa sb w32) := by
  intro _ h
  change (decide (sd < 64) && decide (sa < 64) && decide (sb < 64)) = true at h
  simp only [Bool.and_eq_true, decide_eq_true_eq] at h
  obtain ⟨hw, hm, c0, e_sd, e_sa, e_sb, e_w32⟩ := layout_17 (K := 0x1C000019) (m := 7) (c0 := 25) (x0 := sd) (x1 := sa) (x2 := sb) (x3 := w32.toNat) rfl (by decide) (by omega) (by omega) (by omega) (bit_lt w32) (by decide)
  change 0x1C000019 + sd * 1048576 + sa * 16384 + sb * 256 + w32.toNat * 128 < 2 ^ 32 ∧ decodeFields (0x1C000019 + sd * 1048576 + sa * 16384 + sb * 256 + w32.toNat * 128) = _
  revert hw hm c0 e_sd e_sa e_sb e_w32
  generalize 0x1C000019 + sd * 1048576 + sa * 16384 + sb * 256 + w32.toNat * 128 = w
  intro hw hm c0 e_sd e_sa e_sb e_w32
  refine ⟨hw, ?_⟩
  simp only [decodeFields, hm, major07, c0, e_sd, e_sa, e_sb, bitAt_of e_w32]
theorem RoundTrip.sseq (sd : Nat) (sa : Nat) (sb : Nat) (w32 : Bool) : RoundTrip.Statement (.sseq sd sa sb w32) := by
  intro _ h
  change (decide (sd < 64) && decide (sa < 64) && decide (sb < 64)) = true at h
  simp only [Bool.and_eq_true, decide_eq_true_eq] at h
  obtain ⟨hw, hm, c0, e_sd, e_sa, e_sb, e_w32⟩ := layout_17 (K := 0x1C00001A) (m := 7) (c0 := 26) (x0 := sd) (x1 := sa) (x2 := sb) (x3 := w32.toNat) rfl (by decide) (by omega) (by omega) (by omega) (bit_lt w32) (by decide)
  change 0x1C00001A + sd * 1048576 + sa * 16384 + sb * 256 + w32.toNat * 128 < 2 ^ 32 ∧ decodeFields (0x1C00001A + sd * 1048576 + sa * 16384 + sb * 256 + w32.toNat * 128) = _
  revert hw hm c0 e_sd e_sa e_sb e_w32
  generalize 0x1C00001A + sd * 1048576 + sa * 16384 + sb * 256 + w32.toNat * 128 = w
  intro hw hm c0 e_sd e_sa e_sb e_w32
  refine ⟨hw, ?_⟩
  simp only [decodeFields, hm, major07, c0, e_sd, e_sa, e_sb, bitAt_of e_w32]
theorem RoundTrip.sslt (sd : Nat) (sa : Nat) (sb : Nat) (w32 : Bool) : RoundTrip.Statement (.sslt sd sa sb w32) := by
  intro _ h
  change (decide (sd < 64) && decide (sa < 64) && decide (sb < 64)) = true at h
  simp only [Bool.and_eq_true, decide_eq_true_eq] at h
  obtain ⟨hw, hm, c0, e_sd, e_sa, e_sb, e_w32⟩ := layout_17 (K := 0x1C00001B) (m := 7) (c0 := 27) (x0 := sd) (x1 := sa) (x2 := sb) (x3 := w32.toNat) rfl (by decide) (by omega) (by omega) (by omega) (bit_lt w32) (by decide)
  change 0x1C00001B + sd * 1048576 + sa * 16384 + sb * 256 + w32.toNat * 128 < 2 ^ 32 ∧ decodeFields (0x1C00001B + sd * 1048576 + sa * 16384 + sb * 256 + w32.toNat * 128) = _
  revert hw hm c0 e_sd e_sa e_sb e_w32
  generalize 0x1C00001B + sd * 1048576 + sa * 16384 + sb * 256 + w32.toNat * 128 = w
  intro hw hm c0 e_sd e_sa e_sb e_w32
  refine ⟨hw, ?_⟩
  simp only [decodeFields, hm, major07, c0, e_sd, e_sa, e_sb, bitAt_of e_w32]
theorem RoundTrip.ssltu (sd : Nat) (sa : Nat) (sb : Nat) (w32 : Bool) : RoundTrip.Statement (.ssltu sd sa sb w32) := by
  intro _ h
  change (decide (sd < 64) && decide (sa < 64) && decide (sb < 64)) = true at h
  simp only [Bool.and_eq_true, decide_eq_true_eq] at h
  obtain ⟨hw, hm, c0, e_sd, e_sa, e_sb, e_w32⟩ := layout_17 (K := 0x1C00001C) (m := 7) (c0 := 28) (x0 := sd) (x1 := sa) (x2 := sb) (x3 := w32.toNat) rfl (by decide) (by omega) (by omega) (by omega) (bit_lt w32) (by decide)
  change 0x1C00001C + sd * 1048576 + sa * 16384 + sb * 256 + w32.toNat * 128 < 2 ^ 32 ∧ decodeFields (0x1C00001C + sd * 1048576 + sa * 16384 + sb * 256 + w32.toNat * 128) = _
  revert hw hm c0 e_sd e_sa e_sb e_w32
  generalize 0x1C00001C + sd * 1048576 + sa * 16384 + sb * 256 + w32.toNat * 128 = w
  intro hw hm c0 e_sd e_sa e_sb e_w32
  refine ⟨hw, ?_⟩
  simp only [decodeFields, hm, major07, c0, e_sd, e_sa, e_sb, bitAt_of e_w32]
theorem RoundTrip.saddi (sd : Nat) (sa : Nat) (imm : Nat) : RoundTrip.Statement (.saddi sd sa imm) := by
  intro _ h
  change (decide (sd < 64) && decide (sa < 64) && decide (imm < 16384)) = true at h
  simp only [Bool.and_eq_true, decide_eq_true_eq] at h
  obtain ⟨hw, hm, e_sd, e_sa, e_imm⟩ := layout_19 (K := 0x20000000) (m := 8) (x0 := sd) (x1 := sa) (x2 := imm) rfl (by decide) (by omega) (by omega) (by omega)
  change 0x20000000 + sd * 1048576 + sa * 16384 + imm < 2 ^ 32 ∧ decodeFields (0x20000000 + sd * 1048576 + sa * 16384 + imm) = _
  revert hw hm e_sd e_sa e_imm
  generalize 0x20000000 + sd * 1048576 + sa * 16384 + imm = w
  intro hw hm e_sd e_sa e_imm
  refine ⟨hw, ?_⟩
  simp only [decodeFields, hm, major08, e_sd, e_sa, e_imm]
theorem RoundTrip.sli (sd : Nat) (imm : Nat) : RoundTrip.Statement (.sli sd imm) := by
  intro _ h
  change (decide (sd < 64) && decide (imm < 1048576)) = true at h
  simp only [Bool.and_eq_true, decide_eq_true_eq] at h
  obtain ⟨hw, hm, e_sd, e_imm⟩ := layout_20 (K := 0x24000000) (m := 9) (x0 := sd) (x1 := imm) rfl (by decide) (by omega) (by omega)
  change 0x24000000 + sd * 1048576 + imm < 2 ^ 32 ∧ decodeFields (0x24000000 + sd * 1048576 + imm) = _
  revert hw hm e_sd e_imm
  generalize 0x24000000 + sd * 1048576 + imm = w
  intro hw hm e_sd e_imm
  refine ⟨hw, ?_⟩
  simp only [decodeFields, hm, major09, e_sd, e_imm]
theorem RoundTrip.sandi (sd : Nat) (sa : Nat) (imm : Nat) : RoundTrip.Statement (.sandi sd sa imm) := by
  intro _ h
  change (decide (sd < 64) && decide (sa < 64) && decide (imm < 16384)) = true at h
  simp only [Bool.and_eq_true, decide_eq_true_eq] at h
  obtain ⟨hw, hm, e_sd, e_sa, e_imm⟩ := layout_19 (K := 0x28000000) (m := 10) (x0 := sd) (x1 := sa) (x2 := imm) rfl (by decide) (by omega) (by omega) (by omega)
  change 0x28000000 + sd * 1048576 + sa * 16384 + imm < 2 ^ 32 ∧ decodeFields (0x28000000 + sd * 1048576 + sa * 16384 + imm) = _
  revert hw hm e_sd e_sa e_imm
  generalize 0x28000000 + sd * 1048576 + sa * 16384 + imm = w
  intro hw hm e_sd e_sa e_imm
  refine ⟨hw, ?_⟩
  simp only [decodeFields, hm, major0A, e_sd, e_sa, e_imm]
theorem RoundTrip.sori (sd : Nat) (sa : Nat) (imm : Nat) : RoundTrip.Statement (.sori sd sa imm) := by
  intro _ h
  change (decide (sd < 64) && decide (sa < 64) && decide (imm < 16384)) = true at h
  simp only [Bool.and_eq_true, decide_eq_true_eq] at h
  obtain ⟨hw, hm, e_sd, e_sa, e_imm⟩ := layout_19 (K := 0x2C000000) (m := 11) (x0 := sd) (x1 := sa) (x2 := imm) rfl (by decide) (by omega) (by omega) (by omega)
  change 0x2C000000 + sd * 1048576 + sa * 16384 + imm < 2 ^ 32 ∧ decodeFields (0x2C000000 + sd * 1048576 + sa * 16384 + imm) = _
  revert hw hm e_sd e_sa e_imm
  generalize 0x2C000000 + sd * 1048576 + sa * 16384 + imm = w
  intro hw hm e_sd e_sa e_imm
  refine ⟨hw, ?_⟩
  simp only [decodeFields, hm, major0B, e_sd, e_sa, e_imm]
theorem RoundTrip.sshi (sd : Nat) (sa : Nat) (w32 : Bool) (kind : Nat) (amt : Nat) : RoundTrip.Statement (.sshi sd sa w32 kind amt) := by
  intro _ h
  change (decide (sd < 64) && decide (sa < 64) && decide (kind < 4) && decide (amt < 64) && (!w32 || decide (amt < 32))) = true at h
  simp only [Bool.and_eq_true, decide_eq_true_eq] at h
  obtain ⟨hw, hm, e_sd, e_sa, e_w32, e_kind, e_amt⟩ := layout_21 (K := 0x30000000) (m := 12) (x0 := sd) (x1 := sa) (x2 := w32.toNat) (x3 := kind) (x4 := amt) rfl (by decide) (by omega) (by omega) (bit_lt w32) (by omega) (by omega)
  change 0x30000000 + sd * 1048576 + sa * 16384 + w32.toNat * 256 + kind * 64 + amt < 2 ^ 32 ∧ decodeFields (0x30000000 + sd * 1048576 + sa * 16384 + w32.toNat * 256 + kind * 64 + amt) = _
  revert hw hm e_sd e_sa e_w32 e_kind e_amt
  generalize 0x30000000 + sd * 1048576 + sa * 16384 + w32.toNat * 256 + kind * 64 + amt = w
  intro hw hm e_sd e_sa e_w32 e_kind e_amt
  refine ⟨hw, ?_⟩
  simp only [decodeFields, hm, major0C, e_sd, e_sa, bitAt_of e_w32, e_kind, e_amt]
theorem RoundTrip.smfs (sd : Nat) (num : Nat) : RoundTrip.Statement (.smfs sd num) := by
  intro _ h
  change (decide (sd < 64) && decide (num < 64) && smfsNum num) = true at h
  simp only [Bool.and_eq_true, decide_eq_true_eq] at h
  obtain ⟨hw, hm, c0, e_sd, e_num⟩ := layout_22 (K := 0x34000000) (m := 13) (c0 := 0) (x0 := sd) (x1 := num) rfl (by decide) (by omega) (by omega) (by decide)
  change 0x34000000 + sd * 1048576 + num * 256 < 2 ^ 32 ∧ decodeFields (0x34000000 + sd * 1048576 + num * 256) = _
  revert hw hm c0 e_sd e_num
  generalize 0x34000000 + sd * 1048576 + num * 256 = w
  intro hw hm c0 e_sd e_num
  refine ⟨hw, ?_⟩
  simp only [decodeFields, hm, major0D, c0, e_sd, e_num]
theorem RoundTrip.smts (sa : Nat) (num : Nat) : RoundTrip.Statement (.smts sa num) := by
  intro _ h
  change (decide (sa < 64) && decide (num < 64) && smtsNum num) = true at h
  simp only [Bool.and_eq_true, decide_eq_true_eq] at h
  obtain ⟨hw, hm, c0, e_sa, e_num⟩ := layout_23 (K := 0x34000001) (m := 13) (c0 := 1) (x0 := sa) (x1 := num) rfl (by decide) (by omega) (by omega) (by decide)
  change 0x34000001 + sa * 16384 + num * 256 < 2 ^ 32 ∧ decodeFields (0x34000001 + sa * 16384 + num * 256) = _
  revert hw hm c0 e_sa e_num
  generalize 0x34000001 + sa * 16384 + num * 256 = w
  intro hw hm c0 e_sa e_num
  refine ⟨hw, ?_⟩
  simp only [decodeFields, hm, major0D, c0, e_sa, e_num]
theorem RoundTrip.vmfs (lo : Nat) (num : Nat) (hi : Bool) : RoundTrip.Statement (.vmfs lo num hi) := by
  intro _ h
  change (decide (lo < 64) && decide (num < 64) && (num == 4 || num == 5 || num == 6)) = true at h
  simp only [Bool.and_eq_true, decide_eq_true_eq] at h
  obtain ⟨hw, hm, c0, e_lo, e_num, e_hi⟩ := layout_24 (K := 0x34000002) (m := 13) (c0 := 2) (x0 := lo) (x1 := num) (x2 := hi.toNat) rfl (by decide) (by omega) (by omega) (bit_lt hi) (by decide)
  change 0x34000002 + lo * 1048576 + num * 256 + hi.toNat * 32 < 2 ^ 32 ∧ decodeFields (0x34000002 + lo * 1048576 + num * 256 + hi.toNat * 32) = _
  revert hw hm c0 e_lo e_num e_hi
  generalize 0x34000002 + lo * 1048576 + num * 256 + hi.toNat * 32 = w
  intro hw hm c0 e_lo e_num e_hi
  refine ⟨hw, ?_⟩
  simp only [decodeFields, hm, major0D, c0, e_lo, e_num, bitAt_of e_hi]
theorem RoundTrip.satom (sd : Nat) (sa : Nat) (sb : Nat) (space : Nat) (op : Nat) : RoundTrip.Statement (.satom sd sa sb space op) := by
  intro _ h
  change (decide (sd < 64) && decide (sa < 64) && decide (sb < 64) && decide (space < 4) && decide (op < 16) && decide (space ≤ 2) && op != 15) = true at h
  simp only [Bool.and_eq_true, decide_eq_true_eq] at h
  obtain ⟨hw, hm, e_sd, e_sa, e_sb, e_space, e_op⟩ := layout_25 (K := 0x38000000) (m := 14) (x0 := sd) (x1 := sa) (x2 := sb) (x3 := space) (x4 := op) rfl (by decide) (by omega) (by omega) (by omega) (by omega) (by omega)
  change 0x38000000 + sd * 1048576 + sa * 16384 + sb * 256 + space * 64 + op < 2 ^ 32 ∧ decodeFields (0x38000000 + sd * 1048576 + sa * 16384 + sb * 256 + space * 64 + op) = _
  revert hw hm e_sd e_sa e_sb e_space e_op
  generalize 0x38000000 + sd * 1048576 + sa * 16384 + sb * 256 + space * 64 + op = w
  intro hw hm e_sd e_sa e_sb e_space e_op
  refine ⟨hw, ?_⟩
  simp only [decodeFields, hm, major0E, e_sd, e_sa, e_sb, e_space, e_op]
theorem RoundTrip.scas (sd : Nat) (sa : Nat) (sb : Nat) (space : Nat) (size : Nat) : RoundTrip.Statement (.scas sd sa sb space size) := by
  intro _ h
  change (decide (sd < 64) && decide (sa < 64) && decide (sb < 64) && decide (space < 4) && decide (size < 4) && decide (space ≤ 2) && decide (size ≤ 2) && (size != 2 || (sd % 2 == 0 && sb % 2 == 0))) = true at h
  simp only [Bool.and_eq_true, decide_eq_true_eq] at h
  obtain ⟨hw, hm, e_sd, e_sa, e_sb, e_space, e_size⟩ := layout_26 (K := 0x3C000000) (m := 15) (x0 := sd) (x1 := sa) (x2 := sb) (x3 := space) (x4 := size) rfl (by decide) (by omega) (by omega) (by omega) (by omega) (by omega)
  change 0x3C000000 + sd * 1048576 + sa * 16384 + sb * 256 + space * 64 + size < 2 ^ 32 ∧ decodeFields (0x3C000000 + sd * 1048576 + sa * 16384 + sb * 256 + space * 64 + size) = _
  revert hw hm e_sd e_sa e_sb e_space e_size
  generalize 0x3C000000 + sd * 1048576 + sa * 16384 + sb * 256 + space * 64 + size = w
  intro hw hm e_sd e_sa e_sb e_space e_size
  refine ⟨hw, ?_⟩
  simp only [decodeFields, hm, major0F, e_sd, e_sa, e_sb, e_space, e_size]
theorem RoundTrip.vadd (vd : Nat) (va : VSrc) (vb : VSrc) : RoundTrip.Statement (.vadd vd va vb) := by
  intro _ h
  change (decide (vd < 128) && va.wf && vb.wf) = true at h
  simp only [Bool.and_eq_true, decide_eq_true_eq] at h
  have w_va : va.wf = true := by simp only [h]
  have w_vb : vb.wf = true := by simp only [h]
  obtain ⟨hw, hm, c0, e_vd, e_va, e_vb⟩ := layout_27 (K := 0x40000000) (m := 16) (c0 := 0) (x0 := vd) (x1 := vsrcBits va) (x2 := vsrcBits vb) rfl (by decide) (by omega) (vsrc_lt w_va) (vsrc_lt w_vb) (by decide)
  change 0x40000000 + vd * 524288 + vsrcBits va * 1024 + vsrcBits vb * 2 < 2 ^ 32 ∧ decodeFields (0x40000000 + vd * 524288 + vsrcBits va * 1024 + vsrcBits vb * 2) = _
  revert hw hm c0 e_vd e_va e_vb
  generalize 0x40000000 + vd * 524288 + vsrcBits va * 1024 + vsrcBits vb * 2 = w
  intro hw hm c0 e_vd e_va e_vb
  refine ⟨hw, ?_⟩
  simp only [decodeFields, hm, major10, c0, e_vd, vsrcAt_of w_va e_va, vsrcAt_of w_vb e_vb]
theorem RoundTrip.vsub (vd : Nat) (va : VSrc) (vb : VSrc) : RoundTrip.Statement (.vsub vd va vb) := by
  intro _ h
  change (decide (vd < 128) && va.wf && vb.wf) = true at h
  simp only [Bool.and_eq_true, decide_eq_true_eq] at h
  have w_va : va.wf = true := by simp only [h]
  have w_vb : vb.wf = true := by simp only [h]
  obtain ⟨hw, hm, c0, e_vd, e_va, e_vb⟩ := layout_27 (K := 0x40000001) (m := 16) (c0 := 1) (x0 := vd) (x1 := vsrcBits va) (x2 := vsrcBits vb) rfl (by decide) (by omega) (vsrc_lt w_va) (vsrc_lt w_vb) (by decide)
  change 0x40000001 + vd * 524288 + vsrcBits va * 1024 + vsrcBits vb * 2 < 2 ^ 32 ∧ decodeFields (0x40000001 + vd * 524288 + vsrcBits va * 1024 + vsrcBits vb * 2) = _
  revert hw hm c0 e_vd e_va e_vb
  generalize 0x40000001 + vd * 524288 + vsrcBits va * 1024 + vsrcBits vb * 2 = w
  intro hw hm c0 e_vd e_va e_vb
  refine ⟨hw, ?_⟩
  simp only [decodeFields, hm, major10, c0, e_vd, vsrcAt_of w_va e_va, vsrcAt_of w_vb e_vb]
theorem RoundTrip.vmul (vd : Nat) (va : VSrc) (vb : VSrc) : RoundTrip.Statement (.vmul vd va vb) := by
  intro _ h
  change (decide (vd < 128) && va.wf && vb.wf) = true at h
  simp only [Bool.and_eq_true, decide_eq_true_eq] at h
  have w_va : va.wf = true := by simp only [h]
  have w_vb : vb.wf = true := by simp only [h]
  obtain ⟨hw, hm, c0, e_vd, e_va, e_vb⟩ := layout_27 (K := 0x44000000) (m := 17) (c0 := 0) (x0 := vd) (x1 := vsrcBits va) (x2 := vsrcBits vb) rfl (by decide) (by omega) (vsrc_lt w_va) (vsrc_lt w_vb) (by decide)
  change 0x44000000 + vd * 524288 + vsrcBits va * 1024 + vsrcBits vb * 2 < 2 ^ 32 ∧ decodeFields (0x44000000 + vd * 524288 + vsrcBits va * 1024 + vsrcBits vb * 2) = _
  revert hw hm c0 e_vd e_va e_vb
  generalize 0x44000000 + vd * 524288 + vsrcBits va * 1024 + vsrcBits vb * 2 = w
  intro hw hm c0 e_vd e_va e_vb
  refine ⟨hw, ?_⟩
  simp only [decodeFields, hm, major11, c0, e_vd, vsrcAt_of w_va e_va, vsrcAt_of w_vb e_vb]
theorem RoundTrip.vmulh (vd : Nat) (va : VSrc) (vb : VSrc) : RoundTrip.Statement (.vmulh vd va vb) := by
  intro _ h
  change (decide (vd < 128) && va.wf && vb.wf) = true at h
  simp only [Bool.and_eq_true, decide_eq_true_eq] at h
  have w_va : va.wf = true := by simp only [h]
  have w_vb : vb.wf = true := by simp only [h]
  obtain ⟨hw, hm, c0, e_vd, e_va, e_vb⟩ := layout_27 (K := 0x44000001) (m := 17) (c0 := 1) (x0 := vd) (x1 := vsrcBits va) (x2 := vsrcBits vb) rfl (by decide) (by omega) (vsrc_lt w_va) (vsrc_lt w_vb) (by decide)
  change 0x44000001 + vd * 524288 + vsrcBits va * 1024 + vsrcBits vb * 2 < 2 ^ 32 ∧ decodeFields (0x44000001 + vd * 524288 + vsrcBits va * 1024 + vsrcBits vb * 2) = _
  revert hw hm c0 e_vd e_va e_vb
  generalize 0x44000001 + vd * 524288 + vsrcBits va * 1024 + vsrcBits vb * 2 = w
  intro hw hm c0 e_vd e_va e_vb
  refine ⟨hw, ?_⟩
  simp only [decodeFields, hm, major11, c0, e_vd, vsrcAt_of w_va e_va, vsrcAt_of w_vb e_vb]
theorem RoundTrip.vmulhu (vd : Nat) (va : VSrc) (vb : VSrc) : RoundTrip.Statement (.vmulhu vd va vb) := by
  intro _ h
  change (decide (vd < 128) && va.wf && vb.wf) = true at h
  simp only [Bool.and_eq_true, decide_eq_true_eq] at h
  have w_va : va.wf = true := by simp only [h]
  have w_vb : vb.wf = true := by simp only [h]
  obtain ⟨hw, hm, c0, e_vd, e_va, e_vb⟩ := layout_27 (K := 0x48000000) (m := 18) (c0 := 0) (x0 := vd) (x1 := vsrcBits va) (x2 := vsrcBits vb) rfl (by decide) (by omega) (vsrc_lt w_va) (vsrc_lt w_vb) (by decide)
  change 0x48000000 + vd * 524288 + vsrcBits va * 1024 + vsrcBits vb * 2 < 2 ^ 32 ∧ decodeFields (0x48000000 + vd * 524288 + vsrcBits va * 1024 + vsrcBits vb * 2) = _
  revert hw hm c0 e_vd e_va e_vb
  generalize 0x48000000 + vd * 524288 + vsrcBits va * 1024 + vsrcBits vb * 2 = w
  intro hw hm c0 e_vd e_va e_vb
  refine ⟨hw, ?_⟩
  simp only [decodeFields, hm, major12, c0, e_vd, vsrcAt_of w_va e_va, vsrcAt_of w_vb e_vb]
theorem RoundTrip.vmad (vd : Nat) (va : VSrc) (vb : VSrc) : RoundTrip.Statement (.vmad vd va vb) := by
  intro _ h
  change (decide (vd < 128) && va.wf && vb.wf) = true at h
  simp only [Bool.and_eq_true, decide_eq_true_eq] at h
  have w_va : va.wf = true := by simp only [h]
  have w_vb : vb.wf = true := by simp only [h]
  obtain ⟨hw, hm, c0, e_vd, e_va, e_vb⟩ := layout_27 (K := 0x48000001) (m := 18) (c0 := 1) (x0 := vd) (x1 := vsrcBits va) (x2 := vsrcBits vb) rfl (by decide) (by omega) (vsrc_lt w_va) (vsrc_lt w_vb) (by decide)
  change 0x48000001 + vd * 524288 + vsrcBits va * 1024 + vsrcBits vb * 2 < 2 ^ 32 ∧ decodeFields (0x48000001 + vd * 524288 + vsrcBits va * 1024 + vsrcBits vb * 2) = _
  revert hw hm c0 e_vd e_va e_vb
  generalize 0x48000001 + vd * 524288 + vsrcBits va * 1024 + vsrcBits vb * 2 = w
  intro hw hm c0 e_vd e_va e_vb
  refine ⟨hw, ?_⟩
  simp only [decodeFields, hm, major12, c0, e_vd, vsrcAt_of w_va e_va, vsrcAt_of w_vb e_vb]
theorem RoundTrip.vand (vd : Nat) (va : VSrc) (vb : VSrc) : RoundTrip.Statement (.vand vd va vb) := by
  intro _ h
  change (decide (vd < 128) && va.wf && vb.wf) = true at h
  simp only [Bool.and_eq_true, decide_eq_true_eq] at h
  have w_va : va.wf = true := by simp only [h]
  have w_vb : vb.wf = true := by simp only [h]
  obtain ⟨hw, hm, c0, e_vd, e_va, e_vb⟩ := layout_27 (K := 0x4C000000) (m := 19) (c0 := 0) (x0 := vd) (x1 := vsrcBits va) (x2 := vsrcBits vb) rfl (by decide) (by omega) (vsrc_lt w_va) (vsrc_lt w_vb) (by decide)
  change 0x4C000000 + vd * 524288 + vsrcBits va * 1024 + vsrcBits vb * 2 < 2 ^ 32 ∧ decodeFields (0x4C000000 + vd * 524288 + vsrcBits va * 1024 + vsrcBits vb * 2) = _
  revert hw hm c0 e_vd e_va e_vb
  generalize 0x4C000000 + vd * 524288 + vsrcBits va * 1024 + vsrcBits vb * 2 = w
  intro hw hm c0 e_vd e_va e_vb
  refine ⟨hw, ?_⟩
  simp only [decodeFields, hm, major13, c0, e_vd, vsrcAt_of w_va e_va, vsrcAt_of w_vb e_vb]
theorem RoundTrip.vor (vd : Nat) (va : VSrc) (vb : VSrc) : RoundTrip.Statement (.vor vd va vb) := by
  intro _ h
  change (decide (vd < 128) && va.wf && vb.wf) = true at h
  simp only [Bool.and_eq_true, decide_eq_true_eq] at h
  have w_va : va.wf = true := by simp only [h]
  have w_vb : vb.wf = true := by simp only [h]
  obtain ⟨hw, hm, c0, e_vd, e_va, e_vb⟩ := layout_27 (K := 0x4C000001) (m := 19) (c0 := 1) (x0 := vd) (x1 := vsrcBits va) (x2 := vsrcBits vb) rfl (by decide) (by omega) (vsrc_lt w_va) (vsrc_lt w_vb) (by decide)
  change 0x4C000001 + vd * 524288 + vsrcBits va * 1024 + vsrcBits vb * 2 < 2 ^ 32 ∧ decodeFields (0x4C000001 + vd * 524288 + vsrcBits va * 1024 + vsrcBits vb * 2) = _
  revert hw hm c0 e_vd e_va e_vb
  generalize 0x4C000001 + vd * 524288 + vsrcBits va * 1024 + vsrcBits vb * 2 = w
  intro hw hm c0 e_vd e_va e_vb
  refine ⟨hw, ?_⟩
  simp only [decodeFields, hm, major13, c0, e_vd, vsrcAt_of w_va e_va, vsrcAt_of w_vb e_vb]
theorem RoundTrip.vxor (vd : Nat) (va : VSrc) (vb : VSrc) : RoundTrip.Statement (.vxor vd va vb) := by
  intro _ h
  change (decide (vd < 128) && va.wf && vb.wf) = true at h
  simp only [Bool.and_eq_true, decide_eq_true_eq] at h
  have w_va : va.wf = true := by simp only [h]
  have w_vb : vb.wf = true := by simp only [h]
  obtain ⟨hw, hm, c0, e_vd, e_va, e_vb⟩ := layout_27 (K := 0x50000000) (m := 20) (c0 := 0) (x0 := vd) (x1 := vsrcBits va) (x2 := vsrcBits vb) rfl (by decide) (by omega) (vsrc_lt w_va) (vsrc_lt w_vb) (by decide)
  change 0x50000000 + vd * 524288 + vsrcBits va * 1024 + vsrcBits vb * 2 < 2 ^ 32 ∧ decodeFields (0x50000000 + vd * 524288 + vsrcBits va * 1024 + vsrcBits vb * 2) = _
  revert hw hm c0 e_vd e_va e_vb
  generalize 0x50000000 + vd * 524288 + vsrcBits va * 1024 + vsrcBits vb * 2 = w
  intro hw hm c0 e_vd e_va e_vb
  refine ⟨hw, ?_⟩
  simp only [decodeFields, hm, major14, c0, e_vd, vsrcAt_of w_va e_va, vsrcAt_of w_vb e_vb]
theorem RoundTrip.vandn (vd : Nat) (va : VSrc) (vb : VSrc) : RoundTrip.Statement (.vandn vd va vb) := by
  intro _ h
  change (decide (vd < 128) && va.wf && vb.wf) = true at h
  simp only [Bool.and_eq_true, decide_eq_true_eq] at h
  have w_va : va.wf = true := by simp only [h]
  have w_vb : vb.wf = true := by simp only [h]
  obtain ⟨hw, hm, c0, e_vd, e_va, e_vb⟩ := layout_27 (K := 0x50000001) (m := 20) (c0 := 1) (x0 := vd) (x1 := vsrcBits va) (x2 := vsrcBits vb) rfl (by decide) (by omega) (vsrc_lt w_va) (vsrc_lt w_vb) (by decide)
  change 0x50000001 + vd * 524288 + vsrcBits va * 1024 + vsrcBits vb * 2 < 2 ^ 32 ∧ decodeFields (0x50000001 + vd * 524288 + vsrcBits va * 1024 + vsrcBits vb * 2) = _
  revert hw hm c0 e_vd e_va e_vb
  generalize 0x50000001 + vd * 524288 + vsrcBits va * 1024 + vsrcBits vb * 2 = w
  intro hw hm c0 e_vd e_va e_vb
  refine ⟨hw, ?_⟩
  simp only [decodeFields, hm, major14, c0, e_vd, vsrcAt_of w_va e_va, vsrcAt_of w_vb e_vb]
theorem RoundTrip.vshl (vd : Nat) (va : VSrc) (vb : VSrc) : RoundTrip.Statement (.vshl vd va vb) := by
  intro _ h
  change (decide (vd < 128) && va.wf && vb.wf) = true at h
  simp only [Bool.and_eq_true, decide_eq_true_eq] at h
  have w_va : va.wf = true := by simp only [h]
  have w_vb : vb.wf = true := by simp only [h]
  obtain ⟨hw, hm, c0, e_vd, e_va, e_vb⟩ := layout_27 (K := 0x54000000) (m := 21) (c0 := 0) (x0 := vd) (x1 := vsrcBits va) (x2 := vsrcBits vb) rfl (by decide) (by omega) (vsrc_lt w_va) (vsrc_lt w_vb) (by decide)
  change 0x54000000 + vd * 524288 + vsrcBits va * 1024 + vsrcBits vb * 2 < 2 ^ 32 ∧ decodeFields (0x54000000 + vd * 524288 + vsrcBits va * 1024 + vsrcBits vb * 2) = _
  revert hw hm c0 e_vd e_va e_vb
  generalize 0x54000000 + vd * 524288 + vsrcBits va * 1024 + vsrcBits vb * 2 = w
  intro hw hm c0 e_vd e_va e_vb
  refine ⟨hw, ?_⟩
  simp only [decodeFields, hm, major15, c0, e_vd, vsrcAt_of w_va e_va, vsrcAt_of w_vb e_vb]
theorem RoundTrip.vshr (vd : Nat) (va : VSrc) (vb : VSrc) : RoundTrip.Statement (.vshr vd va vb) := by
  intro _ h
  change (decide (vd < 128) && va.wf && vb.wf) = true at h
  simp only [Bool.and_eq_true, decide_eq_true_eq] at h
  have w_va : va.wf = true := by simp only [h]
  have w_vb : vb.wf = true := by simp only [h]
  obtain ⟨hw, hm, c0, e_vd, e_va, e_vb⟩ := layout_27 (K := 0x54000001) (m := 21) (c0 := 1) (x0 := vd) (x1 := vsrcBits va) (x2 := vsrcBits vb) rfl (by decide) (by omega) (vsrc_lt w_va) (vsrc_lt w_vb) (by decide)
  change 0x54000001 + vd * 524288 + vsrcBits va * 1024 + vsrcBits vb * 2 < 2 ^ 32 ∧ decodeFields (0x54000001 + vd * 524288 + vsrcBits va * 1024 + vsrcBits vb * 2) = _
  revert hw hm c0 e_vd e_va e_vb
  generalize 0x54000001 + vd * 524288 + vsrcBits va * 1024 + vsrcBits vb * 2 = w
  intro hw hm c0 e_vd e_va e_vb
  refine ⟨hw, ?_⟩
  simp only [decodeFields, hm, major15, c0, e_vd, vsrcAt_of w_va e_va, vsrcAt_of w_vb e_vb]
theorem RoundTrip.vsra (vd : Nat) (va : VSrc) (vb : VSrc) : RoundTrip.Statement (.vsra vd va vb) := by
  intro _ h
  change (decide (vd < 128) && va.wf && vb.wf) = true at h
  simp only [Bool.and_eq_true, decide_eq_true_eq] at h
  have w_va : va.wf = true := by simp only [h]
  have w_vb : vb.wf = true := by simp only [h]
  obtain ⟨hw, hm, c0, e_vd, e_va, e_vb⟩ := layout_27 (K := 0x58000000) (m := 22) (c0 := 0) (x0 := vd) (x1 := vsrcBits va) (x2 := vsrcBits vb) rfl (by decide) (by omega) (vsrc_lt w_va) (vsrc_lt w_vb) (by decide)
  change 0x58000000 + vd * 524288 + vsrcBits va * 1024 + vsrcBits vb * 2 < 2 ^ 32 ∧ decodeFields (0x58000000 + vd * 524288 + vsrcBits va * 1024 + vsrcBits vb * 2) = _
  revert hw hm c0 e_vd e_va e_vb
  generalize 0x58000000 + vd * 524288 + vsrcBits va * 1024 + vsrcBits vb * 2 = w
  intro hw hm c0 e_vd e_va e_vb
  refine ⟨hw, ?_⟩
  simp only [decodeFields, hm, major16, c0, e_vd, vsrcAt_of w_va e_va, vsrcAt_of w_vb e_vb]
theorem RoundTrip.vrot (vd : Nat) (va : VSrc) (vb : VSrc) : RoundTrip.Statement (.vrot vd va vb) := by
  intro _ h
  change (decide (vd < 128) && va.wf && vb.wf) = true at h
  simp only [Bool.and_eq_true, decide_eq_true_eq] at h
  have w_va : va.wf = true := by simp only [h]
  have w_vb : vb.wf = true := by simp only [h]
  obtain ⟨hw, hm, c0, e_vd, e_va, e_vb⟩ := layout_27 (K := 0x58000001) (m := 22) (c0 := 1) (x0 := vd) (x1 := vsrcBits va) (x2 := vsrcBits vb) rfl (by decide) (by omega) (vsrc_lt w_va) (vsrc_lt w_vb) (by decide)
  change 0x58000001 + vd * 524288 + vsrcBits va * 1024 + vsrcBits vb * 2 < 2 ^ 32 ∧ decodeFields (0x58000001 + vd * 524288 + vsrcBits va * 1024 + vsrcBits vb * 2) = _
  revert hw hm c0 e_vd e_va e_vb
  generalize 0x58000001 + vd * 524288 + vsrcBits va * 1024 + vsrcBits vb * 2 = w
  intro hw hm c0 e_vd e_va e_vb
  refine ⟨hw, ?_⟩
  simp only [decodeFields, hm, major16, c0, e_vd, vsrcAt_of w_va e_va, vsrcAt_of w_vb e_vb]
theorem RoundTrip.vmin (vd : Nat) (va : VSrc) (vb : VSrc) : RoundTrip.Statement (.vmin vd va vb) := by
  intro _ h
  change (decide (vd < 128) && va.wf && vb.wf) = true at h
  simp only [Bool.and_eq_true, decide_eq_true_eq] at h
  have w_va : va.wf = true := by simp only [h]
  have w_vb : vb.wf = true := by simp only [h]
  obtain ⟨hw, hm, c0, e_vd, e_va, e_vb⟩ := layout_27 (K := 0x5C000000) (m := 23) (c0 := 0) (x0 := vd) (x1 := vsrcBits va) (x2 := vsrcBits vb) rfl (by decide) (by omega) (vsrc_lt w_va) (vsrc_lt w_vb) (by decide)
  change 0x5C000000 + vd * 524288 + vsrcBits va * 1024 + vsrcBits vb * 2 < 2 ^ 32 ∧ decodeFields (0x5C000000 + vd * 524288 + vsrcBits va * 1024 + vsrcBits vb * 2) = _
  revert hw hm c0 e_vd e_va e_vb
  generalize 0x5C000000 + vd * 524288 + vsrcBits va * 1024 + vsrcBits vb * 2 = w
  intro hw hm c0 e_vd e_va e_vb
  refine ⟨hw, ?_⟩
  simp only [decodeFields, hm, major17, c0, e_vd, vsrcAt_of w_va e_va, vsrcAt_of w_vb e_vb]
theorem RoundTrip.vmax (vd : Nat) (va : VSrc) (vb : VSrc) : RoundTrip.Statement (.vmax vd va vb) := by
  intro _ h
  change (decide (vd < 128) && va.wf && vb.wf) = true at h
  simp only [Bool.and_eq_true, decide_eq_true_eq] at h
  have w_va : va.wf = true := by simp only [h]
  have w_vb : vb.wf = true := by simp only [h]
  obtain ⟨hw, hm, c0, e_vd, e_va, e_vb⟩ := layout_27 (K := 0x5C000001) (m := 23) (c0 := 1) (x0 := vd) (x1 := vsrcBits va) (x2 := vsrcBits vb) rfl (by decide) (by omega) (vsrc_lt w_va) (vsrc_lt w_vb) (by decide)
  change 0x5C000001 + vd * 524288 + vsrcBits va * 1024 + vsrcBits vb * 2 < 2 ^ 32 ∧ decodeFields (0x5C000001 + vd * 524288 + vsrcBits va * 1024 + vsrcBits vb * 2) = _
  revert hw hm c0 e_vd e_va e_vb
  generalize 0x5C000001 + vd * 524288 + vsrcBits va * 1024 + vsrcBits vb * 2 = w
  intro hw hm c0 e_vd e_va e_vb
  refine ⟨hw, ?_⟩
  simp only [decodeFields, hm, major17, c0, e_vd, vsrcAt_of w_va e_va, vsrcAt_of w_vb e_vb]
theorem RoundTrip.vminu (vd : Nat) (va : VSrc) (vb : VSrc) : RoundTrip.Statement (.vminu vd va vb) := by
  intro _ h
  change (decide (vd < 128) && va.wf && vb.wf) = true at h
  simp only [Bool.and_eq_true, decide_eq_true_eq] at h
  have w_va : va.wf = true := by simp only [h]
  have w_vb : vb.wf = true := by simp only [h]
  obtain ⟨hw, hm, c0, e_vd, e_va, e_vb⟩ := layout_27 (K := 0x60000000) (m := 24) (c0 := 0) (x0 := vd) (x1 := vsrcBits va) (x2 := vsrcBits vb) rfl (by decide) (by omega) (vsrc_lt w_va) (vsrc_lt w_vb) (by decide)
  change 0x60000000 + vd * 524288 + vsrcBits va * 1024 + vsrcBits vb * 2 < 2 ^ 32 ∧ decodeFields (0x60000000 + vd * 524288 + vsrcBits va * 1024 + vsrcBits vb * 2) = _
  revert hw hm c0 e_vd e_va e_vb
  generalize 0x60000000 + vd * 524288 + vsrcBits va * 1024 + vsrcBits vb * 2 = w
  intro hw hm c0 e_vd e_va e_vb
  refine ⟨hw, ?_⟩
  simp only [decodeFields, hm, major18, c0, e_vd, vsrcAt_of w_va e_va, vsrcAt_of w_vb e_vb]
theorem RoundTrip.vmaxu (vd : Nat) (va : VSrc) (vb : VSrc) : RoundTrip.Statement (.vmaxu vd va vb) := by
  intro _ h
  change (decide (vd < 128) && va.wf && vb.wf) = true at h
  simp only [Bool.and_eq_true, decide_eq_true_eq] at h
  have w_va : va.wf = true := by simp only [h]
  have w_vb : vb.wf = true := by simp only [h]
  obtain ⟨hw, hm, c0, e_vd, e_va, e_vb⟩ := layout_27 (K := 0x60000001) (m := 24) (c0 := 1) (x0 := vd) (x1 := vsrcBits va) (x2 := vsrcBits vb) rfl (by decide) (by omega) (vsrc_lt w_va) (vsrc_lt w_vb) (by decide)
  change 0x60000001 + vd * 524288 + vsrcBits va * 1024 + vsrcBits vb * 2 < 2 ^ 32 ∧ decodeFields (0x60000001 + vd * 524288 + vsrcBits va * 1024 + vsrcBits vb * 2) = _
  revert hw hm c0 e_vd e_va e_vb
  generalize 0x60000001 + vd * 524288 + vsrcBits va * 1024 + vsrcBits vb * 2 = w
  intro hw hm c0 e_vd e_va e_vb
  refine ⟨hw, ?_⟩
  simp only [decodeFields, hm, major18, c0, e_vd, vsrcAt_of w_va e_va, vsrcAt_of w_vb e_vb]
theorem RoundTrip.vabsd (vd : Nat) (va : VSrc) (vb : VSrc) : RoundTrip.Statement (.vabsd vd va vb) := by
  intro _ h
  change (decide (vd < 128) && va.wf && vb.wf) = true at h
  simp only [Bool.and_eq_true, decide_eq_true_eq] at h
  have w_va : va.wf = true := by simp only [h]
  have w_vb : vb.wf = true := by simp only [h]
  obtain ⟨hw, hm, c0, e_vd, e_va, e_vb⟩ := layout_27 (K := 0x64000000) (m := 25) (c0 := 0) (x0 := vd) (x1 := vsrcBits va) (x2 := vsrcBits vb) rfl (by decide) (by omega) (vsrc_lt w_va) (vsrc_lt w_vb) (by decide)
  change 0x64000000 + vd * 524288 + vsrcBits va * 1024 + vsrcBits vb * 2 < 2 ^ 32 ∧ decodeFields (0x64000000 + vd * 524288 + vsrcBits va * 1024 + vsrcBits vb * 2) = _
  revert hw hm c0 e_vd e_va e_vb
  generalize 0x64000000 + vd * 524288 + vsrcBits va * 1024 + vsrcBits vb * 2 = w
  intro hw hm c0 e_vd e_va e_vb
  refine ⟨hw, ?_⟩
  simp only [decodeFields, hm, major19, c0, e_vd, vsrcAt_of w_va e_va, vsrcAt_of w_vb e_vb]
theorem RoundTrip.vaddc (vd : Nat) (va : VSrc) (vb : VSrc) : RoundTrip.Statement (.vaddc vd va vb) := by
  intro _ h
  change (decide (vd < 128) && va.wf && vb.wf) = true at h
  simp only [Bool.and_eq_true, decide_eq_true_eq] at h
  have w_va : va.wf = true := by simp only [h]
  have w_vb : vb.wf = true := by simp only [h]
  obtain ⟨hw, hm, c0, e_vd, e_va, e_vb⟩ := layout_27 (K := 0x64000001) (m := 25) (c0 := 1) (x0 := vd) (x1 := vsrcBits va) (x2 := vsrcBits vb) rfl (by decide) (by omega) (vsrc_lt w_va) (vsrc_lt w_vb) (by decide)
  change 0x64000001 + vd * 524288 + vsrcBits va * 1024 + vsrcBits vb * 2 < 2 ^ 32 ∧ decodeFields (0x64000001 + vd * 524288 + vsrcBits va * 1024 + vsrcBits vb * 2) = _
  revert hw hm c0 e_vd e_va e_vb
  generalize 0x64000001 + vd * 524288 + vsrcBits va * 1024 + vsrcBits vb * 2 = w
  intro hw hm c0 e_vd e_va e_vb
  refine ⟨hw, ?_⟩
  simp only [decodeFields, hm, major19, c0, e_vd, vsrcAt_of w_va e_va, vsrcAt_of w_vb e_vb]
theorem RoundTrip.vdot4 (vd : Nat) (va : VSrc) (vb : VSrc) : RoundTrip.Statement (.vdot4 vd va vb) := by
  intro _ h
  change (decide (vd < 128) && va.wf && vb.wf) = true at h
  simp only [Bool.and_eq_true, decide_eq_true_eq] at h
  have w_va : va.wf = true := by simp only [h]
  have w_vb : vb.wf = true := by simp only [h]
  obtain ⟨hw, hm, c0, e_vd, e_va, e_vb⟩ := layout_27 (K := 0x68000000) (m := 26) (c0 := 0) (x0 := vd) (x1 := vsrcBits va) (x2 := vsrcBits vb) rfl (by decide) (by omega) (vsrc_lt w_va) (vsrc_lt w_vb) (by decide)
  change 0x68000000 + vd * 524288 + vsrcBits va * 1024 + vsrcBits vb * 2 < 2 ^ 32 ∧ decodeFields (0x68000000 + vd * 524288 + vsrcBits va * 1024 + vsrcBits vb * 2) = _
  revert hw hm c0 e_vd e_va e_vb
  generalize 0x68000000 + vd * 524288 + vsrcBits va * 1024 + vsrcBits vb * 2 = w
  intro hw hm c0 e_vd e_va e_vb
  refine ⟨hw, ?_⟩
  simp only [decodeFields, hm, major1A, c0, e_vd, vsrcAt_of w_va e_va, vsrcAt_of w_vb e_vb]
theorem RoundTrip.vdot4u (vd : Nat) (va : VSrc) (vb : VSrc) : RoundTrip.Statement (.vdot4u vd va vb) := by
  intro _ h
  change (decide (vd < 128) && va.wf && vb.wf) = true at h
  simp only [Bool.and_eq_true, decide_eq_true_eq] at h
  have w_va : va.wf = true := by simp only [h]
  have w_vb : vb.wf = true := by simp only [h]
  obtain ⟨hw, hm, c0, e_vd, e_va, e_vb⟩ := layout_27 (K := 0x68000001) (m := 26) (c0 := 1) (x0 := vd) (x1 := vsrcBits va) (x2 := vsrcBits vb) rfl (by decide) (by omega) (vsrc_lt w_va) (vsrc_lt w_vb) (by decide)
  change 0x68000001 + vd * 524288 + vsrcBits va * 1024 + vsrcBits vb * 2 < 2 ^ 32 ∧ decodeFields (0x68000001 + vd * 524288 + vsrcBits va * 1024 + vsrcBits vb * 2) = _
  revert hw hm c0 e_vd e_va e_vb
  generalize 0x68000001 + vd * 524288 + vsrcBits va * 1024 + vsrcBits vb * 2 = w
  intro hw hm c0 e_vd e_va e_vb
  refine ⟨hw, ?_⟩
  simp only [decodeFields, hm, major1A, c0, e_vd, vsrcAt_of w_va e_va, vsrcAt_of w_vb e_vb]
theorem RoundTrip.vcmp (p : Nat) (cond : Nat) (va : VSrc) (vb : VSrc) (uns : Bool) : RoundTrip.Statement (.vcmp p cond va vb uns) := by
  intro _ h
  change (decide (p < 8) && decide (cond < 16) && va.wf && vb.wf && decide (cond ≤ 5)) = true at h
  simp only [Bool.and_eq_true, decide_eq_true_eq] at h
  have w_va : va.wf = true := by simp only [h]
  have w_vb : vb.wf = true := by simp only [h]
  obtain ⟨hw, hm, e_p, e_cond, e_va, e_vb, e_uns⟩ := layout_28 (K := 0x6C000000) (m := 27) (x0 := p) (x1 := cond) (x2 := vsrcBits va) (x3 := vsrcBits vb) (x4 := uns.toNat) rfl (by decide) (by omega) (by omega) (vsrc_lt w_va) (vsrc_lt w_vb) (bit_lt uns)
  change 0x6C000000 + p * 8388608 + cond * 524288 + vsrcBits va * 1024 + vsrcBits vb * 2 + uns.toNat < 2 ^ 32 ∧ decodeFields (0x6C000000 + p * 8388608 + cond * 524288 + vsrcBits va * 1024 + vsrcBits vb * 2 + uns.toNat) = _
  revert hw hm e_p e_cond e_va e_vb e_uns
  generalize 0x6C000000 + p * 8388608 + cond * 524288 + vsrcBits va * 1024 + vsrcBits vb * 2 + uns.toNat = w
  intro hw hm e_p e_cond e_va e_vb e_uns
  refine ⟨hw, ?_⟩
  simp only [decodeFields, hm, major1B, e_p, e_cond, vsrcAt_of w_va e_va, vsrcAt_of w_vb e_vb, bitAt_of e_uns]
theorem RoundTrip.vfcmp (p : Nat) (cond : Nat) (va : VSrc) (vb : VSrc) : RoundTrip.Statement (.vfcmp p cond va vb) := by
  intro _ h
  change (decide (p < 8) && decide (cond < 16) && va.wf && vb.wf && decide (cond ≤ 7)) = true at h
  simp only [Bool.and_eq_true, decide_eq_true_eq] at h
  have w_va : va.wf = true := by simp only [h]
  have w_vb : vb.wf = true := by simp only [h]
  obtain ⟨hw, hm, e_p, e_cond, e_va, e_vb⟩ := layout_29 (K := 0x70000000) (m := 28) (x0 := p) (x1 := cond) (x2 := vsrcBits va) (x3 := vsrcBits vb) rfl (by decide) (by omega) (by omega) (vsrc_lt w_va) (vsrc_lt w_vb)
  change 0x70000000 + p * 8388608 + cond * 524288 + vsrcBits va * 1024 + vsrcBits vb * 2 < 2 ^ 32 ∧ decodeFields (0x70000000 + p * 8388608 + cond * 524288 + vsrcBits va * 1024 + vsrcBits vb * 2) = _
  revert hw hm e_p e_cond e_va e_vb
  generalize 0x70000000 + p * 8388608 + cond * 524288 + vsrcBits va * 1024 + vsrcBits vb * 2 = w
  intro hw hm e_p e_cond e_va e_vb
  refine ⟨hw, ?_⟩
  simp only [decodeFields, hm, major1C, e_p, e_cond, vsrcAt_of w_va e_va, vsrcAt_of w_vb e_vb]
theorem RoundTrip.vmov (vd : Nat) (va : VSrc) : RoundTrip.Statement (.vmov vd va) := by
  intro _ h
  change (decide (vd < 128) && va.wf) = true at h
  simp only [Bool.and_eq_true, decide_eq_true_eq] at h
  have w_va : va.wf = true := by simp only [h]
  obtain ⟨hw, hm, c0, e_vd, e_va⟩ := layout_30 (K := 0x74000000) (m := 29) (c0 := 0) (x0 := vd) (x1 := vsrcBits va) rfl (by decide) (by omega) (vsrc_lt w_va) (by decide)
  change 0x74000000 + vd * 524288 + vsrcBits va * 1024 < 2 ^ 32 ∧ decodeFields (0x74000000 + vd * 524288 + vsrcBits va * 1024) = _
  revert hw hm c0 e_vd e_va
  generalize 0x74000000 + vd * 524288 + vsrcBits va * 1024 = w
  intro hw hm c0 e_vd e_va
  refine ⟨hw, ?_⟩
  simp only [decodeFields, hm, major1D, c0, e_vd, vsrcAt_of w_va e_va]
theorem RoundTrip.vnot (vd : Nat) (va : VSrc) : RoundTrip.Statement (.vnot vd va) := by
  intro _ h
  change (decide (vd < 128) && va.wf) = true at h
  simp only [Bool.and_eq_true, decide_eq_true_eq] at h
  have w_va : va.wf = true := by simp only [h]
  obtain ⟨hw, hm, c0, e_vd, e_va⟩ := layout_30 (K := 0x74000001) (m := 29) (c0 := 1) (x0 := vd) (x1 := vsrcBits va) rfl (by decide) (by omega) (vsrc_lt w_va) (by decide)
  change 0x74000001 + vd * 524288 + vsrcBits va * 1024 < 2 ^ 32 ∧ decodeFields (0x74000001 + vd * 524288 + vsrcBits va * 1024) = _
  revert hw hm c0 e_vd e_va
  generalize 0x74000001 + vd * 524288 + vsrcBits va * 1024 = w
  intro hw hm c0 e_vd e_va
  refine ⟨hw, ?_⟩
  simp only [decodeFields, hm, major1D, c0, e_vd, vsrcAt_of w_va e_va]
theorem RoundTrip.vneg (vd : Nat) (va : VSrc) : RoundTrip.Statement (.vneg vd va) := by
  intro _ h
  change (decide (vd < 128) && va.wf) = true at h
  simp only [Bool.and_eq_true, decide_eq_true_eq] at h
  have w_va : va.wf = true := by simp only [h]
  obtain ⟨hw, hm, c0, e_vd, e_va⟩ := layout_30 (K := 0x74000002) (m := 29) (c0 := 2) (x0 := vd) (x1 := vsrcBits va) rfl (by decide) (by omega) (vsrc_lt w_va) (by decide)
  change 0x74000002 + vd * 524288 + vsrcBits va * 1024 < 2 ^ 32 ∧ decodeFields (0x74000002 + vd * 524288 + vsrcBits va * 1024) = _
  revert hw hm c0 e_vd e_va
  generalize 0x74000002 + vd * 524288 + vsrcBits va * 1024 = w
  intro hw hm c0 e_vd e_va
  refine ⟨hw, ?_⟩
  simp only [decodeFields, hm, major1D, c0, e_vd, vsrcAt_of w_va e_va]
theorem RoundTrip.vabs (vd : Nat) (va : VSrc) : RoundTrip.Statement (.vabs vd va) := by
  intro _ h
  change (decide (vd < 128) && va.wf) = true at h
  simp only [Bool.and_eq_true, decide_eq_true_eq] at h
  have w_va : va.wf = true := by simp only [h]
  obtain ⟨hw, hm, c0, e_vd, e_va⟩ := layout_30 (K := 0x74000003) (m := 29) (c0 := 3) (x0 := vd) (x1 := vsrcBits va) rfl (by decide) (by omega) (vsrc_lt w_va) (by decide)
  change 0x74000003 + vd * 524288 + vsrcBits va * 1024 < 2 ^ 32 ∧ decodeFields (0x74000003 + vd * 524288 + vsrcBits va * 1024) = _
  revert hw hm c0 e_vd e_va
  generalize 0x74000003 + vd * 524288 + vsrcBits va * 1024 = w
  intro hw hm c0 e_vd e_va
  refine ⟨hw, ?_⟩
  simp only [decodeFields, hm, major1D, c0, e_vd, vsrcAt_of w_va e_va]
theorem RoundTrip.vpopc (vd : Nat) (va : VSrc) : RoundTrip.Statement (.vpopc vd va) := by
  intro _ h
  change (decide (vd < 128) && va.wf) = true at h
  simp only [Bool.and_eq_true, decide_eq_true_eq] at h
  have w_va : va.wf = true := by simp only [h]
  obtain ⟨hw, hm, c0, e_vd, e_va⟩ := layout_30 (K := 0x74000004) (m := 29) (c0 := 4) (x0 := vd) (x1 := vsrcBits va) rfl (by decide) (by omega) (vsrc_lt w_va) (by decide)
  change 0x74000004 + vd * 524288 + vsrcBits va * 1024 < 2 ^ 32 ∧ decodeFields (0x74000004 + vd * 524288 + vsrcBits va * 1024) = _
  revert hw hm c0 e_vd e_va
  generalize 0x74000004 + vd * 524288 + vsrcBits va * 1024 = w
  intro hw hm c0 e_vd e_va
  refine ⟨hw, ?_⟩
  simp only [decodeFields, hm, major1D, c0, e_vd, vsrcAt_of w_va e_va]
theorem RoundTrip.vclz (vd : Nat) (va : VSrc) : RoundTrip.Statement (.vclz vd va) := by
  intro _ h
  change (decide (vd < 128) && va.wf) = true at h
  simp only [Bool.and_eq_true, decide_eq_true_eq] at h
  have w_va : va.wf = true := by simp only [h]
  obtain ⟨hw, hm, c0, e_vd, e_va⟩ := layout_30 (K := 0x74000005) (m := 29) (c0 := 5) (x0 := vd) (x1 := vsrcBits va) rfl (by decide) (by omega) (vsrc_lt w_va) (by decide)
  change 0x74000005 + vd * 524288 + vsrcBits va * 1024 < 2 ^ 32 ∧ decodeFields (0x74000005 + vd * 524288 + vsrcBits va * 1024) = _
  revert hw hm c0 e_vd e_va
  generalize 0x74000005 + vd * 524288 + vsrcBits va * 1024 = w
  intro hw hm c0 e_vd e_va
  refine ⟨hw, ?_⟩
  simp only [decodeFields, hm, major1D, c0, e_vd, vsrcAt_of w_va e_va]
theorem RoundTrip.vctz (vd : Nat) (va : VSrc) : RoundTrip.Statement (.vctz vd va) := by
  intro _ h
  change (decide (vd < 128) && va.wf) = true at h
  simp only [Bool.and_eq_true, decide_eq_true_eq] at h
  have w_va : va.wf = true := by simp only [h]
  obtain ⟨hw, hm, c0, e_vd, e_va⟩ := layout_30 (K := 0x74000006) (m := 29) (c0 := 6) (x0 := vd) (x1 := vsrcBits va) rfl (by decide) (by omega) (vsrc_lt w_va) (by decide)
  change 0x74000006 + vd * 524288 + vsrcBits va * 1024 < 2 ^ 32 ∧ decodeFields (0x74000006 + vd * 524288 + vsrcBits va * 1024) = _
  revert hw hm c0 e_vd e_va
  generalize 0x74000006 + vd * 524288 + vsrcBits va * 1024 = w
  intro hw hm c0 e_vd e_va
  refine ⟨hw, ?_⟩
  simp only [decodeFields, hm, major1D, c0, e_vd, vsrcAt_of w_va e_va]
theorem RoundTrip.vbrev (vd : Nat) (va : VSrc) : RoundTrip.Statement (.vbrev vd va) := by
  intro _ h
  change (decide (vd < 128) && va.wf) = true at h
  simp only [Bool.and_eq_true, decide_eq_true_eq] at h
  have w_va : va.wf = true := by simp only [h]
  obtain ⟨hw, hm, c0, e_vd, e_va⟩ := layout_30 (K := 0x74000007) (m := 29) (c0 := 7) (x0 := vd) (x1 := vsrcBits va) rfl (by decide) (by omega) (vsrc_lt w_va) (by decide)
  change 0x74000007 + vd * 524288 + vsrcBits va * 1024 < 2 ^ 32 ∧ decodeFields (0x74000007 + vd * 524288 + vsrcBits va * 1024) = _
  revert hw hm c0 e_vd e_va
  generalize 0x74000007 + vd * 524288 + vsrcBits va * 1024 = w
  intro hw hm c0 e_vd e_va
  refine ⟨hw, ?_⟩
  simp only [decodeFields, hm, major1D, c0, e_vd, vsrcAt_of w_va e_va]
theorem RoundTrip.vext (vd : Nat) (va : VSrc) (half : Bool) (zext : Bool) : RoundTrip.Statement (.vext vd va half zext) := by
  intro _ h
  change (decide (vd < 128) && va.wf) = true at h
  simp only [Bool.and_eq_true, decide_eq_true_eq] at h
  have w_va : va.wf = true := by simp only [h]
  obtain ⟨hw, hm, c0, e_vd, e_va, e_half, e_zext⟩ := layout_31 (K := 0x74000008) (m := 29) (c0 := 8) (x0 := vd) (x1 := vsrcBits va) (x2 := half.toNat) (x3 := zext.toNat) rfl (by decide) (by omega) (vsrc_lt w_va) (bit_lt half) (bit_lt zext) (by decide)
  change 0x74000008 + vd * 524288 + vsrcBits va * 1024 + half.toNat * 64 + zext.toNat * 32 < 2 ^ 32 ∧ decodeFields (0x74000008 + vd * 524288 + vsrcBits va * 1024 + half.toNat * 64 + zext.toNat * 32) = _
  revert hw hm c0 e_vd e_va e_half e_zext
  generalize 0x74000008 + vd * 524288 + vsrcBits va * 1024 + half.toNat * 64 + zext.toNat * 32 = w
  intro hw hm c0 e_vd e_va e_half e_zext
  refine ⟨hw, ?_⟩
  simp only [decodeFields, hm, major1D, c0, e_vd, vsrcAt_of w_va e_va, bitAt_of e_half, bitAt_of e_zext]
theorem RoundTrip.vlid (vd : Nat) : RoundTrip.Statement (.vlid vd) := by
  intro _ h
  change (decide (vd < 128)) = true at h
  simp only [decide_eq_true_eq] at h
  obtain ⟨hw, hm, c0, e_vd⟩ := layout_32 (K := 0x74000009) (m := 29) (c0 := 9) (x0 := vd) rfl (by decide) (by omega) (by decide)
  change 0x74000009 + vd * 524288 < 2 ^ 32 ∧ decodeFields (0x74000009 + vd * 524288) = _
  revert hw hm c0 e_vd
  generalize 0x74000009 + vd * 524288 = w
  intro hw hm c0 e_vd
  refine ⟨hw, ?_⟩
  simp only [decodeFields, hm, major1D, c0, e_vd]
theorem RoundTrip.vaddi (vd : Nat) (va : VSrc) (imm : Nat) : RoundTrip.Statement (.vaddi vd va imm) := by
  intro _ h
  change (decide (vd < 128) && va.wf && decide (imm < 1024)) = true at h
  simp only [Bool.and_eq_true, decide_eq_true_eq] at h
  have w_va : va.wf = true := by simp only [h]
  obtain ⟨hw, hm, e_vd, e_va, e_imm⟩ := layout_33 (K := 0x78000000) (m := 30) (x0 := vd) (x1 := vsrcBits va) (x2 := imm) rfl (by decide) (by omega) (vsrc_lt w_va) (by omega)
  change 0x78000000 + vd * 524288 + vsrcBits va * 1024 + imm < 2 ^ 32 ∧ decodeFields (0x78000000 + vd * 524288 + vsrcBits va * 1024 + imm) = _
  revert hw hm e_vd e_va e_imm
  generalize 0x78000000 + vd * 524288 + vsrcBits va * 1024 + imm = w
  intro hw hm e_vd e_va e_imm
  refine ⟨hw, ?_⟩
  simp only [decodeFields, hm, major1E, e_vd, vsrcAt_of w_va e_va, e_imm]
theorem RoundTrip.vandi (vd : Nat) (va : VSrc) (imm : Nat) : RoundTrip.Statement (.vandi vd va imm) := by
  intro _ h
  change (decide (vd < 128) && va.wf && decide (imm < 1024)) = true at h
  simp only [Bool.and_eq_true, decide_eq_true_eq] at h
  have w_va : va.wf = true := by simp only [h]
  obtain ⟨hw, hm, e_vd, e_va, e_imm⟩ := layout_33 (K := 0x7C000000) (m := 31) (x0 := vd) (x1 := vsrcBits va) (x2 := imm) rfl (by decide) (by omega) (vsrc_lt w_va) (by omega)
  change 0x7C000000 + vd * 524288 + vsrcBits va * 1024 + imm < 2 ^ 32 ∧ decodeFields (0x7C000000 + vd * 524288 + vsrcBits va * 1024 + imm) = _
  revert hw hm e_vd e_va e_imm
  generalize 0x7C000000 + vd * 524288 + vsrcBits va * 1024 + imm = w
  intro hw hm e_vd e_va e_imm
  refine ⟨hw, ?_⟩
  simp only [decodeFields, hm, major1F, e_vd, vsrcAt_of w_va e_va, e_imm]
theorem RoundTrip.vori (vd : Nat) (va : VSrc) (imm : Nat) : RoundTrip.Statement (.vori vd va imm) := by
  intro _ h
  change (decide (vd < 128) && va.wf && decide (imm < 1024)) = true at h
  simp only [Bool.and_eq_true, decide_eq_true_eq] at h
  have w_va : va.wf = true := by simp only [h]
  obtain ⟨hw, hm, e_vd, e_va, e_imm⟩ := layout_33 (K := 0x80000000) (m := 32) (x0 := vd) (x1 := vsrcBits va) (x2 := imm) rfl (by decide) (by omega) (vsrc_lt w_va) (by omega)
  change 0x80000000 + vd * 524288 + vsrcBits va * 1024 + imm < 2 ^ 32 ∧ decodeFields (0x80000000 + vd * 524288 + vsrcBits va * 1024 + imm) = _
  revert hw hm e_vd e_va e_imm
  generalize 0x80000000 + vd * 524288 + vsrcBits va * 1024 + imm = w
  intro hw hm e_vd e_va e_imm
  refine ⟨hw, ?_⟩
  simp only [decodeFields, hm, major20, e_vd, vsrcAt_of w_va e_va, e_imm]
theorem RoundTrip.vshi (vd : Nat) (va : VSrc) (kind : Nat) (amt : Nat) : RoundTrip.Statement (.vshi vd va kind amt) := by
  intro _ h
  change (decide (vd < 128) && va.wf && decide (kind < 4) && decide (amt < 32)) = true at h
  simp only [Bool.and_eq_true, decide_eq_true_eq] at h
  have w_va : va.wf = true := by simp only [h]
  obtain ⟨hw, hm, e_vd, e_va, e_kind, e_amt⟩ := layout_34 (K := 0x84000000) (m := 33) (x0 := vd) (x1 := vsrcBits va) (x2 := kind) (x3 := amt) rfl (by decide) (by omega) (vsrc_lt w_va) (by omega) (by omega)
  change 0x84000000 + vd * 524288 + vsrcBits va * 1024 + kind * 32 + amt < 2 ^ 32 ∧ decodeFields (0x84000000 + vd * 524288 + vsrcBits va * 1024 + kind * 32 + amt) = _
  revert hw hm e_vd e_va e_kind e_amt
  generalize 0x84000000 + vd * 524288 + vsrcBits va * 1024 + kind * 32 + amt = w
  intro hw hm e_vd e_va e_kind e_amt
  refine ⟨hw, ?_⟩
  simp only [decodeFields, hm, major21, e_vd, vsrcAt_of w_va e_va, e_kind, e_amt]
theorem RoundTrip.vmovi (vd : Nat) (imm : Nat) : RoundTrip.Statement (.vmovi vd imm) := by
  intro _ h
  change (decide (vd < 128) && decide (imm < 1024)) = true at h
  simp only [Bool.and_eq_true, decide_eq_true_eq] at h
  obtain ⟨hw, hm, e_vd, e_imm⟩ := layout_35 (K := 0x88000000) (m := 34) (x0 := vd) (x1 := imm) rfl (by decide) (by omega) (by omega)
  change 0x88000000 + vd * 524288 + imm < 2 ^ 32 ∧ decodeFields (0x88000000 + vd * 524288 + imm) = _
  revert hw hm e_vd e_imm
  generalize 0x88000000 + vd * 524288 + imm = w
  intro hw hm e_vd e_imm
  refine ⟨hw, ?_⟩
  simp only [decodeFields, hm, major22, e_vd, e_imm]
theorem RoundTrip.vperm (vd : Nat) (va : VSrc) (vb : VSrc) : RoundTrip.Statement (.vperm vd va vb) := by
  intro _ h
  change (decide (vd < 128) && va.wf && vb.wf) = true at h
  simp only [Bool.and_eq_true, decide_eq_true_eq] at h
  have w_va : va.wf = true := by simp only [h]
  have w_vb : vb.wf = true := by simp only [h]
  obtain ⟨hw, hm, c0, e_vd, e_va, e_vb⟩ := layout_27 (K := 0x8C000000) (m := 35) (c0 := 0) (x0 := vd) (x1 := vsrcBits va) (x2 := vsrcBits vb) rfl (by decide) (by omega) (vsrc_lt w_va) (vsrc_lt w_vb) (by decide)
  change 0x8C000000 + vd * 524288 + vsrcBits va * 1024 + vsrcBits vb * 2 < 2 ^ 32 ∧ decodeFields (0x8C000000 + vd * 524288 + vsrcBits va * 1024 + vsrcBits vb * 2) = _
  revert hw hm c0 e_vd e_va e_vb
  generalize 0x8C000000 + vd * 524288 + vsrcBits va * 1024 + vsrcBits vb * 2 = w
  intro hw hm c0 e_vd e_va e_vb
  refine ⟨hw, ?_⟩
  simp only [decodeFields, hm, major23, c0, e_vd, vsrcAt_of w_va e_va, vsrcAt_of w_vb e_vb]
theorem RoundTrip.vpermx (vd : Nat) (va : VSrc) (vb : VSrc) : RoundTrip.Statement (.vpermx vd va vb) := by
  intro _ h
  change (decide (vd < 128) && va.wf && vb.wf) = true at h
  simp only [Bool.and_eq_true, decide_eq_true_eq] at h
  have w_va : va.wf = true := by simp only [h]
  have w_vb : vb.wf = true := by simp only [h]
  obtain ⟨hw, hm, c0, e_vd, e_va, e_vb⟩ := layout_27 (K := 0x8C000001) (m := 35) (c0 := 1) (x0 := vd) (x1 := vsrcBits va) (x2 := vsrcBits vb) rfl (by decide) (by omega) (vsrc_lt w_va) (vsrc_lt w_vb) (by decide)
  change 0x8C000001 + vd * 524288 + vsrcBits va * 1024 + vsrcBits vb * 2 < 2 ^ 32 ∧ decodeFields (0x8C000001 + vd * 524288 + vsrcBits va * 1024 + vsrcBits vb * 2) = _
  revert hw hm c0 e_vd e_va e_vb
  generalize 0x8C000001 + vd * 524288 + vsrcBits va * 1024 + vsrcBits vb * 2 = w
  intro hw hm c0 e_vd e_va e_vb
  refine ⟨hw, ?_⟩
  simp only [decodeFields, hm, major23, c0, e_vd, vsrcAt_of w_va e_va, vsrcAt_of w_vb e_vb]
theorem RoundTrip.vballot (sd : Nat) (va : VSrc) : RoundTrip.Statement (.vballot sd va) := by
  intro _ h
  change (decide (sd < 64) && va.wf) = true at h
  simp only [Bool.and_eq_true, decide_eq_true_eq] at h
  have w_va : va.wf = true := by simp only [h]
  obtain ⟨hw, hm, c0, e_sd, e_va⟩ := layout_36 (K := 0x90000000) (m := 36) (c0 := 0) (x0 := sd) (x1 := vsrcBits va) rfl (by decide) (by omega) (vsrc_lt w_va) (by decide)
  change 0x90000000 + sd * 1048576 + vsrcBits va * 2048 < 2 ^ 32 ∧ decodeFields (0x90000000 + sd * 1048576 + vsrcBits va * 2048) = _
  revert hw hm c0 e_sd e_va
  generalize 0x90000000 + sd * 1048576 + vsrcBits va * 2048 = w
  intro hw hm c0 e_sd e_va
  refine ⟨hw, ?_⟩
  simp only [decodeFields, hm, major24, c0, e_sd, vsrcAt_of w_va e_va]
theorem RoundTrip.vredadd (sd : Nat) (va : VSrc) (uns : Bool) : RoundTrip.Statement (.vredadd sd va uns) := by
  intro _ h
  change (decide (sd < 64) && va.wf) = true at h
  simp only [Bool.and_eq_true, decide_eq_true_eq] at h
  have w_va : va.wf = true := by simp only [h]
  obtain ⟨hw, hm, c0, e_sd, e_va, e_uns⟩ := layout_37 (K := 0x90000001) (m := 36) (c0 := 1) (x0 := sd) (x1 := vsrcBits va) (x2 := uns.toNat) rfl (by decide) (by omega) (vsrc_lt w_va) (bit_lt uns) (by decide)
  change 0x90000001 + sd * 1048576 + vsrcBits va * 2048 + uns.toNat * 32 < 2 ^ 32 ∧ decodeFields (0x90000001 + sd * 1048576 + vsrcBits va * 2048 + uns.toNat * 32) = _
  revert hw hm c0 e_sd e_va e_uns
  generalize 0x90000001 + sd * 1048576 + vsrcBits va * 2048 + uns.toNat * 32 = w
  intro hw hm c0 e_sd e_va e_uns
  refine ⟨hw, ?_⟩
  simp only [decodeFields, hm, major24, c0, e_sd, vsrcAt_of w_va e_va, bitAt_of e_uns]
theorem RoundTrip.vredmin (sd : Nat) (va : VSrc) (uns : Bool) : RoundTrip.Statement (.vredmin sd va uns) := by
  intro _ h
  change (decide (sd < 64) && va.wf) = true at h
  simp only [Bool.and_eq_true, decide_eq_true_eq] at h
  have w_va : va.wf = true := by simp only [h]
  obtain ⟨hw, hm, c0, e_sd, e_va, e_uns⟩ := layout_37 (K := 0x90000002) (m := 36) (c0 := 2) (x0 := sd) (x1 := vsrcBits va) (x2 := uns.toNat) rfl (by decide) (by omega) (vsrc_lt w_va) (bit_lt uns) (by decide)
  change 0x90000002 + sd * 1048576 + vsrcBits va * 2048 + uns.toNat * 32 < 2 ^ 32 ∧ decodeFields (0x90000002 + sd * 1048576 + vsrcBits va * 2048 + uns.toNat * 32) = _
  revert hw hm c0 e_sd e_va e_uns
  generalize 0x90000002 + sd * 1048576 + vsrcBits va * 2048 + uns.toNat * 32 = w
  intro hw hm c0 e_sd e_va e_uns
  refine ⟨hw, ?_⟩
  simp only [decodeFields, hm, major24, c0, e_sd, vsrcAt_of w_va e_va, bitAt_of e_uns]
theorem RoundTrip.vredmax (sd : Nat) (va : VSrc) (uns : Bool) : RoundTrip.Statement (.vredmax sd va uns) := by
  intro _ h
  change (decide (sd < 64) && va.wf) = true at h
  simp only [Bool.and_eq_true, decide_eq_true_eq] at h
  have w_va : va.wf = true := by simp only [h]
  obtain ⟨hw, hm, c0, e_sd, e_va, e_uns⟩ := layout_37 (K := 0x90000003) (m := 36) (c0 := 3) (x0 := sd) (x1 := vsrcBits va) (x2 := uns.toNat) rfl (by decide) (by omega) (vsrc_lt w_va) (bit_lt uns) (by decide)
  change 0x90000003 + sd * 1048576 + vsrcBits va * 2048 + uns.toNat * 32 < 2 ^ 32 ∧ decodeFields (0x90000003 + sd * 1048576 + vsrcBits va * 2048 + uns.toNat * 32) = _
  revert hw hm c0 e_sd e_va e_uns
  generalize 0x90000003 + sd * 1048576 + vsrcBits va * 2048 + uns.toNat * 32 = w
  intro hw hm c0 e_sd e_va e_uns
  refine ⟨hw, ?_⟩
  simp only [decodeFields, hm, major24, c0, e_sd, vsrcAt_of w_va e_va, bitAt_of e_uns]
theorem RoundTrip.vfredadd (sd : Nat) (va : VSrc) : RoundTrip.Statement (.vfredadd sd va) := by
  intro _ h
  change (decide (sd < 64) && va.wf) = true at h
  simp only [Bool.and_eq_true, decide_eq_true_eq] at h
  have w_va : va.wf = true := by simp only [h]
  obtain ⟨hw, hm, c0, e_sd, e_va⟩ := layout_36 (K := 0x90000004) (m := 36) (c0 := 4) (x0 := sd) (x1 := vsrcBits va) rfl (by decide) (by omega) (vsrc_lt w_va) (by decide)
  change 0x90000004 + sd * 1048576 + vsrcBits va * 2048 < 2 ^ 32 ∧ decodeFields (0x90000004 + sd * 1048576 + vsrcBits va * 2048) = _
  revert hw hm c0 e_sd e_va
  generalize 0x90000004 + sd * 1048576 + vsrcBits va * 2048 = w
  intro hw hm c0 e_sd e_va
  refine ⟨hw, ?_⟩
  simp only [decodeFields, hm, major24, c0, e_sd, vsrcAt_of w_va e_va]
theorem RoundTrip.vfredmax (sd : Nat) (va : VSrc) : RoundTrip.Statement (.vfredmax sd va) := by
  intro _ h
  change (decide (sd < 64) && va.wf) = true at h
  simp only [Bool.and_eq_true, decide_eq_true_eq] at h
  have w_va : va.wf = true := by simp only [h]
  obtain ⟨hw, hm, c0, e_sd, e_va⟩ := layout_36 (K := 0x90000005) (m := 36) (c0 := 5) (x0 := sd) (x1 := vsrcBits va) rfl (by decide) (by omega) (vsrc_lt w_va) (by decide)
  change 0x90000005 + sd * 1048576 + vsrcBits va * 2048 < 2 ^ 32 ∧ decodeFields (0x90000005 + sd * 1048576 + vsrcBits va * 2048) = _
  revert hw hm c0 e_sd e_va
  generalize 0x90000005 + sd * 1048576 + vsrcBits va * 2048 = w
  intro hw hm c0 e_sd e_va
  refine ⟨hw, ?_⟩
  simp only [decodeFields, hm, major24, c0, e_sd, vsrcAt_of w_va e_va]
theorem RoundTrip.vfirst (sd : Nat) (va : VSrc) : RoundTrip.Statement (.vfirst sd va) := by
  intro _ h
  change (decide (sd < 64) && va.wf) = true at h
  simp only [Bool.and_eq_true, decide_eq_true_eq] at h
  have w_va : va.wf = true := by simp only [h]
  obtain ⟨hw, hm, c0, e_sd, e_va⟩ := layout_36 (K := 0x90000006) (m := 36) (c0 := 6) (x0 := sd) (x1 := vsrcBits va) rfl (by decide) (by omega) (vsrc_lt w_va) (by decide)
  change 0x90000006 + sd * 1048576 + vsrcBits va * 2048 < 2 ^ 32 ∧ decodeFields (0x90000006 + sd * 1048576 + vsrcBits va * 2048) = _
  revert hw hm c0 e_sd e_va
  generalize 0x90000006 + sd * 1048576 + vsrcBits va * 2048 = w
  intro hw hm c0 e_sd e_va
  refine ⟨hw, ?_⟩
  simp only [decodeFields, hm, major24, c0, e_sd, vsrcAt_of w_va e_va]
theorem RoundTrip.vread (sd : Nat) (va : VSrc) (k : Nat) : RoundTrip.Statement (.vread sd va k) := by
  intro _ h
  change (decide (sd < 64) && va.wf && decide (k < 32)) = true at h
  simp only [Bool.and_eq_true, decide_eq_true_eq] at h
  have w_va : va.wf = true := by simp only [h]
  obtain ⟨hw, hm, c0, e_sd, e_va, e_k⟩ := layout_38 (K := 0x90000007) (m := 36) (c0 := 7) (x0 := sd) (x1 := vsrcBits va) (x2 := k) rfl (by decide) (by omega) (vsrc_lt w_va) (by omega) (by decide)
  change 0x90000007 + sd * 1048576 + vsrcBits va * 2048 + k * 32 < 2 ^ 32 ∧ decodeFields (0x90000007 + sd * 1048576 + vsrcBits va * 2048 + k * 32) = _
  revert hw hm c0 e_sd e_va e_k
  generalize 0x90000007 + sd * 1048576 + vsrcBits va * 2048 + k * 32 = w
  intro hw hm c0 e_sd e_va e_k
  refine ⟨hw, ?_⟩
  simp only [decodeFields, hm, major24, c0, e_sd, vsrcAt_of w_va e_va, e_k]
theorem RoundTrip.vwrite (sd : Nat) (vd : Nat) (k : Nat) : RoundTrip.Statement (.vwrite sd vd k) := by
  intro _ h
  change (decide (sd < 64) && decide (vd < 128) && decide (k < 32)) = true at h
  simp only [Bool.and_eq_true, decide_eq_true_eq] at h
  obtain ⟨hw, hm, c0, e_sd, e_vd, e_k⟩ := layout_39 (K := 0x90000008) (m := 36) (c0 := 8) (x0 := sd) (x1 := vd) (x2 := k) rfl (by decide) (by omega) (by omega) (by omega) (by decide)
  change 0x90000008 + sd * 1048576 + vd * 2048 + k * 32 < 2 ^ 32 ∧ decodeFields (0x90000008 + sd * 1048576 + vd * 2048 + k * 32) = _
  revert hw hm c0 e_sd e_vd e_k
  generalize 0x90000008 + sd * 1048576 + vd * 2048 + k * 32 = w
  intro hw hm c0 e_sd e_vd e_k
  refine ⟨hw, ?_⟩
  simp only [decodeFields, hm, major24, c0, e_sd, e_vd, e_k]
theorem RoundTrip.vbcast (sd : Nat) (vd : Nat) : RoundTrip.Statement (.vbcast sd vd) := by
  intro _ h
  change (decide (sd < 64) && decide (vd < 128)) = true at h
  simp only [Bool.and_eq_true, decide_eq_true_eq] at h
  obtain ⟨hw, hm, c0, e_sd, e_vd⟩ := layout_40 (K := 0x90000009) (m := 36) (c0 := 9) (x0 := sd) (x1 := vd) rfl (by decide) (by omega) (by omega) (by decide)
  change 0x90000009 + sd * 1048576 + vd * 2048 < 2 ^ 32 ∧ decodeFields (0x90000009 + sd * 1048576 + vd * 2048) = _
  revert hw hm c0 e_sd e_vd
  generalize 0x90000009 + sd * 1048576 + vd * 2048 = w
  intro hw hm c0 e_sd e_vd
  refine ⟨hw, ?_⟩
  simp only [decodeFields, hm, major24, c0, e_sd, e_vd]
theorem RoundTrip.vscan (vd : Nat) (va : VSrc) (op : Nat) : RoundTrip.Statement (.vscan vd va op) := by
  intro _ h
  change (decide (vd < 128) && va.wf && decide (op < 8) && decide (op ≤ 5)) = true at h
  simp only [Bool.and_eq_true, decide_eq_true_eq] at h
  have w_va : va.wf = true := by simp only [h]
  obtain ⟨hw, hm, c0, e_vd, e_va, e_op⟩ := layout_41 (K := 0x94000000) (m := 37) (c0 := 0) (x0 := vd) (x1 := vsrcBits va) (x2 := op) rfl (by decide) (by omega) (vsrc_lt w_va) (by omega) (by decide)
  change 0x94000000 + vd * 524288 + vsrcBits va * 1024 + op * 32 < 2 ^ 32 ∧ decodeFields (0x94000000 + vd * 524288 + vsrcBits va * 1024 + op * 32) = _
  revert hw hm c0 e_vd e_va e_op
  generalize 0x94000000 + vd * 524288 + vsrcBits va * 1024 + op * 32 = w
  intro hw hm c0 e_vd e_va e_op
  refine ⟨hw, ?_⟩
  simp only [decodeFields, hm, major25, c0, e_vd, vsrcAt_of w_va e_va, e_op]
theorem RoundTrip.vscanx (vd : Nat) (va : VSrc) (op : Nat) : RoundTrip.Statement (.vscanx vd va op) := by
  intro _ h
  change (decide (vd < 128) && va.wf && decide (op < 8) && decide (op ≤ 5)) = true at h
  simp only [Bool.and_eq_true, decide_eq_true_eq] at h
  have w_va : va.wf = true := by simp only [h]
  obtain ⟨hw, hm, c0, e_vd, e_va, e_op⟩ := layout_41 (K := 0x94000001) (m := 37) (c0 := 1) (x0 := vd) (x1 := vsrcBits va) (x2 := op) rfl (by decide) (by omega) (vsrc_lt w_va) (by omega) (by decide)
  change 0x94000001 + vd * 524288 + vsrcBits va * 1024 + op * 32 < 2 ^ 32 ∧ decodeFields (0x94000001 + vd * 524288 + vsrcBits va * 1024 + op * 32) = _
  revert hw hm c0 e_vd e_va e_op
  generalize 0x94000001 + vd * 524288 + vsrcBits va * 1024 + op * 32 = w
  intro hw hm c0 e_vd e_va e_op
  refine ⟨hw, ?_⟩
  simp only [decodeFields, hm, major25, c0, e_vd, vsrcAt_of w_va e_va, e_op]
theorem RoundTrip.vcompact (vd : Nat) (va : VSrc) : RoundTrip.Statement (.vcompact vd va) := by
  intro _ h
  change (decide (vd < 128) && va.wf) = true at h
  simp only [Bool.and_eq_true, decide_eq_true_eq] at h
  have w_va : va.wf = true := by simp only [h]
  obtain ⟨hw, hm, c0, e_vd, e_va⟩ := layout_30 (K := 0x98000000) (m := 38) (c0 := 0) (x0 := vd) (x1 := vsrcBits va) rfl (by decide) (by omega) (vsrc_lt w_va) (by decide)
  change 0x98000000 + vd * 524288 + vsrcBits va * 1024 < 2 ^ 32 ∧ decodeFields (0x98000000 + vd * 524288 + vsrcBits va * 1024) = _
  revert hw hm c0 e_vd e_va
  generalize 0x98000000 + vd * 524288 + vsrcBits va * 1024 = w
  intro hw hm c0 e_vd e_va
  refine ⟨hw, ?_⟩
  simp only [decodeFields, hm, major26, c0, e_vd, vsrcAt_of w_va e_va]
theorem RoundTrip.vexpand (vd : Nat) (va : VSrc) : RoundTrip.Statement (.vexpand vd va) := by
  intro _ h
  change (decide (vd < 128) && va.wf) = true at h
  simp only [Bool.and_eq_true, decide_eq_true_eq] at h
  have w_va : va.wf = true := by simp only [h]
  obtain ⟨hw, hm, c0, e_vd, e_va⟩ := layout_30 (K := 0x98000001) (m := 38) (c0 := 1) (x0 := vd) (x1 := vsrcBits va) rfl (by decide) (by omega) (vsrc_lt w_va) (by decide)
  change 0x98000001 + vd * 524288 + vsrcBits va * 1024 < 2 ^ 32 ∧ decodeFields (0x98000001 + vd * 524288 + vsrcBits va * 1024) = _
  revert hw hm c0 e_vd e_va
  generalize 0x98000001 + vd * 524288 + vsrcBits va * 1024 = w
  intro hw hm c0 e_vd e_va
  refine ⟨hw, ?_⟩
  simp only [decodeFields, hm, major26, c0, e_vd, vsrcAt_of w_va e_va]
theorem RoundTrip.vprune (vd : Nat) (va : VSrc) (vb : VSrc) : RoundTrip.Statement (.vprune vd va vb) := by
  intro _ h
  change (decide (vd < 128) && va.wf && vb.wf) = true at h
  simp only [Bool.and_eq_true, decide_eq_true_eq] at h
  have w_va : va.wf = true := by simp only [h]
  have w_vb : vb.wf = true := by simp only [h]
  obtain ⟨hw, hm, c0, e_vd, e_va, e_vb⟩ := layout_27 (K := 0x9C000000) (m := 39) (c0 := 0) (x0 := vd) (x1 := vsrcBits va) (x2 := vsrcBits vb) rfl (by decide) (by omega) (vsrc_lt w_va) (vsrc_lt w_vb) (by decide)
  change 0x9C000000 + vd * 524288 + vsrcBits va * 1024 + vsrcBits vb * 2 < 2 ^ 32 ∧ decodeFields (0x9C000000 + vd * 524288 + vsrcBits va * 1024 + vsrcBits vb * 2) = _
  revert hw hm c0 e_vd e_va e_vb
  generalize 0x9C000000 + vd * 524288 + vsrcBits va * 1024 + vsrcBits vb * 2 = w
  intro hw hm c0 e_vd e_va e_vb
  refine ⟨hw, ?_⟩
  simp only [decodeFields, hm, major27, c0, e_vd, vsrcAt_of w_va e_va, vsrcAt_of w_vb e_vb]
theorem RoundTrip.vbmap (vd : Nat) (va : VSrc) (vb : VSrc) : RoundTrip.Statement (.vbmap vd va vb) := by
  intro _ h
  change (decide (vd < 128) && va.wf && vb.wf) = true at h
  simp only [Bool.and_eq_true, decide_eq_true_eq] at h
  have w_va : va.wf = true := by simp only [h]
  have w_vb : vb.wf = true := by simp only [h]
  obtain ⟨hw, hm, c0, e_vd, e_va, e_vb⟩ := layout_27 (K := 0x9C000001) (m := 39) (c0 := 1) (x0 := vd) (x1 := vsrcBits va) (x2 := vsrcBits vb) rfl (by decide) (by omega) (vsrc_lt w_va) (vsrc_lt w_vb) (by decide)
  change 0x9C000001 + vd * 524288 + vsrcBits va * 1024 + vsrcBits vb * 2 < 2 ^ 32 ∧ decodeFields (0x9C000001 + vd * 524288 + vsrcBits va * 1024 + vsrcBits vb * 2) = _
  revert hw hm c0 e_vd e_va e_vb
  generalize 0x9C000001 + vd * 524288 + vsrcBits va * 1024 + vsrcBits vb * 2 = w
  intro hw hm c0 e_vd e_va e_vb
  refine ⟨hw, ?_⟩
  simp only [decodeFields, hm, major27, c0, e_vd, vsrcAt_of w_va e_va, vsrcAt_of w_vb e_vb]
theorem RoundTrip.vfadd (vd : Nat) (va : VSrc) (vb : VSrc) : RoundTrip.Statement (.vfadd vd va vb) := by
  intro _ h
  change (decide (vd < 128) && va.wf && vb.wf) = true at h
  simp only [Bool.and_eq_true, decide_eq_true_eq] at h
  have w_va : va.wf = true := by simp only [h]
  have w_vb : vb.wf = true := by simp only [h]
  obtain ⟨hw, hm, c0, e_vd, e_va, e_vb⟩ := layout_27 (K := 0xA0000000) (m := 40) (c0 := 0) (x0 := vd) (x1 := vsrcBits va) (x2 := vsrcBits vb) rfl (by decide) (by omega) (vsrc_lt w_va) (vsrc_lt w_vb) (by decide)
  change 0xA0000000 + vd * 524288 + vsrcBits va * 1024 + vsrcBits vb * 2 < 2 ^ 32 ∧ decodeFields (0xA0000000 + vd * 524288 + vsrcBits va * 1024 + vsrcBits vb * 2) = _
  revert hw hm c0 e_vd e_va e_vb
  generalize 0xA0000000 + vd * 524288 + vsrcBits va * 1024 + vsrcBits vb * 2 = w
  intro hw hm c0 e_vd e_va e_vb
  refine ⟨hw, ?_⟩
  simp only [decodeFields, hm, major28, c0, e_vd, vsrcAt_of w_va e_va, vsrcAt_of w_vb e_vb]
theorem RoundTrip.vfsub (vd : Nat) (va : VSrc) (vb : VSrc) : RoundTrip.Statement (.vfsub vd va vb) := by
  intro _ h
  change (decide (vd < 128) && va.wf && vb.wf) = true at h
  simp only [Bool.and_eq_true, decide_eq_true_eq] at h
  have w_va : va.wf = true := by simp only [h]
  have w_vb : vb.wf = true := by simp only [h]
  obtain ⟨hw, hm, c0, e_vd, e_va, e_vb⟩ := layout_27 (K := 0xA0000001) (m := 40) (c0 := 1) (x0 := vd) (x1 := vsrcBits va) (x2 := vsrcBits vb) rfl (by decide) (by omega) (vsrc_lt w_va) (vsrc_lt w_vb) (by decide)
  change 0xA0000001 + vd * 524288 + vsrcBits va * 1024 + vsrcBits vb * 2 < 2 ^ 32 ∧ decodeFields (0xA0000001 + vd * 524288 + vsrcBits va * 1024 + vsrcBits vb * 2) = _
  revert hw hm c0 e_vd e_va e_vb
  generalize 0xA0000001 + vd * 524288 + vsrcBits va * 1024 + vsrcBits vb * 2 = w
  intro hw hm c0 e_vd e_va e_vb
  refine ⟨hw, ?_⟩
  simp only [decodeFields, hm, major28, c0, e_vd, vsrcAt_of w_va e_va, vsrcAt_of w_vb e_vb]
theorem RoundTrip.vfmul (vd : Nat) (va : VSrc) (vb : VSrc) : RoundTrip.Statement (.vfmul vd va vb) := by
  intro _ h
  change (decide (vd < 128) && va.wf && vb.wf) = true at h
  simp only [Bool.and_eq_true, decide_eq_true_eq] at h
  have w_va : va.wf = true := by simp only [h]
  have w_vb : vb.wf = true := by simp only [h]
  obtain ⟨hw, hm, c0, e_vd, e_va, e_vb⟩ := layout_27 (K := 0xA4000000) (m := 41) (c0 := 0) (x0 := vd) (x1 := vsrcBits va) (x2 := vsrcBits vb) rfl (by decide) (by omega) (vsrc_lt w_va) (vsrc_lt w_vb) (by decide)
  change 0xA4000000 + vd * 524288 + vsrcBits va * 1024 + vsrcBits vb * 2 < 2 ^ 32 ∧ decodeFields (0xA4000000 + vd * 524288 + vsrcBits va * 1024 + vsrcBits vb * 2) = _
  revert hw hm c0 e_vd e_va e_vb
  generalize 0xA4000000 + vd * 524288 + vsrcBits va * 1024 + vsrcBits vb * 2 = w
  intro hw hm c0 e_vd e_va e_vb
  refine ⟨hw, ?_⟩
  simp only [decodeFields, hm, major29, c0, e_vd, vsrcAt_of w_va e_va, vsrcAt_of w_vb e_vb]
theorem RoundTrip.vfma (vd : Nat) (va : VSrc) (vb : VSrc) : RoundTrip.Statement (.vfma vd va vb) := by
  intro _ h
  change (decide (vd < 128) && va.wf && vb.wf) = true at h
  simp only [Bool.and_eq_true, decide_eq_true_eq] at h
  have w_va : va.wf = true := by simp only [h]
  have w_vb : vb.wf = true := by simp only [h]
  obtain ⟨hw, hm, c0, e_vd, e_va, e_vb⟩ := layout_27 (K := 0xA4000001) (m := 41) (c0 := 1) (x0 := vd) (x1 := vsrcBits va) (x2 := vsrcBits vb) rfl (by decide) (by omega) (vsrc_lt w_va) (vsrc_lt w_vb) (by decide)
  change 0xA4000001 + vd * 524288 + vsrcBits va * 1024 + vsrcBits vb * 2 < 2 ^ 32 ∧ decodeFields (0xA4000001 + vd * 524288 + vsrcBits va * 1024 + vsrcBits vb * 2) = _
  revert hw hm c0 e_vd e_va e_vb
  generalize 0xA4000001 + vd * 524288 + vsrcBits va * 1024 + vsrcBits vb * 2 = w
  intro hw hm c0 e_vd e_va e_vb
  refine ⟨hw, ?_⟩
  simp only [decodeFields, hm, major29, c0, e_vd, vsrcAt_of w_va e_va, vsrcAt_of w_vb e_vb]
theorem RoundTrip.vfmin (vd : Nat) (va : VSrc) (vb : VSrc) : RoundTrip.Statement (.vfmin vd va vb) := by
  intro _ h
  change (decide (vd < 128) && va.wf && vb.wf) = true at h
  simp only [Bool.and_eq_true, decide_eq_true_eq] at h
  have w_va : va.wf = true := by simp only [h]
  have w_vb : vb.wf = true := by simp only [h]
  obtain ⟨hw, hm, c0, e_vd, e_va, e_vb⟩ := layout_27 (K := 0xA8000000) (m := 42) (c0 := 0) (x0 := vd) (x1 := vsrcBits va) (x2 := vsrcBits vb) rfl (by decide) (by omega) (vsrc_lt w_va) (vsrc_lt w_vb) (by decide)
  change 0xA8000000 + vd * 524288 + vsrcBits va * 1024 + vsrcBits vb * 2 < 2 ^ 32 ∧ decodeFields (0xA8000000 + vd * 524288 + vsrcBits va * 1024 + vsrcBits vb * 2) = _
  revert hw hm c0 e_vd e_va e_vb
  generalize 0xA8000000 + vd * 524288 + vsrcBits va * 1024 + vsrcBits vb * 2 = w
  intro hw hm c0 e_vd e_va e_vb
  refine ⟨hw, ?_⟩
  simp only [decodeFields, hm, major2A, c0, e_vd, vsrcAt_of w_va e_va, vsrcAt_of w_vb e_vb]
theorem RoundTrip.vfmax (vd : Nat) (va : VSrc) (vb : VSrc) : RoundTrip.Statement (.vfmax vd va vb) := by
  intro _ h
  change (decide (vd < 128) && va.wf && vb.wf) = true at h
  simp only [Bool.and_eq_true, decide_eq_true_eq] at h
  have w_va : va.wf = true := by simp only [h]
  have w_vb : vb.wf = true := by simp only [h]
  obtain ⟨hw, hm, c0, e_vd, e_va, e_vb⟩ := layout_27 (K := 0xA8000001) (m := 42) (c0 := 1) (x0 := vd) (x1 := vsrcBits va) (x2 := vsrcBits vb) rfl (by decide) (by omega) (vsrc_lt w_va) (vsrc_lt w_vb) (by decide)
  change 0xA8000001 + vd * 524288 + vsrcBits va * 1024 + vsrcBits vb * 2 < 2 ^ 32 ∧ decodeFields (0xA8000001 + vd * 524288 + vsrcBits va * 1024 + vsrcBits vb * 2) = _
  revert hw hm c0 e_vd e_va e_vb
  generalize 0xA8000001 + vd * 524288 + vsrcBits va * 1024 + vsrcBits vb * 2 = w
  intro hw hm c0 e_vd e_va e_vb
  refine ⟨hw, ?_⟩
  simp only [decodeFields, hm, major2A, c0, e_vd, vsrcAt_of w_va e_va, vsrcAt_of w_vb e_vb]
theorem RoundTrip.vfdiv (vd : Nat) (va : VSrc) (vb : VSrc) : RoundTrip.Statement (.vfdiv vd va vb) := by
  intro _ h
  change (decide (vd < 128) && va.wf && vb.wf) = true at h
  simp only [Bool.and_eq_true, decide_eq_true_eq] at h
  have w_va : va.wf = true := by simp only [h]
  have w_vb : vb.wf = true := by simp only [h]
  obtain ⟨hw, hm, c0, e_vd, e_va, e_vb⟩ := layout_27 (K := 0xAC000000) (m := 43) (c0 := 0) (x0 := vd) (x1 := vsrcBits va) (x2 := vsrcBits vb) rfl (by decide) (by omega) (vsrc_lt w_va) (vsrc_lt w_vb) (by decide)
  change 0xAC000000 + vd * 524288 + vsrcBits va * 1024 + vsrcBits vb * 2 < 2 ^ 32 ∧ decodeFields (0xAC000000 + vd * 524288 + vsrcBits va * 1024 + vsrcBits vb * 2) = _
  revert hw hm c0 e_vd e_va e_vb
  generalize 0xAC000000 + vd * 524288 + vsrcBits va * 1024 + vsrcBits vb * 2 = w
  intro hw hm c0 e_vd e_va e_vb
  refine ⟨hw, ?_⟩
  simp only [decodeFields, hm, major2B, c0, e_vd, vsrcAt_of w_va e_va, vsrcAt_of w_vb e_vb]
theorem RoundTrip.vfms (vd : Nat) (va : VSrc) (vb : VSrc) : RoundTrip.Statement (.vfms vd va vb) := by
  intro _ h
  change (decide (vd < 128) && va.wf && vb.wf) = true at h
  simp only [Bool.and_eq_true, decide_eq_true_eq] at h
  have w_va : va.wf = true := by simp only [h]
  have w_vb : vb.wf = true := by simp only [h]
  obtain ⟨hw, hm, c0, e_vd, e_va, e_vb⟩ := layout_27 (K := 0xAC000001) (m := 43) (c0 := 1) (x0 := vd) (x1 := vsrcBits va) (x2 := vsrcBits vb) rfl (by decide) (by omega) (vsrc_lt w_va) (vsrc_lt w_vb) (by decide)
  change 0xAC000001 + vd * 524288 + vsrcBits va * 1024 + vsrcBits vb * 2 < 2 ^ 32 ∧ decodeFields (0xAC000001 + vd * 524288 + vsrcBits va * 1024 + vsrcBits vb * 2) = _
  revert hw hm c0 e_vd e_va e_vb
  generalize 0xAC000001 + vd * 524288 + vsrcBits va * 1024 + vsrcBits vb * 2 = w
  intro hw hm c0 e_vd e_va e_vb
  refine ⟨hw, ?_⟩
  simp only [decodeFields, hm, major2B, c0, e_vd, vsrcAt_of w_va e_va, vsrcAt_of w_vb e_vb]
theorem RoundTrip.vbdot2 (vd : Nat) (va : VSrc) (vb : VSrc) : RoundTrip.Statement (.vbdot2 vd va vb) := by
  intro _ h
  change (decide (vd < 128) && va.wf && vb.wf) = true at h
  simp only [Bool.and_eq_true, decide_eq_true_eq] at h
  have w_va : va.wf = true := by simp only [h]
  have w_vb : vb.wf = true := by simp only [h]
  obtain ⟨hw, hm, c0, e_vd, e_va, e_vb⟩ := layout_27 (K := 0xB0000000) (m := 44) (c0 := 0) (x0 := vd) (x1 := vsrcBits va) (x2 := vsrcBits vb) rfl (by decide) (by omega) (vsrc_lt w_va) (vsrc_lt w_vb) (by decide)
  change 0xB0000000 + vd * 524288 + vsrcBits va * 1024 + vsrcBits vb * 2 < 2 ^ 32 ∧ decodeFields (0xB0000000 + vd * 524288 + vsrcBits va * 1024 + vsrcBits vb * 2) = _
  revert hw hm c0 e_vd e_va e_vb
  generalize 0xB0000000 + vd * 524288 + vsrcBits va * 1024 + vsrcBits vb * 2 = w
  intro hw hm c0 e_vd e_va e_vb
  refine ⟨hw, ?_⟩
  simp only [decodeFields, hm, major2C, c0, e_vd, vsrcAt_of w_va e_va, vsrcAt_of w_vb e_vb]
theorem RoundTrip.vhdot2 (vd : Nat) (va : VSrc) (vb : VSrc) : RoundTrip.Statement (.vhdot2 vd va vb) := by
  intro _ h
  change (decide (vd < 128) && va.wf && vb.wf) = true at h
  simp only [Bool.and_eq_true, decide_eq_true_eq] at h
  have w_va : va.wf = true := by simp only [h]
  have w_vb : vb.wf = true := by simp only [h]
  obtain ⟨hw, hm, c0, e_vd, e_va, e_vb⟩ := layout_27 (K := 0xB0000001) (m := 44) (c0 := 1) (x0 := vd) (x1 := vsrcBits va) (x2 := vsrcBits vb) rfl (by decide) (by omega) (vsrc_lt w_va) (vsrc_lt w_vb) (by decide)
  change 0xB0000001 + vd * 524288 + vsrcBits va * 1024 + vsrcBits vb * 2 < 2 ^ 32 ∧ decodeFields (0xB0000001 + vd * 524288 + vsrcBits va * 1024 + vsrcBits vb * 2) = _
  revert hw hm c0 e_vd e_va e_vb
  generalize 0xB0000001 + vd * 524288 + vsrcBits va * 1024 + vsrcBits vb * 2 = w
  intro hw hm c0 e_vd e_va e_vb
  refine ⟨hw, ?_⟩
  simp only [decodeFields, hm, major2C, c0, e_vd, vsrcAt_of w_va e_va, vsrcAt_of w_vb e_vb]
theorem RoundTrip.vfabs (vd : Nat) (va : VSrc) : RoundTrip.Statement (.vfabs vd va) := by
  intro _ h
  change (decide (vd < 128) && va.wf) = true at h
  simp only [Bool.and_eq_true, decide_eq_true_eq] at h
  have w_va : va.wf = true := by simp only [h]
  obtain ⟨hw, hm, c0, e_vd, e_va⟩ := layout_30 (K := 0xB4000000) (m := 45) (c0 := 0) (x0 := vd) (x1 := vsrcBits va) rfl (by decide) (by omega) (vsrc_lt w_va) (by decide)
  change 0xB4000000 + vd * 524288 + vsrcBits va * 1024 < 2 ^ 32 ∧ decodeFields (0xB4000000 + vd * 524288 + vsrcBits va * 1024) = _
  revert hw hm c0 e_vd e_va
  generalize 0xB4000000 + vd * 524288 + vsrcBits va * 1024 = w
  intro hw hm c0 e_vd e_va
  refine ⟨hw, ?_⟩
  simp only [decodeFields, hm, major2D, c0, e_vd, vsrcAt_of w_va e_va]
theorem RoundTrip.vfneg (vd : Nat) (va : VSrc) : RoundTrip.Statement (.vfneg vd va) := by
  intro _ h
  change (decide (vd < 128) && va.wf) = true at h
  simp only [Bool.and_eq_true, decide_eq_true_eq] at h
  have w_va : va.wf = true := by simp only [h]
  obtain ⟨hw, hm, c0, e_vd, e_va⟩ := layout_30 (K := 0xB4000001) (m := 45) (c0 := 1) (x0 := vd) (x1 := vsrcBits va) rfl (by decide) (by omega) (vsrc_lt w_va) (by decide)
  change 0xB4000001 + vd * 524288 + vsrcBits va * 1024 < 2 ^ 32 ∧ decodeFields (0xB4000001 + vd * 524288 + vsrcBits va * 1024) = _
  revert hw hm c0 e_vd e_va
  generalize 0xB4000001 + vd * 524288 + vsrcBits va * 1024 = w
  intro hw hm c0 e_vd e_va
  refine ⟨hw, ?_⟩
  simp only [decodeFields, hm, major2D, c0, e_vd, vsrcAt_of w_va e_va]
theorem RoundTrip.vfrcp (vd : Nat) (va : VSrc) : RoundTrip.Statement (.vfrcp vd va) := by
  intro _ h
  change (decide (vd < 128) && va.wf) = true at h
  simp only [Bool.and_eq_true, decide_eq_true_eq] at h
  have w_va : va.wf = true := by simp only [h]
  obtain ⟨hw, hm, c0, e_vd, e_va⟩ := layout_30 (K := 0xB4000002) (m := 45) (c0 := 2) (x0 := vd) (x1 := vsrcBits va) rfl (by decide) (by omega) (vsrc_lt w_va) (by decide)
  change 0xB4000002 + vd * 524288 + vsrcBits va * 1024 < 2 ^ 32 ∧ decodeFields (0xB4000002 + vd * 524288 + vsrcBits va * 1024) = _
  revert hw hm c0 e_vd e_va
  generalize 0xB4000002 + vd * 524288 + vsrcBits va * 1024 = w
  intro hw hm c0 e_vd e_va
  refine ⟨hw, ?_⟩
  simp only [decodeFields, hm, major2D, c0, e_vd, vsrcAt_of w_va e_va]
theorem RoundTrip.vfrsq (vd : Nat) (va : VSrc) : RoundTrip.Statement (.vfrsq vd va) := by
  intro _ h
  change (decide (vd < 128) && va.wf) = true at h
  simp only [Bool.and_eq_true, decide_eq_true_eq] at h
  have w_va : va.wf = true := by simp only [h]
  obtain ⟨hw, hm, c0, e_vd, e_va⟩ := layout_30 (K := 0xB4000003) (m := 45) (c0 := 3) (x0 := vd) (x1 := vsrcBits va) rfl (by decide) (by omega) (vsrc_lt w_va) (by decide)
  change 0xB4000003 + vd * 524288 + vsrcBits va * 1024 < 2 ^ 32 ∧ decodeFields (0xB4000003 + vd * 524288 + vsrcBits va * 1024) = _
  revert hw hm c0 e_vd e_va
  generalize 0xB4000003 + vd * 524288 + vsrcBits va * 1024 = w
  intro hw hm c0 e_vd e_va
  refine ⟨hw, ?_⟩
  simp only [decodeFields, hm, major2D, c0, e_vd, vsrcAt_of w_va e_va]
theorem RoundTrip.vfsqrt (vd : Nat) (va : VSrc) : RoundTrip.Statement (.vfsqrt vd va) := by
  intro _ h
  change (decide (vd < 128) && va.wf) = true at h
  simp only [Bool.and_eq_true, decide_eq_true_eq] at h
  have w_va : va.wf = true := by simp only [h]
  obtain ⟨hw, hm, c0, e_vd, e_va⟩ := layout_30 (K := 0xB4000004) (m := 45) (c0 := 4) (x0 := vd) (x1 := vsrcBits va) rfl (by decide) (by omega) (vsrc_lt w_va) (by decide)
  change 0xB4000004 + vd * 524288 + vsrcBits va * 1024 < 2 ^ 32 ∧ decodeFields (0xB4000004 + vd * 524288 + vsrcBits va * 1024) = _
  revert hw hm c0 e_vd e_va
  generalize 0xB4000004 + vd * 524288 + vsrcBits va * 1024 = w
  intro hw hm c0 e_vd e_va
  refine ⟨hw, ?_⟩
  simp only [decodeFields, hm, major2D, c0, e_vd, vsrcAt_of w_va e_va]
theorem RoundTrip.vfexp2 (vd : Nat) (va : VSrc) : RoundTrip.Statement (.vfexp2 vd va) := by
  intro _ h
  change (decide (vd < 128) && va.wf) = true at h
  simp only [Bool.and_eq_true, decide_eq_true_eq] at h
  have w_va : va.wf = true := by simp only [h]
  obtain ⟨hw, hm, c0, e_vd, e_va⟩ := layout_30 (K := 0xB4000005) (m := 45) (c0 := 5) (x0 := vd) (x1 := vsrcBits va) rfl (by decide) (by omega) (vsrc_lt w_va) (by decide)
  change 0xB4000005 + vd * 524288 + vsrcBits va * 1024 < 2 ^ 32 ∧ decodeFields (0xB4000005 + vd * 524288 + vsrcBits va * 1024) = _
  revert hw hm c0 e_vd e_va
  generalize 0xB4000005 + vd * 524288 + vsrcBits va * 1024 = w
  intro hw hm c0 e_vd e_va
  refine ⟨hw, ?_⟩
  simp only [decodeFields, hm, major2D, c0, e_vd, vsrcAt_of w_va e_va]
theorem RoundTrip.vflog2 (vd : Nat) (va : VSrc) : RoundTrip.Statement (.vflog2 vd va) := by
  intro _ h
  change (decide (vd < 128) && va.wf) = true at h
  simp only [Bool.and_eq_true, decide_eq_true_eq] at h
  have w_va : va.wf = true := by simp only [h]
  obtain ⟨hw, hm, c0, e_vd, e_va⟩ := layout_30 (K := 0xB4000006) (m := 45) (c0 := 6) (x0 := vd) (x1 := vsrcBits va) rfl (by decide) (by omega) (vsrc_lt w_va) (by decide)
  change 0xB4000006 + vd * 524288 + vsrcBits va * 1024 < 2 ^ 32 ∧ decodeFields (0xB4000006 + vd * 524288 + vsrcBits va * 1024) = _
  revert hw hm c0 e_vd e_va
  generalize 0xB4000006 + vd * 524288 + vsrcBits va * 1024 = w
  intro hw hm c0 e_vd e_va
  refine ⟨hw, ?_⟩
  simp only [decodeFields, hm, major2D, c0, e_vd, vsrcAt_of w_va e_va]
theorem RoundTrip.vfsin (vd : Nat) (va : VSrc) : RoundTrip.Statement (.vfsin vd va) := by
  intro _ h
  change (decide (vd < 128) && va.wf) = true at h
  simp only [Bool.and_eq_true, decide_eq_true_eq] at h
  have w_va : va.wf = true := by simp only [h]
  obtain ⟨hw, hm, c0, e_vd, e_va⟩ := layout_30 (K := 0xB4000007) (m := 45) (c0 := 7) (x0 := vd) (x1 := vsrcBits va) rfl (by decide) (by omega) (vsrc_lt w_va) (by decide)
  change 0xB4000007 + vd * 524288 + vsrcBits va * 1024 < 2 ^ 32 ∧ decodeFields (0xB4000007 + vd * 524288 + vsrcBits va * 1024) = _
  revert hw hm c0 e_vd e_va
  generalize 0xB4000007 + vd * 524288 + vsrcBits va * 1024 = w
  intro hw hm c0 e_vd e_va
  refine ⟨hw, ?_⟩
  simp only [decodeFields, hm, major2D, c0, e_vd, vsrcAt_of w_va e_va]
theorem RoundTrip.vfcos (vd : Nat) (va : VSrc) : RoundTrip.Statement (.vfcos vd va) := by
  intro _ h
  change (decide (vd < 128) && va.wf) = true at h
  simp only [Bool.and_eq_true, decide_eq_true_eq] at h
  have w_va : va.wf = true := by simp only [h]
  obtain ⟨hw, hm, c0, e_vd, e_va⟩ := layout_30 (K := 0xB4000008) (m := 45) (c0 := 8) (x0 := vd) (x1 := vsrcBits va) rfl (by decide) (by omega) (vsrc_lt w_va) (by decide)
  change 0xB4000008 + vd * 524288 + vsrcBits va * 1024 < 2 ^ 32 ∧ decodeFields (0xB4000008 + vd * 524288 + vsrcBits va * 1024) = _
  revert hw hm c0 e_vd e_va
  generalize 0xB4000008 + vd * 524288 + vsrcBits va * 1024 = w
  intro hw hm c0 e_vd e_va
  refine ⟨hw, ?_⟩
  simp only [decodeFields, hm, major2D, c0, e_vd, vsrcAt_of w_va e_va]
theorem RoundTrip.vfclass (vd : Nat) (va : VSrc) : RoundTrip.Statement (.vfclass vd va) := by
  intro _ h
  change (decide (vd < 128) && va.wf) = true at h
  simp only [Bool.and_eq_true, decide_eq_true_eq] at h
  have w_va : va.wf = true := by simp only [h]
  obtain ⟨hw, hm, c0, e_vd, e_va⟩ := layout_30 (K := 0xB4000009) (m := 45) (c0 := 9) (x0 := vd) (x1 := vsrcBits va) rfl (by decide) (by omega) (vsrc_lt w_va) (by decide)
  change 0xB4000009 + vd * 524288 + vsrcBits va * 1024 < 2 ^ 32 ∧ decodeFields (0xB4000009 + vd * 524288 + vsrcBits va * 1024) = _
  revert hw hm c0 e_vd e_va
  generalize 0xB4000009 + vd * 524288 + vsrcBits va * 1024 = w
  intro hw hm c0 e_vd e_va
  refine ⟨hw, ?_⟩
  simp only [decodeFields, hm, major2D, c0, e_vd, vsrcAt_of w_va e_va]
theorem RoundTrip.vfrint (vd : Nat) (va : VSrc) : RoundTrip.Statement (.vfrint vd va) := by
  intro _ h
  change (decide (vd < 128) && va.wf) = true at h
  simp only [Bool.and_eq_true, decide_eq_true_eq] at h
  have w_va : va.wf = true := by simp only [h]
  obtain ⟨hw, hm, c0, e_vd, e_va⟩ := layout_30 (K := 0xB400000A) (m := 45) (c0 := 10) (x0 := vd) (x1 := vsrcBits va) rfl (by decide) (by omega) (vsrc_lt w_va) (by decide)
  change 0xB400000A + vd * 524288 + vsrcBits va * 1024 < 2 ^ 32 ∧ decodeFields (0xB400000A + vd * 524288 + vsrcBits va * 1024) = _
  revert hw hm c0 e_vd e_va
  generalize 0xB400000A + vd * 524288 + vsrcBits va * 1024 = w
  intro hw hm c0 e_vd e_va
  refine ⟨hw, ?_⟩
  simp only [decodeFields, hm, major2D, c0, e_vd, vsrcAt_of w_va e_va]
theorem RoundTrip.vcvt (vd : Nat) (va : VSrc) (dir : Bool) (x : Nat) : RoundTrip.Statement (.vcvt vd va dir x) := by
  intro _ h
  change (decide (vd < 128) && va.wf && decide (x < 16)) = true at h
  simp only [Bool.and_eq_true, decide_eq_true_eq] at h
  have w_va : va.wf = true := by simp only [h]
  obtain ⟨hw, hm, c0, e_vd, e_va, e_dir, e_x⟩ := layout_42 (K := 0xB8000000) (m := 46) (c0 := 0) (x0 := vd) (x1 := vsrcBits va) (x2 := dir.toNat) (x3 := x) rfl (by decide) (by omega) (vsrc_lt w_va) (bit_lt dir) (by omega) (by decide)
  change 0xB8000000 + vd * 524288 + vsrcBits va * 1024 + dir.toNat * 512 + x * 32 < 2 ^ 32 ∧ decodeFields (0xB8000000 + vd * 524288 + vsrcBits va * 1024 + dir.toNat * 512 + x * 32) = _
  revert hw hm c0 e_vd e_va e_dir e_x
  generalize 0xB8000000 + vd * 524288 + vsrcBits va * 1024 + dir.toNat * 512 + x * 32 = w
  intro hw hm c0 e_vd e_va e_dir e_x
  refine ⟨hw, ?_⟩
  simp only [decodeFields, hm, major2E, c0, e_vd, vsrcAt_of w_va e_va, bitAt_of e_dir, e_x]
theorem RoundTrip.vpack (vd : Nat) (va : VSrc) (vb : VSrc) : RoundTrip.Statement (.vpack vd va vb) := by
  intro _ h
  change (decide (vd < 128) && va.wf && vb.wf) = true at h
  simp only [Bool.and_eq_true, decide_eq_true_eq] at h
  have w_va : va.wf = true := by simp only [h]
  have w_vb : vb.wf = true := by simp only [h]
  obtain ⟨hw, hm, c0, e_vd, e_va, e_vb⟩ := layout_27 (K := 0xBC000000) (m := 47) (c0 := 0) (x0 := vd) (x1 := vsrcBits va) (x2 := vsrcBits vb) rfl (by decide) (by omega) (vsrc_lt w_va) (vsrc_lt w_vb) (by decide)
  change 0xBC000000 + vd * 524288 + vsrcBits va * 1024 + vsrcBits vb * 2 < 2 ^ 32 ∧ decodeFields (0xBC000000 + vd * 524288 + vsrcBits va * 1024 + vsrcBits vb * 2) = _
  revert hw hm c0 e_vd e_va e_vb
  generalize 0xBC000000 + vd * 524288 + vsrcBits va * 1024 + vsrcBits vb * 2 = w
  intro hw hm c0 e_vd e_va e_vb
  refine ⟨hw, ?_⟩
  simp only [decodeFields, hm, major2F, c0, e_vd, vsrcAt_of w_va e_va, vsrcAt_of w_vb e_vb]
theorem RoundTrip.vunpk (vd : Nat) (va : VSrc) (vb : VSrc) : RoundTrip.Statement (.vunpk vd va vb) := by
  intro _ h
  change (decide (vd < 128) && va.wf && vb.wf) = true at h
  simp only [Bool.and_eq_true, decide_eq_true_eq] at h
  have w_va : va.wf = true := by simp only [h]
  have w_vb : vb.wf = true := by simp only [h]
  obtain ⟨hw, hm, c0, e_vd, e_va, e_vb⟩ := layout_27 (K := 0xBC000001) (m := 47) (c0 := 1) (x0 := vd) (x1 := vsrcBits va) (x2 := vsrcBits vb) rfl (by decide) (by omega) (vsrc_lt w_va) (vsrc_lt w_vb) (by decide)
  change 0xBC000001 + vd * 524288 + vsrcBits va * 1024 + vsrcBits vb * 2 < 2 ^ 32 ∧ decodeFields (0xBC000001 + vd * 524288 + vsrcBits va * 1024 + vsrcBits vb * 2) = _
  revert hw hm c0 e_vd e_va e_vb
  generalize 0xBC000001 + vd * 524288 + vsrcBits va * 1024 + vsrcBits vb * 2 = w
  intro hw hm c0 e_vd e_va e_vb
  refine ⟨hw, ?_⟩
  simp only [decodeFields, hm, major2F, c0, e_vd, vsrcAt_of w_va e_va, vsrcAt_of w_vb e_vb]
theorem RoundTrip.vqblk (vd : Nat) (va : VSrc) : RoundTrip.Statement (.vqblk vd va) := by
  intro _ h
  change (decide (vd < 128) && va.wf) = true at h
  simp only [Bool.and_eq_true, decide_eq_true_eq] at h
  have w_va : va.wf = true := by simp only [h]
  obtain ⟨hw, hm, c0, e_vd, e_va⟩ := layout_43 (K := 0xC0000000) (m := 48) (c0 := 0) (x0 := vd) (x1 := vsrcBits va) rfl (by decide) (by omega) (vsrc_lt w_va) (by decide)
  change 0xC0000000 + vd * 524288 + vsrcBits va * 1024 < 2 ^ 32 ∧ decodeFields (0xC0000000 + vd * 524288 + vsrcBits va * 1024) = _
  revert hw hm c0 e_vd e_va
  generalize 0xC0000000 + vd * 524288 + vsrcBits va * 1024 = w
  intro hw hm c0 e_vd e_va
  refine ⟨hw, ?_⟩
  simp only [decodeFields, hm, major30, c0, e_vd, vsrcAt_of w_va e_va]
theorem RoundTrip.vdqblk (vd : Nat) (va : VSrc) : RoundTrip.Statement (.vdqblk vd va) := by
  intro _ h
  change (decide (vd < 128) && va.wf) = true at h
  simp only [Bool.and_eq_true, decide_eq_true_eq] at h
  have w_va : va.wf = true := by simp only [h]
  obtain ⟨hw, hm, c0, e_vd, e_va⟩ := layout_43 (K := 0xC0000001) (m := 48) (c0 := 1) (x0 := vd) (x1 := vsrcBits va) rfl (by decide) (by omega) (vsrc_lt w_va) (by decide)
  change 0xC0000001 + vd * 524288 + vsrcBits va * 1024 < 2 ^ 32 ∧ decodeFields (0xC0000001 + vd * 524288 + vsrcBits va * 1024) = _
  revert hw hm c0 e_vd e_va
  generalize 0xC0000001 + vd * 524288 + vsrcBits va * 1024 = w
  intro hw hm c0 e_vd e_va
  refine ⟨hw, ?_⟩
  simp only [decodeFields, hm, major30, c0, e_vd, vsrcAt_of w_va e_va]
theorem RoundTrip.vld (vdata : Nat) (vaddr : Nat) (sbase : Nat) (size : Nat) (mode : Nat) : RoundTrip.Statement (.vld vdata vaddr sbase size mode) := by
  intro _ h
  change (decide (vdata < 128) && decide (vaddr < 128) && decide (sbase < 64) && decide (size < 8) && decide (mode < 8) && mvMode vdata vaddr size mode false false) = true at h
  simp only [Bool.and_eq_true, decide_eq_true_eq] at h
  obtain ⟨hw, hm, e_vdata, e_vaddr, e_sbase, e_size, e_mode⟩ := layout_44 (K := 0xC4000000) (m := 49) (x0 := vdata) (x1 := vaddr) (x2 := sbase) (x3 := size) (x4 := mode) rfl (by decide) (by omega) (by omega) (by omega) (by omega) (by omega)
  change 0xC4000000 + vdata * 524288 + vaddr * 4096 + sbase * 64 + size * 8 + mode < 2 ^ 32 ∧ decodeFields (0xC4000000 + vdata * 524288 + vaddr * 4096 + sbase * 64 + size * 8 + mode) = _
  revert hw hm e_vdata e_vaddr e_sbase e_size e_mode
  generalize 0xC4000000 + vdata * 524288 + vaddr * 4096 + sbase * 64 + size * 8 + mode = w
  intro hw hm e_vdata e_vaddr e_sbase e_size e_mode
  refine ⟨hw, ?_⟩
  simp only [decodeFields, hm, major31, e_vdata, e_vaddr, e_sbase, e_size, e_mode]
theorem RoundTrip.vst (vdata : Nat) (vaddr : Nat) (sbase : Nat) (size : Nat) (mode : Nat) : RoundTrip.Statement (.vst vdata vaddr sbase size mode) := by
  intro _ h
  change (decide (vdata < 128) && decide (vaddr < 128) && decide (sbase < 64) && decide (size < 8) && decide (mode < 8) && mvMode vdata vaddr size mode false false) = true at h
  simp only [Bool.and_eq_true, decide_eq_true_eq] at h
  obtain ⟨hw, hm, e_vdata, e_vaddr, e_sbase, e_size, e_mode⟩ := layout_44 (K := 0xC8000000) (m := 50) (x0 := vdata) (x1 := vaddr) (x2 := sbase) (x3 := size) (x4 := mode) rfl (by decide) (by omega) (by omega) (by omega) (by omega) (by omega)
  change 0xC8000000 + vdata * 524288 + vaddr * 4096 + sbase * 64 + size * 8 + mode < 2 ^ 32 ∧ decodeFields (0xC8000000 + vdata * 524288 + vaddr * 4096 + sbase * 64 + size * 8 + mode) = _
  revert hw hm e_vdata e_vaddr e_sbase e_size e_mode
  generalize 0xC8000000 + vdata * 524288 + vaddr * 4096 + sbase * 64 + size * 8 + mode = w
  intro hw hm e_vdata e_vaddr e_sbase e_size e_mode
  refine ⟨hw, ?_⟩
  simp only [decodeFields, hm, major32, e_vdata, e_vaddr, e_sbase, e_size, e_mode]
theorem RoundTrip.vlds (vdata : Nat) (vaddr : Nat) (sbase : Nat) (size : Nat) (mode : Nat) : RoundTrip.Statement (.vlds vdata vaddr sbase size mode) := by
  intro _ h
  change (decide (vdata < 128) && decide (vaddr < 128) && decide (sbase < 64) && decide (size < 8) && decide (mode < 8) && mvMode vdata vaddr size mode true true) = true at h
  simp only [Bool.and_eq_true, decide_eq_true_eq] at h
  obtain ⟨hw, hm, e_vdata, e_vaddr, e_sbase, e_size, e_mode⟩ := layout_44 (K := 0xCC000000) (m := 51) (x0 := vdata) (x1 := vaddr) (x2 := sbase) (x3 := size) (x4 := mode) rfl (by decide) (by omega) (by omega) (by omega) (by omega) (by omega)
  change 0xCC000000 + vdata * 524288 + vaddr * 4096 + sbase * 64 + size * 8 + mode < 2 ^ 32 ∧ decodeFields (0xCC000000 + vdata * 524288 + vaddr * 4096 + sbase * 64 + size * 8 + mode) = _
  revert hw hm e_vdata e_vaddr e_sbase e_size e_mode
  generalize 0xCC000000 + vdata * 524288 + vaddr * 4096 + sbase * 64 + size * 8 + mode = w
  intro hw hm e_vdata e_vaddr e_sbase e_size e_mode
  refine ⟨hw, ?_⟩
  simp only [decodeFields, hm, major33, e_vdata, e_vaddr, e_sbase, e_size, e_mode]
theorem RoundTrip.vsts (vdata : Nat) (vaddr : Nat) (sbase : Nat) (size : Nat) (mode : Nat) : RoundTrip.Statement (.vsts vdata vaddr sbase size mode) := by
  intro _ h
  change (decide (vdata < 128) && decide (vaddr < 128) && decide (sbase < 64) && decide (size < 8) && decide (mode < 8) && mvMode vdata vaddr size mode true true) = true at h
  simp only [Bool.and_eq_true, decide_eq_true_eq] at h
  obtain ⟨hw, hm, e_vdata, e_vaddr, e_sbase, e_size, e_mode⟩ := layout_44 (K := 0xD0000000) (m := 52) (x0 := vdata) (x1 := vaddr) (x2 := sbase) (x3 := size) (x4 := mode) rfl (by decide) (by omega) (by omega) (by omega) (by omega) (by omega)
  change 0xD0000000 + vdata * 524288 + vaddr * 4096 + sbase * 64 + size * 8 + mode < 2 ^ 32 ∧ decodeFields (0xD0000000 + vdata * 524288 + vaddr * 4096 + sbase * 64 + size * 8 + mode) = _
  revert hw hm e_vdata e_vaddr e_sbase e_size e_mode
  generalize 0xD0000000 + vdata * 524288 + vaddr * 4096 + sbase * 64 + size * 8 + mode = w
  intro hw hm e_vdata e_vaddr e_sbase e_size e_mode
  refine ⟨hw, ?_⟩
  simp only [decodeFields, hm, major34, e_vdata, e_vaddr, e_sbase, e_size, e_mode]
theorem RoundTrip.vldc (vdata : Nat) (vaddr : Nat) (sbase : Nat) (size : Nat) (mode : Nat) : RoundTrip.Statement (.vldc vdata vaddr sbase size mode) := by
  intro _ h
  change (decide (vdata < 128) && decide (vaddr < 128) && decide (sbase < 64) && decide (size < 8) && decide (mode < 8) && mvMode vdata vaddr size mode true false) = true at h
  simp only [Bool.and_eq_true, decide_eq_true_eq] at h
  obtain ⟨hw, hm, e_vdata, e_vaddr, e_sbase, e_size, e_mode⟩ := layout_44 (K := 0xD4000000) (m := 53) (x0 := vdata) (x1 := vaddr) (x2 := sbase) (x3 := size) (x4 := mode) rfl (by decide) (by omega) (by omega) (by omega) (by omega) (by omega)
  change 0xD4000000 + vdata * 524288 + vaddr * 4096 + sbase * 64 + size * 8 + mode < 2 ^ 32 ∧ decodeFields (0xD4000000 + vdata * 524288 + vaddr * 4096 + sbase * 64 + size * 8 + mode) = _
  revert hw hm e_vdata e_vaddr e_sbase e_size e_mode
  generalize 0xD4000000 + vdata * 524288 + vaddr * 4096 + sbase * 64 + size * 8 + mode = w
  intro hw hm e_vdata e_vaddr e_sbase e_size e_mode
  refine ⟨hw, ?_⟩
  simp only [decodeFields, hm, major35, e_vdata, e_vaddr, e_sbase, e_size, e_mode]
theorem RoundTrip.vstc (vdata : Nat) (vaddr : Nat) (sbase : Nat) (size : Nat) (mode : Nat) : RoundTrip.Statement (.vstc vdata vaddr sbase size mode) := by
  intro _ h
  change (decide (vdata < 128) && decide (vaddr < 128) && decide (sbase < 64) && decide (size < 8) && decide (mode < 8) && mvMode vdata vaddr size mode true false) = true at h
  simp only [Bool.and_eq_true, decide_eq_true_eq] at h
  obtain ⟨hw, hm, e_vdata, e_vaddr, e_sbase, e_size, e_mode⟩ := layout_44 (K := 0xD8000000) (m := 54) (x0 := vdata) (x1 := vaddr) (x2 := sbase) (x3 := size) (x4 := mode) rfl (by decide) (by omega) (by omega) (by omega) (by omega) (by omega)
  change 0xD8000000 + vdata * 524288 + vaddr * 4096 + sbase * 64 + size * 8 + mode < 2 ^ 32 ∧ decodeFields (0xD8000000 + vdata * 524288 + vaddr * 4096 + sbase * 64 + size * 8 + mode) = _
  revert hw hm e_vdata e_vaddr e_sbase e_size e_mode
  generalize 0xD8000000 + vdata * 524288 + vaddr * 4096 + sbase * 64 + size * 8 + mode = w
  intro hw hm e_vdata e_vaddr e_sbase e_size e_mode
  refine ⟨hw, ?_⟩
  simp only [decodeFields, hm, major36, e_vdata, e_vaddr, e_sbase, e_size, e_mode]
theorem RoundTrip.vldk (vdata : Nat) (vaddr : Nat) (sbase : Nat) (size : Nat) (mode : Nat) : RoundTrip.Statement (.vldk vdata vaddr sbase size mode) := by
  intro _ h
  change (decide (vdata < 128) && decide (vaddr < 128) && decide (sbase < 64) && decide (size < 8) && decide (mode < 8) && mvMode vdata vaddr size mode false false) = true at h
  simp only [Bool.and_eq_true, decide_eq_true_eq] at h
  obtain ⟨hw, hm, e_vdata, e_vaddr, e_sbase, e_size, e_mode⟩ := layout_44 (K := 0xDC000000) (m := 55) (x0 := vdata) (x1 := vaddr) (x2 := sbase) (x3 := size) (x4 := mode) rfl (by decide) (by omega) (by omega) (by omega) (by omega) (by omega)
  change 0xDC000000 + vdata * 524288 + vaddr * 4096 + sbase * 64 + size * 8 + mode < 2 ^ 32 ∧ decodeFields (0xDC000000 + vdata * 524288 + vaddr * 4096 + sbase * 64 + size * 8 + mode) = _
  revert hw hm e_vdata e_vaddr e_sbase e_size e_mode
  generalize 0xDC000000 + vdata * 524288 + vaddr * 4096 + sbase * 64 + size * 8 + mode = w
  intro hw hm e_vdata e_vaddr e_sbase e_size e_mode
  refine ⟨hw, ?_⟩
  simp only [decodeFields, hm, major37, e_vdata, e_vaddr, e_sbase, e_size, e_mode]
theorem RoundTrip.vstk (vdata : Nat) (vaddr : Nat) (sbase : Nat) (size : Nat) (mode : Nat) : RoundTrip.Statement (.vstk vdata vaddr sbase size mode) := by
  intro _ h
  change (decide (vdata < 128) && decide (vaddr < 128) && decide (sbase < 64) && decide (size < 8) && decide (mode < 8) && mvMode vdata vaddr size mode false false) = true at h
  simp only [Bool.and_eq_true, decide_eq_true_eq] at h
  obtain ⟨hw, hm, e_vdata, e_vaddr, e_sbase, e_size, e_mode⟩ := layout_44 (K := 0xE0000000) (m := 56) (x0 := vdata) (x1 := vaddr) (x2 := sbase) (x3 := size) (x4 := mode) rfl (by decide) (by omega) (by omega) (by omega) (by omega) (by omega)
  change 0xE0000000 + vdata * 524288 + vaddr * 4096 + sbase * 64 + size * 8 + mode < 2 ^ 32 ∧ decodeFields (0xE0000000 + vdata * 524288 + vaddr * 4096 + sbase * 64 + size * 8 + mode) = _
  revert hw hm e_vdata e_vaddr e_sbase e_size e_mode
  generalize 0xE0000000 + vdata * 524288 + vaddr * 4096 + sbase * 64 + size * 8 + mode = w
  intro hw hm e_vdata e_vaddr e_sbase e_size e_mode
  refine ⟨hw, ?_⟩
  simp only [decodeFields, hm, major38, e_vdata, e_vaddr, e_sbase, e_size, e_mode]
theorem RoundTrip.vldsub (vdata : Nat) (vaddr : Nat) (sbase : Nat) (size : Nat) (mode : Nat) : RoundTrip.Statement (.vldsub vdata vaddr sbase size mode) := by
  intro _ h
  change (decide (vdata < 128) && decide (vaddr < 128) && decide (sbase < 64) && decide (size < 8) && decide (mode < 8) && mvMode vdata vaddr size mode false false) = true at h
  simp only [Bool.and_eq_true, decide_eq_true_eq] at h
  obtain ⟨hw, hm, e_vdata, e_vaddr, e_sbase, e_size, e_mode⟩ := layout_44 (K := 0xE4000000) (m := 57) (x0 := vdata) (x1 := vaddr) (x2 := sbase) (x3 := size) (x4 := mode) rfl (by decide) (by omega) (by omega) (by omega) (by omega) (by omega)
  change 0xE4000000 + vdata * 524288 + vaddr * 4096 + sbase * 64 + size * 8 + mode < 2 ^ 32 ∧ decodeFields (0xE4000000 + vdata * 524288 + vaddr * 4096 + sbase * 64 + size * 8 + mode) = _
  revert hw hm e_vdata e_vaddr e_sbase e_size e_mode
  generalize 0xE4000000 + vdata * 524288 + vaddr * 4096 + sbase * 64 + size * 8 + mode = w
  intro hw hm e_vdata e_vaddr e_sbase e_size e_mode
  refine ⟨hw, ?_⟩
  simp only [decodeFields, hm, major39, e_vdata, e_vaddr, e_sbase, e_size, e_mode]
theorem RoundTrip.sld (sd : Nat) (sbase : Nat) (size : Nat) (mode : Nat) (off : Nat) : RoundTrip.Statement (.sld sd sbase size mode off) := by
  intro _ h
  change (decide (sd < 64) && decide (sbase < 64) && decide (size < 8) && decide (mode < 4) && decide (off < 256) && ssMode sd sbase size mode off 1 true) = true at h
  simp only [Bool.and_eq_true, decide_eq_true_eq] at h
  obtain ⟨hw, hm, c0, e_sd, e_sbase, e_size, e_mode, e_off⟩ := layout_45 (K := 0xE8000000) (m := 58) (c0 := 0) (x0 := sd) (x1 := sbase) (x2 := size) (x3 := mode) (x4 := off) rfl (by decide) (by omega) (by omega) (by omega) (by omega) (by omega) (by decide)
  change 0xE8000000 + sd * 1048576 + sbase * 16384 + size * 2048 + mode * 512 + off < 2 ^ 32 ∧ decodeFields (0xE8000000 + sd * 1048576 + sbase * 16384 + size * 2048 + mode * 512 + off) = _
  revert hw hm c0 e_sd e_sbase e_size e_mode e_off
  generalize 0xE8000000 + sd * 1048576 + sbase * 16384 + size * 2048 + mode * 512 + off = w
  intro hw hm c0 e_sd e_sbase e_size e_mode e_off
  refine ⟨hw, ?_⟩
  simp only [decodeFields, hm, major3A, c0, e_sd, e_sbase, e_size, e_mode, e_off]
theorem RoundTrip.sst (sd : Nat) (sbase : Nat) (size : Nat) (mode : Nat) (off : Nat) : RoundTrip.Statement (.sst sd sbase size mode off) := by
  intro _ h
  change (decide (sd < 64) && decide (sbase < 64) && decide (size < 8) && decide (mode < 4) && decide (off < 256) && ssMode sd sbase size mode off 1 false) = true at h
  simp only [Bool.and_eq_true, decide_eq_true_eq] at h
  obtain ⟨hw, hm, c0, e_sd, e_sbase, e_size, e_mode, e_off⟩ := layout_45 (K := 0xE8000100) (m := 58) (c0 := 1) (x0 := sd) (x1 := sbase) (x2 := size) (x3 := mode) (x4 := off) rfl (by decide) (by omega) (by omega) (by omega) (by omega) (by omega) (by decide)
  change 0xE8000100 + sd * 1048576 + sbase * 16384 + size * 2048 + mode * 512 + off < 2 ^ 32 ∧ decodeFields (0xE8000100 + sd * 1048576 + sbase * 16384 + size * 2048 + mode * 512 + off) = _
  revert hw hm c0 e_sd e_sbase e_size e_mode e_off
  generalize 0xE8000100 + sd * 1048576 + sbase * 16384 + size * 2048 + mode * 512 + off = w
  intro hw hm c0 e_sd e_sbase e_size e_mode e_off
  refine ⟨hw, ?_⟩
  simp only [decodeFields, hm, major3A, c0, e_sd, e_sbase, e_size, e_mode, e_off]
theorem RoundTrip.slds (sd : Nat) (sbase : Nat) (size : Nat) (mode : Nat) (off : Nat) : RoundTrip.Statement (.slds sd sbase size mode off) := by
  intro _ h
  change (decide (sd < 64) && decide (sbase < 64) && decide (size < 8) && decide (mode < 4) && decide (off < 256) && ssMode sd sbase size mode off 2 true) = true at h
  simp only [Bool.and_eq_true, decide_eq_true_eq] at h
  obtain ⟨hw, hm, c0, e_sd, e_sbase, e_size, e_mode, e_off⟩ := layout_45 (K := 0xEC000000) (m := 59) (c0 := 0) (x0 := sd) (x1 := sbase) (x2 := size) (x3 := mode) (x4 := off) rfl (by decide) (by omega) (by omega) (by omega) (by omega) (by omega) (by decide)
  change 0xEC000000 + sd * 1048576 + sbase * 16384 + size * 2048 + mode * 512 + off < 2 ^ 32 ∧ decodeFields (0xEC000000 + sd * 1048576 + sbase * 16384 + size * 2048 + mode * 512 + off) = _
  revert hw hm c0 e_sd e_sbase e_size e_mode e_off
  generalize 0xEC000000 + sd * 1048576 + sbase * 16384 + size * 2048 + mode * 512 + off = w
  intro hw hm c0 e_sd e_sbase e_size e_mode e_off
  refine ⟨hw, ?_⟩
  simp only [decodeFields, hm, major3B, c0, e_sd, e_sbase, e_size, e_mode, e_off]
theorem RoundTrip.ssts (sd : Nat) (sbase : Nat) (size : Nat) (mode : Nat) (off : Nat) : RoundTrip.Statement (.ssts sd sbase size mode off) := by
  intro _ h
  change (decide (sd < 64) && decide (sbase < 64) && decide (size < 8) && decide (mode < 4) && decide (off < 256) && ssMode sd sbase size mode off 2 false) = true at h
  simp only [Bool.and_eq_true, decide_eq_true_eq] at h
  obtain ⟨hw, hm, c0, e_sd, e_sbase, e_size, e_mode, e_off⟩ := layout_45 (K := 0xEC000100) (m := 59) (c0 := 1) (x0 := sd) (x1 := sbase) (x2 := size) (x3 := mode) (x4 := off) rfl (by decide) (by omega) (by omega) (by omega) (by omega) (by omega) (by decide)
  change 0xEC000100 + sd * 1048576 + sbase * 16384 + size * 2048 + mode * 512 + off < 2 ^ 32 ∧ decodeFields (0xEC000100 + sd * 1048576 + sbase * 16384 + size * 2048 + mode * 512 + off) = _
  revert hw hm c0 e_sd e_sbase e_size e_mode e_off
  generalize 0xEC000100 + sd * 1048576 + sbase * 16384 + size * 2048 + mode * 512 + off = w
  intro hw hm c0 e_sd e_sbase e_size e_mode e_off
  refine ⟨hw, ?_⟩
  simp only [decodeFields, hm, major3B, c0, e_sd, e_sbase, e_size, e_mode, e_off]
theorem RoundTrip.vatom (vdata : Nat) (vaddr : Nat) (sbase : Nat) (space : Nat) (op : Nat) : RoundTrip.Statement (.vatom vdata vaddr sbase space op) := by
  intro _ h
  change (decide (vdata < 128) && decide (vaddr < 128) && decide (sbase < 64) && decide (space < 4) && decide (op < 16) && decide (space ≤ 2) && op != 15 && ((op != 12 && op != 13) || vdata % 2 == 0)) = true at h
  simp only [Bool.and_eq_true, decide_eq_true_eq] at h
  obtain ⟨hw, hm, e_vdata, e_vaddr, e_sbase, e_space, e_op⟩ := layout_46 (K := 0xF0000000) (m := 60) (x0 := vdata) (x1 := vaddr) (x2 := sbase) (x3 := space) (x4 := op) rfl (by decide) (by omega) (by omega) (by omega) (by omega) (by omega)
  change 0xF0000000 + vdata * 524288 + vaddr * 4096 + sbase * 64 + space * 16 + op < 2 ^ 32 ∧ decodeFields (0xF0000000 + vdata * 524288 + vaddr * 4096 + sbase * 64 + space * 16 + op) = _
  revert hw hm e_vdata e_vaddr e_sbase e_space e_op
  generalize 0xF0000000 + vdata * 524288 + vaddr * 4096 + sbase * 64 + space * 16 + op = w
  intro hw hm e_vdata e_vaddr e_sbase e_space e_op
  refine ⟨hw, ?_⟩
  simp only [decodeFields, hm, major3C, e_vdata, e_vaddr, e_sbase, e_space, e_op]
theorem RoundTrip.vcasW (vdata : Nat) (vaddr : Nat) (sbase : Nat) (space : Nat) : RoundTrip.Statement (.vcasW vdata vaddr sbase space) := by
  intro _ h
  change (decide (vdata < 128) && decide (vaddr < 128) && decide (sbase < 64) && decide (space < 4) && decide (space ≤ 2) && vdata % 2 == 0) = true at h
  simp only [Bool.and_eq_true, decide_eq_true_eq] at h
  obtain ⟨hw, hm, c0, e_vdata, e_vaddr, e_sbase, e_space⟩ := layout_47 (K := 0xF4000000) (m := 61) (c0 := 0) (x0 := vdata) (x1 := vaddr) (x2 := sbase) (x3 := space) rfl (by decide) (by omega) (by omega) (by omega) (by omega) (by decide)
  change 0xF4000000 + vdata * 524288 + vaddr * 4096 + sbase * 64 + space * 16 < 2 ^ 32 ∧ decodeFields (0xF4000000 + vdata * 524288 + vaddr * 4096 + sbase * 64 + space * 16) = _
  revert hw hm c0 e_vdata e_vaddr e_sbase e_space
  generalize 0xF4000000 + vdata * 524288 + vaddr * 4096 + sbase * 64 + space * 16 = w
  intro hw hm c0 e_vdata e_vaddr e_sbase e_space
  refine ⟨hw, ?_⟩
  simp only [decodeFields, hm, major3D, c0, e_vdata, e_vaddr, e_sbase, e_space]
theorem RoundTrip.vcasD (vdata : Nat) (vaddr : Nat) (sbase : Nat) (space : Nat) : RoundTrip.Statement (.vcasD vdata vaddr sbase space) := by
  intro _ h
  change (decide (vdata < 128) && decide (vaddr < 128) && decide (sbase < 64) && decide (space < 4) && decide (space ≤ 2) && vdata % 4 == 0) = true at h
  simp only [Bool.and_eq_true, decide_eq_true_eq] at h
  obtain ⟨hw, hm, c0, e_vdata, e_vaddr, e_sbase, e_space⟩ := layout_47 (K := 0xF4000001) (m := 61) (c0 := 1) (x0 := vdata) (x1 := vaddr) (x2 := sbase) (x3 := space) rfl (by decide) (by omega) (by omega) (by omega) (by omega) (by decide)
  change 0xF4000001 + vdata * 524288 + vaddr * 4096 + sbase * 64 + space * 16 < 2 ^ 32 ∧ decodeFields (0xF4000001 + vdata * 524288 + vaddr * 4096 + sbase * 64 + space * 16) = _
  revert hw hm c0 e_vdata e_vaddr e_sbase e_space
  generalize 0xF4000001 + vdata * 524288 + vaddr * 4096 + sbase * 64 + space * 16 = w
  intro hw hm c0 e_vdata e_vaddr e_sbase e_space
  refine ⟨hw, ?_⟩
  simp only [decodeFields, hm, major3D, c0, e_vdata, e_vaddr, e_sbase, e_space]
theorem RoundTrip.vcas2 (vdata : Nat) (vaddr : Nat) (sbase : Nat) (space : Nat) : RoundTrip.Statement (.vcas2 vdata vaddr sbase space) := by
  intro _ h
  change (decide (vdata < 128) && decide (vaddr < 128) && decide (sbase < 64) && decide (space < 4) && decide (space ≤ 2) && vdata % 8 == 0) = true at h
  simp only [Bool.and_eq_true, decide_eq_true_eq] at h
  obtain ⟨hw, hm, c0, e_vdata, e_vaddr, e_sbase, e_space⟩ := layout_47 (K := 0xF4000002) (m := 61) (c0 := 2) (x0 := vdata) (x1 := vaddr) (x2 := sbase) (x3 := space) rfl (by decide) (by omega) (by omega) (by omega) (by omega) (by decide)
  change 0xF4000002 + vdata * 524288 + vaddr * 4096 + sbase * 64 + space * 16 < 2 ^ 32 ∧ decodeFields (0xF4000002 + vdata * 524288 + vaddr * 4096 + sbase * 64 + space * 16) = _
  revert hw hm c0 e_vdata e_vaddr e_sbase e_space
  generalize 0xF4000002 + vdata * 524288 + vaddr * 4096 + sbase * 64 + space * 16 = w
  intro hw hm c0 e_vdata e_vaddr e_sbase e_space
  refine ⟨hw, ?_⟩
  simp only [decodeFields, hm, major3D, c0, e_vdata, e_vaddr, e_sbase, e_space]
theorem RoundTrip.vred (vdata : Nat) (vaddr : Nat) (sbase : Nat) (space : Nat) (op : Nat) : RoundTrip.Statement (.vred vdata vaddr sbase space op) := by
  intro _ h
  change (decide (vdata < 128) && decide (vaddr < 128) && decide (sbase < 64) && decide (space < 4) && decide (op < 16) && decide (3 ≤ op) && decide (space ≤ 2) && (op != 14 || vdata % 2 == 0)) = true at h
  simp only [Bool.and_eq_true, decide_eq_true_eq] at h
  obtain ⟨hw, hm, e_vdata, e_vaddr, e_sbase, e_space, e_op⟩ := layout_46 (K := 0xF4000000) (m := 61) (x0 := vdata) (x1 := vaddr) (x2 := sbase) (x3 := space) (x4 := op) rfl (by decide) (by omega) (by omega) (by omega) (by omega) (by omega)
  change 0xF4000000 + vdata * 524288 + vaddr * 4096 + sbase * 64 + space * 16 + op < 2 ^ 32 ∧ decodeFields (0xF4000000 + vdata * 524288 + vaddr * 4096 + sbase * 64 + space * 16 + op) = _
  revert hw hm e_vdata e_vaddr e_sbase e_space e_op
  generalize 0xF4000000 + vdata * 524288 + vaddr * 4096 + sbase * 64 + space * 16 + op = w
  intro hw hm e_vdata e_vaddr e_sbase e_space e_op
  refine ⟨hw, ?_⟩
  simp only [decodeFields, hm, major3D, e_vdata, e_vaddr, e_sbase, e_space, e_op]
  split
  · omega
  · omega
  · omega
  · rfl
theorem RoundTrip.serviceGroupEntryApply (cluster : Nat) : RoundTrip.Statement (.serviceGroupEntryApply cluster) := fun h => Bool.noConfusion h
theorem RoundTrip.prf (sa : Nat) (lvl : Nat) : RoundTrip.Statement (.prf sa lvl) := by
  intro _ h
  change (decide (sa < 64) && decide (lvl < 4) && decide (lvl ≤ 1)) = true at h
  simp only [Bool.and_eq_true, decide_eq_true_eq] at h
  obtain ⟨hw, hm, c0, e_sa, e_lvl⟩ := layout_48 (K := 0xF8000000) (m := 62) (c0 := 0) (x0 := sa) (x1 := lvl) rfl (by decide) (by omega) (by omega) (by decide)
  change 0xF8000000 + sa * 16384 + lvl < 2 ^ 32 ∧ decodeFields (0xF8000000 + sa * 16384 + lvl) = _
  revert hw hm c0 e_sa e_lvl
  generalize 0xF8000000 + sa * 16384 + lvl = w
  intro hw hm c0 e_sa e_lvl
  refine ⟨hw, ?_⟩
  simp only [decodeFields, hm, major3E, c0, e_sa, e_lvl]
theorem RoundTrip.fls (sa : Nat) (sb : Nat) (scope : Nat) : RoundTrip.Statement (.fls sa sb scope) := by
  intro _ h
  change (decide (sa < 64) && decide (sb < 64) && decide (scope < 8) && decide (scope ≤ 5)) = true at h
  simp only [Bool.and_eq_true, decide_eq_true_eq] at h
  obtain ⟨hw, hm, c0, e_sa, e_sb, e_scope⟩ := layout_49 (K := 0xF8100000) (m := 62) (c0 := 1) (x0 := sa) (x1 := sb) (x2 := scope) rfl (by decide) (by omega) (by omega) (by omega) (by decide)
  change 0xF8100000 + sa * 16384 + sb * 256 + scope * 8 < 2 ^ 32 ∧ decodeFields (0xF8100000 + sa * 16384 + sb * 256 + scope * 8) = _
  revert hw hm c0 e_sa e_sb e_scope
  generalize 0xF8100000 + sa * 16384 + sb * 256 + scope * 8 = w
  intro hw hm c0 e_sa e_sb e_scope
  refine ⟨hw, ?_⟩
  simp only [decodeFields, hm, major3E, c0, e_sa, e_sb, e_scope]
theorem RoundTrip.inv (sa : Nat) (sb : Nat) (scope : Nat) : RoundTrip.Statement (.inv sa sb scope) := by
  intro _ h
  change (decide (sa < 64) && decide (sb < 64) && decide (scope < 8) && decide (scope ≤ 5)) = true at h
  simp only [Bool.and_eq_true, decide_eq_true_eq] at h
  obtain ⟨hw, hm, c0, e_sa, e_sb, e_scope⟩ := layout_49 (K := 0xF8200000) (m := 62) (c0 := 2) (x0 := sa) (x1 := sb) (x2 := scope) rfl (by decide) (by omega) (by omega) (by omega) (by decide)
  change 0xF8200000 + sa * 16384 + sb * 256 + scope * 8 < 2 ^ 32 ∧ decodeFields (0xF8200000 + sa * 16384 + sb * 256 + scope * 8) = _
  revert hw hm c0 e_sa e_sb e_scope
  generalize 0xF8200000 + sa * 16384 + sb * 256 + scope * 8 = w
  intro hw hm c0 e_sa e_sb e_scope
  refine ⟨hw, ?_⟩
  simp only [decodeFields, hm, major3E, c0, e_sa, e_sb, e_scope]
theorem RoundTrip.fence (scope : Nat) (order : Nat) : RoundTrip.Statement (.fence scope order) := by
  intro _ h
  change (decide (scope < 8) && decide (order < 8) && (order != 0 && decide (order ≤ 4)) && decide (scope ≤ 5)) = true at h
  simp only [Bool.and_eq_true, decide_eq_true_eq] at h
  obtain ⟨hw, hm, c0, e_scope, e_order⟩ := layout_50 (K := 0xF8300000) (m := 62) (c0 := 3) (x0 := scope) (x1 := order) rfl (by decide) (by omega) (by omega) (by decide)
  change 0xF8300000 + scope * 8 + order < 2 ^ 32 ∧ decodeFields (0xF8300000 + scope * 8 + order) = _
  revert hw hm c0 e_scope e_order
  generalize 0xF8300000 + scope * 8 + order = w
  intro hw hm c0 e_scope e_order
  refine ⟨hw, ?_⟩
  simp only [decodeFields, hm, major3E, c0, e_scope, e_order]
theorem RoundTrip.fenceComplete (core : Nat) (slot : Nat) (inB : Bool) : RoundTrip.Statement (.fenceComplete core slot inB) := fun h => Bool.noConfusion h
theorem RoundTrip.wfetch (sa : Nat) (sb : Nat) (kind : Nat) : RoundTrip.Statement (.wfetch sa sb kind) := by
  intro _ h
  change (decide (sa < 64) && decide (sb < 64) && decide (kind < 4) && decide (kind ≤ 2) && (kind != 0 || sb == 0)) = true at h
  simp only [Bool.and_eq_true, decide_eq_true_eq] at h
  obtain ⟨hw, hm, c0, e_sa, e_sb, e_kind⟩ := layout_51 (K := 0xF8400000) (m := 62) (c0 := 4) (x0 := sa) (x1 := sb) (x2 := kind) rfl (by decide) (by omega) (by omega) (by omega) (by decide)
  change 0xF8400000 + sa * 16384 + sb * 256 + kind < 2 ^ 32 ∧ decodeFields (0xF8400000 + sa * 16384 + sb * 256 + kind) = _
  revert hw hm c0 e_sa e_sb e_kind
  generalize 0xF8400000 + sa * 16384 + sb * 256 + kind = w
  intro hw hm c0 e_sa e_sb e_kind
  refine ⟨hw, ?_⟩
  simp only [decodeFields, hm, major3E, c0, e_sa, e_sb, e_kind]
theorem RoundTrip.wevict (sa : Nat) : RoundTrip.Statement (.wevict sa) := by
  intro _ h
  change (decide (sa < 64)) = true at h
  simp only [decide_eq_true_eq] at h
  obtain ⟨hw, hm, c0, e_sa⟩ := layout_8 (K := 0xF8500000) (m := 62) (c0 := 5) (x0 := sa) rfl (by decide) (by omega) (by decide)
  change 0xF8500000 + sa * 16384 < 2 ^ 32 ∧ decodeFields (0xF8500000 + sa * 16384) = _
  revert hw hm c0 e_sa
  generalize 0xF8500000 + sa * 16384 = w
  intro hw hm c0 e_sa
  refine ⟨hw, ?_⟩
  simp only [decodeFields, hm, major3E, c0, e_sa]
theorem RoundTrip.wpress (sa : Nat) : RoundTrip.Statement (.wpress sa) := by
  intro _ h
  change (decide (sa < 64)) = true at h
  simp only [decide_eq_true_eq] at h
  obtain ⟨hw, hm, c0, e_sa⟩ := layout_8 (K := 0xF8600000) (m := 62) (c0 := 6) (x0 := sa) rfl (by decide) (by omega) (by decide)
  change 0xF8600000 + sa * 16384 < 2 ^ 32 ∧ decodeFields (0xF8600000 + sa * 16384) = _
  revert hw hm c0 e_sa
  generalize 0xF8600000 + sa * 16384 = w
  intro hw hm c0 e_sa
  refine ⟨hw, ?_⟩
  simp only [decodeFields, hm, major3E, c0, e_sa]
theorem RoundTrip.barInit (sa : Nat) (sb : Nat) : RoundTrip.Statement (.barInit sa sb) := by
  intro _ h
  change (decide (sa < 64) && decide (sb < 64)) = true at h
  simp only [Bool.and_eq_true, decide_eq_true_eq] at h
  obtain ⟨hw, hm, c0, e_sa, e_sb⟩ := layout_12 (K := 0xFC000000) (m := 63) (c0 := 0) (x0 := sa) (x1 := sb) rfl (by decide) (by omega) (by omega) (by decide)
  change 0xFC000000 + sa * 16384 + sb * 256 < 2 ^ 32 ∧ decodeFields (0xFC000000 + sa * 16384 + sb * 256) = _
  revert hw hm c0 e_sa e_sb
  generalize 0xFC000000 + sa * 16384 + sb * 256 = w
  intro hw hm c0 e_sa e_sb
  refine ⟨hw, ?_⟩
  simp only [decodeFields, hm, major3F, c0, e_sa, e_sb]
theorem RoundTrip.barArr (sa : Nat) (grp : Bool) (p : Nat) : RoundTrip.Statement (.barArr sa grp p) := by
  intro _ h
  change (decide (sa < 64) && decide (p < 8)) = true at h
  simp only [Bool.and_eq_true, decide_eq_true_eq] at h
  obtain ⟨hw, hm, c0, e_sa, e_grp, e_p⟩ := layout_52 (K := 0xFC100000) (m := 63) (c0 := 1) (x0 := sa) (x1 := grp.toNat) (x2 := p) rfl (by decide) (by omega) (bit_lt grp) (by omega) (by decide)
  change 0xFC100000 + sa * 16384 + grp.toNat * 8 + p < 2 ^ 32 ∧ decodeFields (0xFC100000 + sa * 16384 + grp.toNat * 8 + p) = _
  revert hw hm c0 e_sa e_grp e_p
  generalize 0xFC100000 + sa * 16384 + grp.toNat * 8 + p = w
  intro hw hm c0 e_sa e_grp e_p
  refine ⟨hw, ?_⟩
  simp only [decodeFields, hm, major3F, c0, e_sa, bitAt_of e_grp, e_p]
theorem RoundTrip.barWait (sa : Nat) (sb : Nat) : RoundTrip.Statement (.barWait sa sb) := by
  intro _ h
  change (decide (sa < 64) && decide (sb < 64)) = true at h
  simp only [Bool.and_eq_true, decide_eq_true_eq] at h
  obtain ⟨hw, hm, c0, e_sa, e_sb⟩ := layout_12 (K := 0xFC200000) (m := 63) (c0 := 2) (x0 := sa) (x1 := sb) rfl (by decide) (by omega) (by omega) (by decide)
  change 0xFC200000 + sa * 16384 + sb * 256 < 2 ^ 32 ∧ decodeFields (0xFC200000 + sa * 16384 + sb * 256) = _
  revert hw hm c0 e_sa e_sb
  generalize 0xFC200000 + sa * 16384 + sb * 256 = w
  intro hw hm c0 e_sa e_sb
  refine ⟨hw, ?_⟩
  simp only [decodeFields, hm, major3F, c0, e_sa, e_sb]
theorem RoundTrip.barWaitWake (core : Nat) (slot : Nat) (seq : Nat) : RoundTrip.Statement (.barWaitWake core slot seq) := fun h => Bool.noConfusion h
theorem RoundTrip.barExp (sa : Nat) (sb : Nat) (p : Nat) : RoundTrip.Statement (.barExp sa sb p) := by
  intro _ h
  change (decide (sa < 64) && decide (sb < 64) && decide (p < 8)) = true at h
  simp only [Bool.and_eq_true, decide_eq_true_eq] at h
  obtain ⟨hw, hm, c0, e_sa, e_sb, e_p⟩ := layout_53 (K := 0xFC300000) (m := 63) (c0 := 3) (x0 := sa) (x1 := sb) (x2 := p) rfl (by decide) (by omega) (by omega) (by omega) (by decide)
  change 0xFC300000 + sa * 16384 + sb * 256 + p < 2 ^ 32 ∧ decodeFields (0xFC300000 + sa * 16384 + sb * 256 + p) = _
  revert hw hm c0 e_sa e_sb e_p
  generalize 0xFC300000 + sa * 16384 + sb * 256 + p = w
  intro hw hm c0 e_sa e_sb e_p
  refine ⟨hw, ?_⟩
  simp only [decodeFields, hm, major3F, c0, e_sa, e_sb, e_p]
theorem RoundTrip.barTry (sa : Nat) (sb : Nat) (p : Nat) : RoundTrip.Statement (.barTry sa sb p) := by
  intro _ h
  change (decide (sa < 64) && decide (sb < 64) && decide (p < 8)) = true at h
  simp only [Bool.and_eq_true, decide_eq_true_eq] at h
  obtain ⟨hw, hm, c0, e_sa, e_sb, e_p⟩ := layout_53 (K := 0xFC400000) (m := 63) (c0 := 4) (x0 := sa) (x1 := sb) (x2 := p) rfl (by decide) (by omega) (by omega) (by omega) (by decide)
  change 0xFC400000 + sa * 16384 + sb * 256 + p < 2 ^ 32 ∧ decodeFields (0xFC400000 + sa * 16384 + sb * 256 + p) = _
  revert hw hm c0 e_sa e_sb e_p
  generalize 0xFC400000 + sa * 16384 + sb * 256 + p = w
  intro hw hm c0 e_sa e_sb e_p
  refine ⟨hw, ?_⟩
  simp only [decodeFields, hm, major3F, c0, e_sa, e_sb, e_p]
theorem RoundTrip.barInval (sa : Nat) : RoundTrip.Statement (.barInval sa) := by
  intro _ h
  change (decide (sa < 64)) = true at h
  simp only [decide_eq_true_eq] at h
  obtain ⟨hw, hm, c0, e_sa⟩ := layout_8 (K := 0xFC500000) (m := 63) (c0 := 5) (x0 := sa) rfl (by decide) (by omega) (by decide)
  change 0xFC500000 + sa * 16384 < 2 ^ 32 ∧ decodeFields (0xFC500000 + sa * 16384) = _
  revert hw hm c0 e_sa
  generalize 0xFC500000 + sa * 16384 = w
  intro hw hm c0 e_sa
  refine ⟨hw, ?_⟩
  simp only [decodeFields, hm, major3F, c0, e_sa]
theorem RoundTrip.tbegVal (sa : Nat) (n : Nat) : RoundTrip.Statement (.tbegVal sa n) := by
  intro _ h
  change (decide (sa < 64) && decide (n < 16) && n != 0) = true at h
  simp only [Bool.and_eq_true, decide_eq_true_eq] at h
  obtain ⟨hw, hm, c0, c1, e_sa, e_n⟩ := layout_54 (K := 0xFC600000) (m := 63) (c0 := 6) (c1 := 0) (x0 := sa) (x1 := n) rfl (by decide) (by omega) (by omega) (by decide) (by decide)
  change 0xFC600000 + sa * 16384 + n < 2 ^ 32 ∧ decodeFields (0xFC600000 + sa * 16384 + n) = _
  revert hw hm c0 c1 e_sa e_n
  generalize 0xFC600000 + sa * 16384 + n = w
  intro hw hm c0 c1 e_sa e_n
  refine ⟨hw, ?_⟩
  simp only [decodeFields, hm, major3F, c0, bitAt_of (b := false) c1, Bool.false_eq_true, if_false, e_sa, e_n]
theorem RoundTrip.tbegTs (sa : Nat) (n : Nat) : RoundTrip.Statement (.tbegTs sa n) := by
  intro _ h
  change (decide (sa < 64) && decide (n < 16) && n != 0) = true at h
  simp only [Bool.and_eq_true, decide_eq_true_eq] at h
  obtain ⟨hw, hm, c0, c1, e_sa, e_n⟩ := layout_54 (K := 0xFC600010) (m := 63) (c0 := 6) (c1 := 1) (x0 := sa) (x1 := n) rfl (by decide) (by omega) (by omega) (by decide) (by decide)
  change 0xFC600010 + sa * 16384 + n < 2 ^ 32 ∧ decodeFields (0xFC600010 + sa * 16384 + n) = _
  revert hw hm c0 c1 e_sa e_n
  generalize 0xFC600010 + sa * 16384 + n = w
  intro hw hm c0 c1 e_sa e_n
  refine ⟨hw, ?_⟩
  simp only [decodeFields, hm, major3F, c0, bitAt_of (b := true) c1, if_true, e_sa, e_n]
theorem RoundTrip.logSlabGrant (core : Nat) (slot : Nat) : RoundTrip.Statement (.logSlabGrant core slot) := fun h => Bool.noConfusion h
theorem RoundTrip.tend : RoundTrip.Statement .tend := fun _ _ => by decide
theorem RoundTrip.groupCommit (core : Nat) (slot : Nat) (region : Nat) : RoundTrip.Statement (.groupCommit core slot region) := fun h => Bool.noConfusion h
theorem RoundTrip.commitTokenGrant (die : Nat) (core : Nat) (slot : Nat) : RoundTrip.Statement (.commitTokenGrant die core slot) := fun h => Bool.noConfusion h
theorem RoundTrip.orderedBatchCommit (core : Nat) (slot : Nat) (region : Nat) : RoundTrip.Statement (.orderedBatchCommit core slot region) := fun h => Bool.noConfusion h
theorem RoundTrip.txBackoffExpiry (core : Nat) (slot : Nat) (seq : Nat) : RoundTrip.Statement (.txBackoffExpiry core slot seq) := fun h => Bool.noConfusion h
theorem RoundTrip.txPeriodicValidation (core : Nat) (slot : Nat) (lane : Nat) : RoundTrip.Statement (.txPeriodicValidation core slot lane) := fun h => Bool.noConfusion h
theorem RoundTrip.fallbackTokenGrant (core : Nat) (slot : Nat) (lane : Nat) : RoundTrip.Statement (.fallbackTokenGrant core slot lane) := fun h => Bool.noConfusion h
theorem RoundTrip.tabt (code : Nat) : RoundTrip.Statement (.tabt code) := by
  intro _ h
  change (decide (code < 256)) = true at h
  simp only [decide_eq_true_eq] at h
  obtain ⟨hw, hm, c0, e_code⟩ := layout_13 (K := 0xFC800000) (m := 63) (c0 := 8) (x0 := code) rfl (by decide) (by omega) (by decide)
  change 0xFC800000 + code < 2 ^ 32 ∧ decodeFields (0xFC800000 + code) = _
  revert hw hm c0 e_code
  generalize 0xFC800000 + code = w
  intro hw hm c0 e_code
  refine ⟨hw, ?_⟩
  simp only [decodeFields, hm, major3F, c0, e_code]
theorem RoundTrip.tstat (sa : Nat) (sel : Nat) : RoundTrip.Statement (.tstat sa sel) := by
  intro _ h
  change (decide (sa < 64) && decide (sel < 4) && decide (sel ≤ 3)) = true at h
  simp only [Bool.and_eq_true, decide_eq_true_eq] at h
  obtain ⟨hw, hm, c0, e_sa, e_sel⟩ := layout_48 (K := 0xFC900000) (m := 63) (c0 := 9) (x0 := sa) (x1 := sel) rfl (by decide) (by omega) (by omega) (by decide)
  change 0xFC900000 + sa * 16384 + sel < 2 ^ 32 ∧ decodeFields (0xFC900000 + sa * 16384 + sel) = _
  revert hw hm c0 e_sa e_sel
  generalize 0xFC900000 + sa * 16384 + sel = w
  intro hw hm c0 e_sa e_sel
  refine ⟨hw, ?_⟩
  simp only [decodeFields, hm, major3F, c0, e_sa, e_sel]
theorem RoundTrip.tord (sa : Nat) (sb : Nat) (n : Nat) : RoundTrip.Statement (.tord sa sb n) := by
  intro _ h
  change (decide (sa < 64) && decide (sb < 64) && decide (n < 16) && n != 0) = true at h
  simp only [Bool.and_eq_true, decide_eq_true_eq] at h
  obtain ⟨hw, hm, c0, e_sa, e_sb, e_n⟩ := layout_55 (K := 0xFCA00000) (m := 63) (c0 := 10) (x0 := sa) (x1 := sb) (x2 := n) rfl (by decide) (by omega) (by omega) (by omega) (by decide)
  change 0xFCA00000 + sa * 16384 + sb * 256 + n < 2 ^ 32 ∧ decodeFields (0xFCA00000 + sa * 16384 + sb * 256 + n) = _
  revert hw hm c0 e_sa e_sb e_n
  generalize 0xFCA00000 + sa * 16384 + sb * 256 + n = w
  intro hw hm c0 e_sa e_sb e_n
  refine ⟨hw, ?_⟩
  simp only [decodeFields, hm, major3F, c0, e_sa, e_sb, e_n]
theorem RoundTrip.ecmd (sa : Nat) (sb : Nat) (guard : Bool) (k : Nat) : RoundTrip.Statement (.ecmd sa sb guard k) := by
  intro _ h
  change (decide (sa < 64) && decide (sb < 64) && decide (k < 16) && (guard || k == 0)) = true at h
  simp only [Bool.and_eq_true, decide_eq_true_eq] at h
  obtain ⟨hw, hm, c0, e_sa, e_sb, e_guard, e_k⟩ := layout_56 (K := 0xFCB00000) (m := 63) (c0 := 11) (x0 := sa) (x1 := sb) (x2 := guard.toNat) (x3 := k) rfl (by decide) (by omega) (by omega) (bit_lt guard) (by omega) (by decide)
  change 0xFCB00000 + sa * 16384 + sb * 256 + guard.toNat * 16 + k < 2 ^ 32 ∧ decodeFields (0xFCB00000 + sa * 16384 + sb * 256 + guard.toNat * 16 + k) = _
  revert hw hm c0 e_sa e_sb e_guard e_k
  generalize 0xFCB00000 + sa * 16384 + sb * 256 + guard.toNat * 16 + k = w
  intro hw hm c0 e_sa e_sb e_guard e_k
  refine ⟨hw, ?_⟩
  simp only [decodeFields, hm, major3F, c0, e_sa, e_sb, bitAt_of e_guard, e_k]
theorem RoundTrip.ewait (sa : Nat) (sb : Nat) : RoundTrip.Statement (.ewait sa sb) := by
  intro _ h
  change (decide (sa < 64) && decide (sb < 64)) = true at h
  simp only [Bool.and_eq_true, decide_eq_true_eq] at h
  obtain ⟨hw, hm, c0, e_sa, e_sb⟩ := layout_12 (K := 0xFCC00000) (m := 63) (c0 := 12) (x0 := sa) (x1 := sb) rfl (by decide) (by omega) (by omega) (by decide)
  change 0xFCC00000 + sa * 16384 + sb * 256 < 2 ^ 32 ∧ decodeFields (0xFCC00000 + sa * 16384 + sb * 256) = _
  revert hw hm c0 e_sa e_sb
  generalize 0xFCC00000 + sa * 16384 + sb * 256 = w
  intro hw hm c0 e_sa e_sb
  refine ⟨hw, ?_⟩
  simp only [decodeFields, hm, major3F, c0, e_sa, e_sb]
theorem RoundTrip.eyield (sa : Nat) (sb : Nat) : RoundTrip.Statement (.eyield sa sb) := by
  intro _ h
  change (decide (sa < 64) && decide (sb < 64)) = true at h
  simp only [Bool.and_eq_true, decide_eq_true_eq] at h
  obtain ⟨hw, hm, c0, e_sa, e_sb⟩ := layout_12 (K := 0xFCD00000) (m := 63) (c0 := 13) (x0 := sa) (x1 := sb) rfl (by decide) (by omega) (by omega) (by decide)
  change 0xFCD00000 + sa * 16384 + sb * 256 < 2 ^ 32 ∧ decodeFields (0xFCD00000 + sa * 16384 + sb * 256) = _
  revert hw hm c0 e_sa e_sb
  generalize 0xFCD00000 + sa * 16384 + sb * 256 = w
  intro hw hm c0 e_sa e_sb
  refine ⟨hw, ?_⟩
  simp only [decodeFields, hm, major3F, c0, e_sa, e_sb]
theorem RoundTrip.eyieldResume (core : Nat) (slot : Nat) (seq : Nat) : RoundTrip.Statement (.eyieldResume core slot seq) := fun h => Bool.noConfusion h
theorem RoundTrip.eguard (k : Nat) : RoundTrip.Statement (.eguard k) := by
  intro _ h
  change (decide (k < 16)) = true at h
  simp only [decide_eq_true_eq] at h
  obtain ⟨hw, hm, c0, e_k⟩ := layout_57 (K := 0xFCE00000) (m := 63) (c0 := 14) (x0 := k) rfl (by decide) (by omega) (by decide)
  change 0xFCE00000 + k < 2 ^ 32 ∧ decodeFields (0xFCE00000 + k) = _
  revert hw hm c0 e_k
  generalize 0xFCE00000 + k = w
  intro hw hm c0 e_k
  refine ⟨hw, ?_⟩
  simp only [decodeFields, hm, major3F, c0, e_k]
theorem RoundTrip.gres (sa : Nat) (k : Nat) : RoundTrip.Statement (.gres sa k) := by
  intro _ h
  change (decide (sa < 64) && decide (k < 16)) = true at h
  simp only [Bool.and_eq_true, decide_eq_true_eq] at h
  obtain ⟨hw, hm, c0, e_sa, e_k⟩ := layout_58 (K := 0xFCF00000) (m := 63) (c0 := 15) (x0 := sa) (x1 := k) rfl (by decide) (by omega) (by omega) (by decide)
  change 0xFCF00000 + sa * 16384 + k < 2 ^ 32 ∧ decodeFields (0xFCF00000 + sa * 16384 + k) = _
  revert hw hm c0 e_sa e_k
  generalize 0xFCF00000 + sa * 16384 + k = w
  intro hw hm c0 e_sa e_k
  refine ⟨hw, ?_⟩
  simp only [decodeFields, hm, major3F, c0, e_sa, e_k]
theorem RoundTrip.ecopy (sa : Nat) (sn : Nat) (guard : Bool) (k : Nat) : RoundTrip.Statement (.ecopy sa sn guard k) := by
  intro _ h
  change (decide (sa < 64) && decide (sn < 64) && decide (k < 16) && (guard || k == 0) && sn % 4 == 0 && sn != 0) = true at h
  simp only [Bool.and_eq_true, decide_eq_true_eq] at h
  obtain ⟨hw, hm, c0, e_sa, e_sn, e_guard, e_k⟩ := layout_56 (K := 0xFD000000) (m := 63) (c0 := 16) (x0 := sa) (x1 := sn) (x2 := guard.toNat) (x3 := k) rfl (by decide) (by omega) (by omega) (bit_lt guard) (by omega) (by decide)
  change 0xFD000000 + sa * 16384 + sn * 256 + guard.toNat * 16 + k < 2 ^ 32 ∧ decodeFields (0xFD000000 + sa * 16384 + sn * 256 + guard.toNat * 16 + k) = _
  revert hw hm c0 e_sa e_sn e_guard e_k
  generalize 0xFD000000 + sa * 16384 + sn * 256 + guard.toNat * 16 + k = w
  intro hw hm c0 e_sa e_sn e_guard e_k
  refine ⟨hw, ?_⟩
  simp only [decodeFields, hm, major3F, c0, e_sa, e_sn, bitAt_of e_guard, e_k]
theorem RoundTrip.rrot (sa : Nat) (sb : Nat) (guard : Bool) (k : Nat) : RoundTrip.Statement (.rrot sa sb guard k) := by
  intro _ h
  change (decide (sa < 64) && decide (sb < 64) && decide (k < 16) && (guard || k == 0)) = true at h
  simp only [Bool.and_eq_true, decide_eq_true_eq] at h
  obtain ⟨hw, hm, c0, e_sa, e_sb, e_guard, e_k⟩ := layout_56 (K := 0xFD100000) (m := 63) (c0 := 17) (x0 := sa) (x1 := sb) (x2 := guard.toNat) (x3 := k) rfl (by decide) (by omega) (by omega) (bit_lt guard) (by omega) (by decide)
  change 0xFD100000 + sa * 16384 + sb * 256 + guard.toNat * 16 + k < 2 ^ 32 ∧ decodeFields (0xFD100000 + sa * 16384 + sb * 256 + guard.toNat * 16 + k) = _
  revert hw hm c0 e_sa e_sb e_guard e_k
  generalize 0xFD100000 + sa * 16384 + sb * 256 + guard.toNat * 16 + k = w
  intro hw hm c0 e_sa e_sb e_guard e_k
  refine ⟨hw, ?_⟩
  simp only [decodeFields, hm, major3F, c0, e_sa, e_sb, bitAt_of e_guard, e_k]
theorem RoundTrip.ecoll (sa : Nat) (sn : Nat) (guard : Bool) (k : Nat) : RoundTrip.Statement (.ecoll sa sn guard k) := by
  intro _ h
  change (decide (sa < 64) && decide (sn < 64) && decide (k < 16) && (guard || k == 0) && sn % 2 == 0) = true at h
  simp only [Bool.and_eq_true, decide_eq_true_eq] at h
  obtain ⟨hw, hm, c0, e_sa, e_sn, e_guard, e_k⟩ := layout_56 (K := 0xFD200000) (m := 63) (c0 := 18) (x0 := sa) (x1 := sn) (x2 := guard.toNat) (x3 := k) rfl (by decide) (by omega) (by omega) (bit_lt guard) (by omega) (by decide)
  change 0xFD200000 + sa * 16384 + sn * 256 + guard.toNat * 16 + k < 2 ^ 32 ∧ decodeFields (0xFD200000 + sa * 16384 + sn * 256 + guard.toNat * 16 + k) = _
  revert hw hm c0 e_sa e_sn e_guard e_k
  generalize 0xFD200000 + sa * 16384 + sn * 256 + guard.toNat * 16 + k = w
  intro hw hm c0 e_sa e_sn e_guard e_k
  refine ⟨hw, ?_⟩
  simp only [decodeFields, hm, major3F, c0, e_sa, e_sn, bitAt_of e_guard, e_k]
theorem RoundTrip.rebal (sa : Nat) (sb : Nat) (ptrs : Bool) (vs : Nat) : RoundTrip.Statement (.rebal sa sb ptrs vs) := by
  intro _ h
  change (decide (sa < 64) && decide (sb < 64) && decide (vs < 128)) = true at h
  simp only [Bool.and_eq_true, decide_eq_true_eq] at h
  obtain ⟨hw, hm, c0, e_sa, e_sb, e_ptrs, e_vs⟩ := layout_59 (K := 0xFD300000) (m := 63) (c0 := 19) (x0 := sa) (x1 := sb) (x2 := ptrs.toNat) (x3 := vs) rfl (by decide) (by omega) (by omega) (bit_lt ptrs) (by omega) (by decide)
  change 0xFD300000 + sa * 16384 + sb * 256 + ptrs.toNat * 128 + vs < 2 ^ 32 ∧ decodeFields (0xFD300000 + sa * 16384 + sb * 256 + ptrs.toNat * 128 + vs) = _
  revert hw hm c0 e_sa e_sb e_ptrs e_vs
  generalize 0xFD300000 + sa * 16384 + sb * 256 + ptrs.toNat * 128 + vs = w
  intro hw hm c0 e_sa e_sb e_ptrs e_vs
  refine ⟨hw, ?_⟩
  simp only [decodeFields, hm, major3F, c0, e_sa, e_sb, bitAt_of e_ptrs, e_vs]
theorem RoundTrip.resort (sa : Nat) (vk : Nat) : RoundTrip.Statement (.resort sa vk) := by
  intro _ h
  change (decide (sa < 64) && decide (vk < 128) && sa % 2 == 0) = true at h
  simp only [Bool.and_eq_true, decide_eq_true_eq] at h
  obtain ⟨hw, hm, c0, e_sa, e_vk⟩ := layout_60 (K := 0xFD400000) (m := 63) (c0 := 20) (x0 := sa) (x1 := vk) rfl (by decide) (by omega) (by omega) (by decide)
  change 0xFD400000 + sa * 16384 + vk < 2 ^ 32 ∧ decodeFields (0xFD400000 + sa * 16384 + vk) = _
  revert hw hm c0 e_sa e_vk
  generalize 0xFD400000 + sa * 16384 + vk = w
  intro hw hm c0 e_sa e_vk
  refine ⟨hw, ?_⟩
  simp only [decodeFields, hm, major3F, c0, e_sa, e_vk]
theorem RoundTrip.tdescTWrite (sa : Nat) (sb : Nat) (t : Nat) : RoundTrip.Statement (.tdescTWrite sa sb t) := by
  intro _ h
  change (decide (sa < 64) && decide (sb < 64) && decide (t < 8)) = true at h
  simp only [Bool.and_eq_true, decide_eq_true_eq] at h
  obtain ⟨hw, hm, c0, c1, c2, e_sa, e_sb, e_t⟩ := layout_61 (K := 0xFD500000) (m := 63) (c0 := 21) (c1 := 0) (c2 := 0) (x0 := sa) (x1 := sb) (x2 := t) rfl (by decide) (by omega) (by omega) (by omega) (by decide) (by decide) (by decide)
  change 0xFD500000 + sa * 16384 + sb * 256 + t < 2 ^ 32 ∧ decodeFields (0xFD500000 + sa * 16384 + sb * 256 + t) = _
  revert hw hm c0 c1 c2 e_sa e_sb e_t
  generalize 0xFD500000 + sa * 16384 + sb * 256 + t = w
  intro hw hm c0 c1 c2 e_sa e_sb e_t
  refine ⟨hw, ?_⟩
  simp only [decodeFields, hm, major3F, c0, bitAt_of (b := false) c1, bitAt_of (b := false) c2, Bool.false_eq_true, if_false, e_sa, e_sb, e_t]
theorem RoundTrip.tdescTRead (sa : Nat) (sb : Nat) (t : Nat) : RoundTrip.Statement (.tdescTRead sa sb t) := by
  intro _ h
  change (decide (sa < 64) && decide (sb < 64) && decide (t < 8)) = true at h
  simp only [Bool.and_eq_true, decide_eq_true_eq] at h
  obtain ⟨hw, hm, c0, c1, c2, e_sa, e_sb, e_t⟩ := layout_61 (K := 0xFD500008) (m := 63) (c0 := 21) (c1 := 0) (c2 := 1) (x0 := sa) (x1 := sb) (x2 := t) rfl (by decide) (by omega) (by omega) (by omega) (by decide) (by decide) (by decide)
  change 0xFD500008 + sa * 16384 + sb * 256 + t < 2 ^ 32 ∧ decodeFields (0xFD500008 + sa * 16384 + sb * 256 + t) = _
  revert hw hm c0 c1 c2 e_sa e_sb e_t
  generalize 0xFD500008 + sa * 16384 + sb * 256 + t = w
  intro hw hm c0 c1 c2 e_sa e_sb e_t
  refine ⟨hw, ?_⟩
  simp only [decodeFields, hm, major3F, c0, bitAt_of (b := false) c1, bitAt_of (b := true) c2, Bool.false_eq_true, if_false, if_true, e_sa, e_sb, e_t]
theorem RoundTrip.tdescAWrite (sa : Nat) (acc : Nat) : RoundTrip.Statement (.tdescAWrite sa acc) := by
  intro _ h
  change (decide (sa < 64) && decide (acc < 8)) = true at h
  simp only [Bool.and_eq_true, decide_eq_true_eq] at h
  obtain ⟨hw, hm, c0, c1, c2, e_sa, e_acc⟩ := layout_62 (K := 0xFD500010) (m := 63) (c0 := 21) (c1 := 1) (c2 := 0) (x0 := sa) (x1 := acc) rfl (by decide) (by omega) (by omega) (by decide) (by decide) (by decide)
  change 0xFD500010 + sa * 16384 + acc < 2 ^ 32 ∧ decodeFields (0xFD500010 + sa * 16384 + acc) = _
  revert hw hm c0 c1 c2 e_sa e_acc
  generalize 0xFD500010 + sa * 16384 + acc = w
  intro hw hm c0 c1 c2 e_sa e_acc
  refine ⟨hw, ?_⟩
  simp only [decodeFields, hm, major3F, c0, bitAt_of (b := true) c1, bitAt_of (b := false) c2, Bool.false_eq_true, if_false, if_true, e_sa, e_acc]
theorem RoundTrip.tdescARead (sa : Nat) (acc : Nat) : RoundTrip.Statement (.tdescARead sa acc) := by
  intro _ h
  change (decide (sa < 64) && decide (acc < 8)) = true at h
  simp only [Bool.and_eq_true, decide_eq_true_eq] at h
  obtain ⟨hw, hm, c0, c1, c2, e_sa, e_acc⟩ := layout_62 (K := 0xFD500018) (m := 63) (c0 := 21) (c1 := 1) (c2 := 1) (x0 := sa) (x1 := acc) rfl (by decide) (by omega) (by omega) (by decide) (by decide) (by decide)
  change 0xFD500018 + sa * 16384 + acc < 2 ^ 32 ∧ decodeFields (0xFD500018 + sa * 16384 + acc) = _
  revert hw hm c0 c1 c2 e_sa e_acc
  generalize 0xFD500018 + sa * 16384 + acc = w
  intro hw hm c0 c1 c2 e_sa e_acc
  refine ⟨hw, ?_⟩
  simp only [decodeFields, hm, major3F, c0, bitAt_of (b := true) c1, bitAt_of (b := true) c2, if_true, e_sa, e_acc]
theorem RoundTrip.mwld (sa : Nat) (sub : Nat) (tb : Nat) : RoundTrip.Statement (.mwld sa sub tb) := by
  intro _ h
  change (decide (sa < 64) && decide (sub < 4) && decide (tb < 8)) = true at h
  simp only [Bool.and_eq_true, decide_eq_true_eq] at h
  obtain ⟨hw, hm, c0, e_sa, e_sub, e_tb⟩ := layout_63 (K := 0xFD600000) (m := 63) (c0 := 22) (x0 := sa) (x1 := sub) (x2 := tb) rfl (by decide) (by omega) (by omega) (by omega) (by decide)
  change 0xFD600000 + sa * 16384 + sub * 64 + tb < 2 ^ 32 ∧ decodeFields (0xFD600000 + sa * 16384 + sub * 64 + tb) = _
  revert hw hm c0 e_sa e_sub e_tb
  generalize 0xFD600000 + sa * 16384 + sub * 64 + tb = w
  intro hw hm c0 e_sa e_sub e_tb
  refine ⟨hw, ?_⟩
  simp only [decodeFields, hm, major3F, c0, e_sa, e_sub, e_tb]
theorem RoundTrip.mloop (sa : Nat) (sb : Nat) (sub : Nat) (ta : Nat) (tb : Nat) : RoundTrip.Statement (.mloop sa sb sub ta tb) := by
  intro _ h
  change (decide (sa < 64) && decide (sb < 64) && decide (sub < 4) && decide (ta < 8) && decide (tb < 8)) = true at h
  simp only [Bool.and_eq_true, decide_eq_true_eq] at h
  obtain ⟨hw, hm, c0, e_sa, e_sb, e_sub, e_ta, e_tb⟩ := layout_64 (K := 0xFD700000) (m := 63) (c0 := 23) (x0 := sa) (x1 := sb) (x2 := sub) (x3 := ta) (x4 := tb) rfl (by decide) (by omega) (by omega) (by omega) (by omega) (by omega) (by decide)
  change 0xFD700000 + sa * 16384 + sb * 256 + sub * 64 + ta * 8 + tb < 2 ^ 32 ∧ decodeFields (0xFD700000 + sa * 16384 + sb * 256 + sub * 64 + ta * 8 + tb) = _
  revert hw hm c0 e_sa e_sb e_sub e_ta e_tb
  generalize 0xFD700000 + sa * 16384 + sb * 256 + sub * 64 + ta * 8 + tb = w
  intro hw hm c0 e_sa e_sb e_sub e_ta e_tb
  refine ⟨hw, ?_⟩
  simp only [decodeFields, hm, major3F, c0, e_sa, e_sb, e_sub, e_ta, e_tb]
theorem RoundTrip.mzero (sa : Nat) (sub : Nat) (acc : Nat) : RoundTrip.Statement (.mzero sa sub acc) := by
  intro _ h
  change (decide (sa < 64) && decide (sub < 4) && decide (acc < 8)) = true at h
  simp only [Bool.and_eq_true, decide_eq_true_eq] at h
  obtain ⟨hw, hm, c0, e_sa, e_sub, e_acc⟩ := layout_63 (K := 0xFD800000) (m := 63) (c0 := 24) (x0 := sa) (x1 := sub) (x2 := acc) rfl (by decide) (by omega) (by omega) (by omega) (by decide)
  change 0xFD800000 + sa * 16384 + sub * 64 + acc < 2 ^ 32 ∧ decodeFields (0xFD800000 + sa * 16384 + sub * 64 + acc) = _
  revert hw hm c0 e_sa e_sub e_acc
  generalize 0xFD800000 + sa * 16384 + sub * 64 + acc = w
  intro hw hm c0 e_sa e_sub e_acc
  refine ⟨hw, ?_⟩
  simp only [decodeFields, hm, major3F, c0, e_sa, e_sub, e_acc]
theorem RoundTrip.mget (sa : Nat) (sub : Nat) (t : Nat) (acc : Nat) : RoundTrip.Statement (.mget sa sub t acc) := by
  intro _ h
  change (decide (sa < 64) && decide (sub < 4) && decide (t < 8) && decide (acc < 8)) = true at h
  simp only [Bool.and_eq_true, decide_eq_true_eq] at h
  obtain ⟨hw, hm, c0, e_sa, e_sub, e_t, e_acc⟩ := layout_65 (K := 0xFD900000) (m := 63) (c0 := 25) (x0 := sa) (x1 := sub) (x2 := t) (x3 := acc) rfl (by decide) (by omega) (by omega) (by omega) (by omega) (by decide)
  change 0xFD900000 + sa * 16384 + sub * 64 + t * 8 + acc < 2 ^ 32 ∧ decodeFields (0xFD900000 + sa * 16384 + sub * 64 + t * 8 + acc) = _
  revert hw hm c0 e_sa e_sub e_t e_acc
  generalize 0xFD900000 + sa * 16384 + sub * 64 + t * 8 + acc = w
  intro hw hm c0 e_sa e_sub e_t e_acc
  refine ⟨hw, ?_⟩
  simp only [decodeFields, hm, major3F, c0, e_sa, e_sub, e_t, e_acc]
theorem RoundTrip.mput (sa : Nat) (sub : Nat) (t : Nat) (acc : Nat) : RoundTrip.Statement (.mput sa sub t acc) := by
  intro _ h
  change (decide (sa < 64) && decide (sub < 4) && decide (t < 8) && decide (acc < 8)) = true at h
  simp only [Bool.and_eq_true, decide_eq_true_eq] at h
  obtain ⟨hw, hm, c0, e_sa, e_sub, e_t, e_acc⟩ := layout_65 (K := 0xFDA00000) (m := 63) (c0 := 26) (x0 := sa) (x1 := sub) (x2 := t) (x3 := acc) rfl (by decide) (by omega) (by omega) (by omega) (by omega) (by decide)
  change 0xFDA00000 + sa * 16384 + sub * 64 + t * 8 + acc < 2 ^ 32 ∧ decodeFields (0xFDA00000 + sa * 16384 + sub * 64 + t * 8 + acc) = _
  revert hw hm c0 e_sa e_sub e_t e_acc
  generalize 0xFDA00000 + sa * 16384 + sub * 64 + t * 8 + acc = w
  intro hw hm c0 e_sa e_sub e_t e_acc
  refine ⟨hw, ?_⟩
  simp only [decodeFields, hm, major3F, c0, e_sa, e_sub, e_t, e_acc]
theorem RoundTrip.mstore (sa : Nat) (sub : Nat) (t : Nat) (acc : Nat) : RoundTrip.Statement (.mstore sa sub t acc) := by
  intro _ h
  change (decide (sa < 64) && decide (sub < 4) && decide (t < 8) && decide (acc < 8)) = true at h
  simp only [Bool.and_eq_true, decide_eq_true_eq] at h
  obtain ⟨hw, hm, c0, e_sa, e_sub, e_t, e_acc⟩ := layout_65 (K := 0xFDB00000) (m := 63) (c0 := 27) (x0 := sa) (x1 := sub) (x2 := t) (x3 := acc) rfl (by decide) (by omega) (by omega) (by omega) (by omega) (by decide)
  change 0xFDB00000 + sa * 16384 + sub * 64 + t * 8 + acc < 2 ^ 32 ∧ decodeFields (0xFDB00000 + sa * 16384 + sub * 64 + t * 8 + acc) = _
  revert hw hm c0 e_sa e_sub e_t e_acc
  generalize 0xFDB00000 + sa * 16384 + sub * 64 + t * 8 + acc = w
  intro hw hm c0 e_sa e_sub e_t e_acc
  refine ⟨hw, ?_⟩
  simp only [decodeFields, hm, major3F, c0, e_sa, e_sub, e_t, e_acc]
theorem RoundTrip.subarrayGrant (cluster : Nat) (sub : Nat) : RoundTrip.Statement (.subarrayGrant cluster sub) := fun h => Bool.noConfusion h
theorem RoundTrip.matrixPassDone (cluster : Nat) (sub : Nat) : RoundTrip.Statement (.matrixPassDone cluster sub) := fun h => Bool.noConfusion h
theorem RoundTrip.rfe : RoundTrip.Statement .rfe := fun _ _ => by decide
theorem RoundTrip.tlbi (sa : Nat) (sb : Nat) (kind : Nat) : RoundTrip.Statement (.tlbi sa sb kind) := by
  intro _ h
  change (decide (sa < 64) && decide (sb < 64) && decide (kind < 256) && decide (kind ≤ 3)) = true at h
  simp only [Bool.and_eq_true, decide_eq_true_eq] at h
  obtain ⟨hw, hm, c0, e_sa, e_sb, e_kind⟩ := layout_66 (K := 0xFDD00000) (m := 63) (c0 := 29) (x0 := sa) (x1 := sb) (x2 := kind) rfl (by decide) (by omega) (by omega) (by omega) (by decide)
  change 0xFDD00000 + sa * 16384 + sb * 256 + kind < 2 ^ 32 ∧ decodeFields (0xFDD00000 + sa * 16384 + sb * 256 + kind) = _
  revert hw hm c0 e_sa e_sb e_kind
  generalize 0xFDD00000 + sa * 16384 + sb * 256 + kind = w
  intro hw hm c0 e_sa e_sb e_kind
  refine ⟨hw, ?_⟩
  simp only [decodeFields, hm, major3F, c0, e_sa, e_sb, e_kind]
theorem RoundTrip.tlbiComplete (core : Nat) (slot : Nat) : RoundTrip.Statement (.tlbiComplete core slot) := fun h => Bool.noConfusion h
theorem RoundTrip.ctxsv (sa : Nat) (sb : Nat) : RoundTrip.Statement (.ctxsv sa sb) := by
  intro _ h
  change (decide (sa < 64) && decide (sb < 64)) = true at h
  simp only [Bool.and_eq_true, decide_eq_true_eq] at h
  obtain ⟨hw, hm, c0, e_sa, e_sb⟩ := layout_12 (K := 0xFDE00000) (m := 63) (c0 := 30) (x0 := sa) (x1 := sb) rfl (by decide) (by omega) (by omega) (by decide)
  change 0xFDE00000 + sa * 16384 + sb * 256 < 2 ^ 32 ∧ decodeFields (0xFDE00000 + sa * 16384 + sb * 256) = _
  revert hw hm c0 e_sa e_sb
  generalize 0xFDE00000 + sa * 16384 + sb * 256 = w
  intro hw hm c0 e_sa e_sb
  refine ⟨hw, ?_⟩
  simp only [decodeFields, hm, major3F, c0, e_sa, e_sb]
theorem RoundTrip.ctxld (sa : Nat) (sb : Nat) : RoundTrip.Statement (.ctxld sa sb) := by
  intro _ h
  change (decide (sa < 64) && decide (sb < 64)) = true at h
  simp only [Bool.and_eq_true, decide_eq_true_eq] at h
  obtain ⟨hw, hm, c0, e_sa, e_sb⟩ := layout_12 (K := 0xFDF00000) (m := 63) (c0 := 31) (x0 := sa) (x1 := sb) rfl (by decide) (by omega) (by omega) (by decide)
  change 0xFDF00000 + sa * 16384 + sb * 256 < 2 ^ 32 ∧ decodeFields (0xFDF00000 + sa * 16384 + sb * 256) = _
  revert hw hm c0 e_sa e_sb
  generalize 0xFDF00000 + sa * 16384 + sb * 256 = w
  intro hw hm c0 e_sa e_sb
  refine ⟨hw, ?_⟩
  simp only [decodeFields, hm, major3F, c0, e_sa, e_sb]
theorem RoundTrip.sysc (sa : Nat) (sb : Nat) (cls : Nat) : RoundTrip.Statement (.sysc sa sb cls) := by
  intro _ h
  change (decide (sa < 64) && decide (sb < 64) && decide (cls < 256)) = true at h
  simp only [Bool.and_eq_true, decide_eq_true_eq] at h
  obtain ⟨hw, hm, c0, e_sa, e_sb, e_cls⟩ := layout_66 (K := 0xFE000000) (m := 63) (c0 := 32) (x0 := sa) (x1 := sb) (x2 := cls) rfl (by decide) (by omega) (by omega) (by omega) (by decide)
  change 0xFE000000 + sa * 16384 + sb * 256 + cls < 2 ^ 32 ∧ decodeFields (0xFE000000 + sa * 16384 + sb * 256 + cls) = _
  revert hw hm c0 e_sa e_sb e_cls
  generalize 0xFE000000 + sa * 16384 + sb * 256 + cls = w
  intro hw hm c0 e_sa e_sb e_cls
  refine ⟨hw, ?_⟩
  simp only [decodeFields, hm, major3F, c0, e_sa, e_sb, e_cls]
theorem RoundTrip.syscMailArrival (die : Nat) (src : Nat) (cls : Nat) (body : List Byte) : RoundTrip.Statement (.syscMailArrival die src cls body) := fun h => Bool.noConfusion h
theorem RoundTrip.dump (sa : Nat) (sb : Nat) : RoundTrip.Statement (.dump sa sb) := by
  intro _ h
  change (decide (sa < 64) && decide (sb < 64) && sa % 2 == 0) = true at h
  simp only [Bool.and_eq_true, decide_eq_true_eq] at h
  obtain ⟨hw, hm, c0, e_sa, e_sb⟩ := layout_12 (K := 0xFE100000) (m := 63) (c0 := 33) (x0 := sa) (x1 := sb) rfl (by decide) (by omega) (by omega) (by decide)
  change 0xFE100000 + sa * 16384 + sb * 256 < 2 ^ 32 ∧ decodeFields (0xFE100000 + sa * 16384 + sb * 256) = _
  revert hw hm c0 e_sa e_sb
  generalize 0xFE100000 + sa * 16384 + sb * 256 = w
  intro hw hm c0 e_sa e_sb
  refine ⟨hw, ?_⟩
  simp only [decodeFields, hm, major3F, c0, e_sa, e_sb]
theorem RoundTrip.dumpTimeLimit (core : Nat) : RoundTrip.Statement (.dumpTimeLimit core) := fun h => Bool.noConfusion h
theorem RoundTrip.mwaitWake (core : Nat) (slot : Nat) (seq : Nat) : RoundTrip.Statement (.mwaitWake core slot seq) := fun h => Bool.noConfusion h
theorem RoundTrip.mwaitTimeLimit (core : Nat) (slot : Nat) (seq : Nat) : RoundTrip.Statement (.mwaitTimeLimit core slot seq) := fun h => Bool.noConfusion h
theorem RoundTrip.loadDataReturn (core : Nat) (slot : Nat) : RoundTrip.Statement (.loadDataReturn core slot) := fun h => Bool.noConfusion h
theorem RoundTrip.pageWalkDone (die : Nat) (asid : Nat) (va : W64) : RoundTrip.Statement (.pageWalkDone die asid va) := fun h => Bool.noConfusion h
theorem RoundTrip.dirLoadRequest (core : Nat) (pa : Nat) (tag : Tag) (upd : Bool) : RoundTrip.Statement (.dirLoadRequest core pa tag upd) := fun h => Bool.noConfusion h
theorem RoundTrip.dirUpgradeRequest (core : Nat) (pa : Nat) (tag : Tag) : RoundTrip.Statement (.dirUpgradeRequest core pa tag) := fun h => Bool.noConfusion h
theorem RoundTrip.dirStoreRequest (core : Nat) (pa : Nat) (data : List Byte) : RoundTrip.Statement (.dirStoreRequest core pa data) := fun h => Bool.noConfusion h
theorem RoundTrip.sliceWrite (pa : Nat) (data : List Byte) : RoundTrip.Statement (.sliceWrite pa data) := fun h => Bool.noConfusion h
theorem RoundTrip.ownerWriteback (core : Nat) (pa : Nat) : RoundTrip.Statement (.ownerWriteback core pa) := fun h => Bool.noConfusion h
theorem RoundTrip.recallArrival (core : Nat) (pa : Nat) (downgrade : Bool) : RoundTrip.Statement (.recallArrival core pa downgrade) := fun h => Bool.noConfusion h
theorem RoundTrip.l1InvalidateArrival (core : Nat) (pa : Nat) (tag : Tag) : RoundTrip.Statement (.l1InvalidateArrival core pa tag) := fun h => Bool.noConfusion h
theorem RoundTrip.l1UpdateArrival (core : Nat) (pa : Nat) (tag : Tag) : RoundTrip.Statement (.l1UpdateArrival core pa tag) := fun h => Bool.noConfusion h
theorem RoundTrip.sharerAckArrival (pa : Nat) : RoundTrip.Statement (.sharerAckArrival pa) := fun h => Bool.noConfusion h
theorem RoundTrip.vatUnitIntake (die : Nat) (cluster : Nat) : RoundTrip.Statement (.vatUnitIntake die cluster) := fun h => Bool.noConfusion h
theorem RoundTrip.mergedRead (pa : Nat) (size : Nat) : RoundTrip.Statement (.mergedRead pa size) := fun h => Bool.noConfusion h
theorem RoundTrip.pressDone (wheel : Nat) : RoundTrip.Statement (.pressDone wheel) := fun h => Bool.noConfusion h
theorem RoundTrip.remoteRequestArrival (src : Nat) (op : Nat) (pa : Nat) (size : Nat) (tag : Tag) (data : List Byte) : RoundTrip.Statement (.remoteRequestArrival src op pa size tag data) := fun h => Bool.noConfusion h
theorem RoundTrip.remoteFillArrival (wheel : Nat) (tag : Tag) (data : List Byte) : RoundTrip.Statement (.remoteFillArrival wheel tag data) := fun h => Bool.noConfusion h
theorem RoundTrip.wheelInvalidateArrival (wheel : Nat) : RoundTrip.Statement (.wheelInvalidateArrival wheel) := fun h => Bool.noConfusion h
theorem RoundTrip.fabricTimeoutExpiry (req : Nat) : RoundTrip.Statement (.fabricTimeoutExpiry req) := fun h => Bool.noConfusion h
theorem RoundTrip.fabricErrorCompletion (req : Nat) : RoundTrip.Statement (.fabricErrorCompletion req) := fun h => Bool.noConfusion h
theorem RoundTrip.invalAckTimeout (module : Nat) (pa : Nat) : RoundTrip.Statement (.invalAckTimeout module pa) := fun h => Bool.noConfusion h
theorem RoundTrip.hostAtomicUrCompletion (req : Nat) : RoundTrip.Statement (.hostAtomicUrCompletion req) := fun h => Bool.noConfusion h
theorem RoundTrip.hostWriteBar2 (off : Nat) (data : List Byte) : RoundTrip.Statement (.hostWriteBar2 off data) := fun h => Bool.noConfusion h
theorem RoundTrip.hostReadBar2 (off : Nat) (size : Nat) : RoundTrip.Statement (.hostReadBar2 off size) := fun h => Bool.noConfusion h
theorem RoundTrip.hostAtomicopBar2 (op : Nat) (off : Nat) (size : Nat) (operand : BitVec 128) (compare : BitVec 128) : RoundTrip.Statement (.hostAtomicopBar2 op off size operand compare) := fun h => Bool.noConfusion h
theorem RoundTrip.hostWriteBar4 (off : Nat) (data : List Byte) : RoundTrip.Statement (.hostWriteBar4 off data) := fun h => Bool.noConfusion h
theorem RoundTrip.hostReadBar4 (off : Nat) (size : Nat) : RoundTrip.Statement (.hostReadBar4 off size) := fun h => Bool.noConfusion h
theorem RoundTrip.controlRegisterWrite (byHost : Bool) (addr : Nat) (size : Nat) (value : W64) : RoundTrip.Statement (.controlRegisterWrite byHost addr size value) := fun h => Bool.noConfusion h
theorem RoundTrip.msixtrigWrite (byHost : Bool) (value : W64) : RoundTrip.Statement (.msixtrigWrite byHost value) := fun h => Bool.noConfusion h
theorem RoundTrip.cavewinWrite (die : Nat) (entry : Nat) (word : Nat) (value : W64) : RoundTrip.Statement (.cavewinWrite die entry word value) := fun h => Bool.noConfusion h
theorem RoundTrip.lkillKill (handle : W32) : RoundTrip.Statement (.lkillKill handle) := fun h => Bool.noConfusion h
theorem RoundTrip.lkillKillTree (handle : W32) : RoundTrip.Statement (.lkillKillTree handle) := fun h => Bool.noConfusion h
theorem RoundTrip.dbgstopWrite (handle : W32) : RoundTrip.Statement (.dbgstopWrite handle) := fun h => Bool.noConfusion h
theorem RoundTrip.dumprelWrite : RoundTrip.Statement .dumprelWrite := fun h => Bool.noConfusion h
theorem RoundTrip.rrctlModeOff (value : W64) : RoundTrip.Statement (.rrctlModeOff value) := fun h => Bool.noConfusion h
theorem RoundTrip.rrctlModeRecord (value : W64) : RoundTrip.Statement (.rrctlModeRecord value) := fun h => Bool.noConfusion h
theorem RoundTrip.rrctlModeReplay (value : W64) : RoundTrip.Statement (.rrctlModeReplay value) := fun h => Bool.noConfusion h
theorem RoundTrip.rrstatClear (value : W64) : RoundTrip.Statement (.rrstatClear value) := fun h => Bool.noConfusion h
theorem RoundTrip.replayGateTimeout (die : Nat) (entry : Nat) : RoundTrip.Statement (.replayGateTimeout die entry) := fun h => Bool.noConfusion h
theorem RoundTrip.sampleTimer (core : Nat) : RoundTrip.Statement (.sampleTimer core) := fun h => Bool.noConfusion h
theorem RoundTrip.fwctlVerify (value : W64) : RoundTrip.Statement (.fwctlVerify value) := fun h => Bool.noConfusion h
theorem RoundTrip.fwVerifyDone : RoundTrip.Statement .fwVerifyDone := fun h => Bool.noConfusion h
theorem RoundTrip.attctlStart : RoundTrip.Statement .attctlStart := fun h => Bool.noConfusion h
theorem RoundTrip.attestationDone : RoundTrip.Statement .attestationDone := fun h => Bool.noConfusion h
theorem RoundTrip.pwrctlActive : RoundTrip.Statement .pwrctlActive := fun h => Bool.noConfusion h
theorem RoundTrip.pwrctlIdle : RoundTrip.Statement .pwrctlIdle := fun h => Bool.noConfusion h
theorem RoundTrip.pwrctlRetain : RoundTrip.Statement .pwrctlRetain := fun h => Bool.noConfusion h
theorem RoundTrip.powerCapWindow (mhz : Nat) : RoundTrip.Statement (.powerCapWindow mhz) := fun h => Bool.noConfusion h
theorem RoundTrip.thermalThrottle (die : Nat) (reading : Byte) : RoundTrip.Statement (.thermalThrottle die reading) := fun h => Bool.noConfusion h
theorem RoundTrip.thermalTrip (die : Nat) (reading : Byte) : RoundTrip.Statement (.thermalTrip die reading) := fun h => Bool.noConfusion h
theorem RoundTrip.moduleReset : RoundTrip.Statement .moduleReset := fun h => Bool.noConfusion h
theorem RoundTrip.bootStageDone (ok : Bool) : RoundTrip.Statement (.bootStageDone ok) := fun h => Bool.noConfusion h
theorem RoundTrip.unitPlacement (die : Nat) : RoundTrip.Statement (.unitPlacement die) := fun h => Bool.noConfusion h
theorem RoundTrip.passOverTimeout (die : Nat) : RoundTrip.Statement (.passOverTimeout die) := fun h => Bool.noConfusion h
theorem RoundTrip.stealRequestArrival (victim : Nat) (thief : Nat) : RoundTrip.Statement (.stealRequestArrival victim thief) := fun h => Bool.noConfusion h
theorem RoundTrip.stealReplyArrival (thief : Nat) : RoundTrip.Statement (.stealReplyArrival thief) := fun h => Bool.noConfusion h
theorem RoundTrip.countReportTimer (die : Nat) : RoundTrip.Statement (.countReportTimer die) := fun h => Bool.noConfusion h
theorem RoundTrip.countReportArrival (die : Nat) (src : Nat) (count : Nat) : RoundTrip.Statement (.countReportArrival die src count) := fun h => Bool.noConfusion h
theorem RoundTrip.groupDrainDone (core : Nat) (slot : Nat) : RoundTrip.Statement (.groupDrainDone core slot) := fun h => Bool.noConfusion h
theorem RoundTrip.engineJobStart (core : Nat) : RoundTrip.Statement (.engineJobStart core) := fun h => Bool.noConfusion h
theorem RoundTrip.engineChunkArrival (core : Nat) (card : Nat) (elem : Nat) : RoundTrip.Statement (.engineChunkArrival core card elem) := fun h => Bool.noConfusion h
theorem RoundTrip.engineJobEnd (core : Nat) (card : Nat) : RoundTrip.Statement (.engineJobEnd core card) := fun h => Bool.noConfusion h
theorem RoundTrip.engineJobResume (core : Nat) (card : Nat) : RoundTrip.Statement (.engineJobResume core card) := fun h => Bool.noConfusion h
theorem RoundTrip.collectiveStart (cluster : Nat) : RoundTrip.Statement (.collectiveStart cluster) := fun h => Bool.noConfusion h
theorem RoundTrip.groupStopped (core : Nat) (slot : Nat) : RoundTrip.Statement (.groupStopped core slot) := fun h => Bool.noConfusion h
theorem RoundTrip.trapEventStart (core : Nat) : RoundTrip.Statement (.trapEventStart core) := fun h => Bool.noConfusion h
theorem RoundTrip.correctedEccError (die : Nat) (loc : Nat) : RoundTrip.Statement (.correctedEccError die loc) := fun h => Bool.noConfusion h
theorem RoundTrip.uncorrectableEccError (pa : Nat) : RoundTrip.Statement (.uncorrectableEccError pa) := fun h => Bool.noConfusion h
theorem RoundTrip.coherentWindowAccess (core : Nat) (pa : Nat) (size : Nat) (op : Nat) (data : List Byte) : RoundTrip.Statement (.coherentWindowAccess core pa size op data) := fun h => Bool.noConfusion h
theorem RoundTrip.clusterCrossbarAccess (core : Nat) (slot : Nat) (off : Nat) (size : Nat) (store : Bool) (data : List Byte) : RoundTrip.Statement (.clusterCrossbarAccess core slot off size store data) := fun h => Bool.noConfusion h
theorem RoundTrip.variableLatencyResult (core : Nat) (slot : Nat) : RoundTrip.Statement (.variableLatencyResult core slot) := fun h => Bool.noConfusion h
theorem RoundTrip.failedModuleMarkClear (module : Nat) : RoundTrip.Statement (.failedModuleMarkClear module) := fun h => Bool.noConfusion h

end Sys2Proof.Laws
end

