-- ==== Sys2Proof/Laws/State.lean ====
section
/-!
SUPPORT. What each named update of a record leaves alone and what it sets: one lemma per field and update, so that no proof unfolds one.
-/
namespace Sys2Proof.Machine
open Sys2Proof

/-! ### State.setCur -/

@[simp] theorem State.setCur_g (s : State) (c : Slot) : (s.setCur c).g = s.g.setCur c := rfl
@[simp] theorem State.setCur_groups (s : State) (c : Slot) : (s.setCur c).groups = s.groups := rfl
@[simp] theorem State.setCur_mem (s : State) (c : Slot) : (s.setCur c).mem = s.mem := rfl
@[simp] theorem State.setCur_cores (s : State) (c : Slot) : (s.setCur c).cores = s.cores := rfl
@[simp] theorem State.setCur_clusters (s : State) (c : Slot) : (s.setCur c).clusters = s.clusters := rfl
@[simp] theorem State.setCur_dies (s : State) (c : Slot) : (s.setCur c).dies = s.dies := rfl
@[simp] theorem State.setCur_launches (s : State) (c : Slot) : (s.setCur c).launches = s.launches := rfl
@[simp] theorem State.setCur_wgs (s : State) (c : Slot) : (s.setCur c).wgs = s.wgs := rfl
@[simp] theorem State.setCur_insts (s : State) (c : Slot) : (s.setCur c).insts = s.insts := rfl
@[simp] theorem State.setCur_roots (s : State) (c : Slot) : (s.setCur c).roots = s.roots := rfl
@[simp] theorem State.setCur_tlbs (s : State) (c : Slot) : (s.setCur c).tlbs = s.tlbs := rfl
@[simp] theorem State.setCur_walkCache (s : State) (c : Slot) : (s.setCur c).walkCache = s.walkCache := rfl
@[simp] theorem State.setCur_misses (s : State) (c : Slot) : (s.setCur c).misses = s.misses := rfl
@[simp] theorem State.setCur_dir (s : State) (c : Slot) : (s.setCur c).dir = s.dir := rfl
@[simp] theorem State.setCur_l1 (s : State) (c : Slot) : (s.setCur c).l1 = s.l1 := rfl
@[simp] theorem State.setCur_msgs (s : State) (c : Slot) : (s.setCur c).msgs = s.msgs := rfl
@[simp] theorem State.setCur_l2 (s : State) (c : Slot) : (s.setCur c).l2 = s.l2 := rfl
@[simp] theorem State.setCur_wheels (s : State) (c : Slot) : (s.setCur c).wheels = s.wheels := rfl
@[simp] theorem State.setCur_hostCopies (s : State) (c : Slot) : (s.setCur c).hostCopies = s.hostCopies := rfl
@[simp] theorem State.setCur_fabric (s : State) (c : Slot) : (s.setCur c).fabric = s.fabric := rfl
@[simp] theorem State.setCur_failed (s : State) (c : Slot) : (s.setCur c).failed = s.failed := rfl
@[simp] theorem State.setCur_ctl (s : State) (c : Slot) : (s.setCur c).ctl = s.ctl := rfl
@[simp] theorem State.setCur_fallback (s : State) (c : Slot) : (s.setCur c).fallback = s.fallback := rfl
@[simp] theorem State.setCur_fallbackWait (s : State) (c : Slot) : (s.setCur c).fallbackWait = s.fallbackWait := rfl
@[simp] theorem State.setCur_module (s : State) (c : Slot) : (s.setCur c).module = s.module := rfl
@[simp] theorem State.setCur_clock (s : State) (c : Slot) : (s.setCur c).clock = s.clock := rfl
@[simp] theorem State.setCur_tstamp (s : State) (c : Slot) : (s.setCur c).tstamp = s.tstamp := rfl
@[simp] theorem State.setCur_nextHandle (s : State) (c : Slot) : (s.setCur c).nextHandle = s.nextHandle := rfl
@[simp] theorem State.setCur_nextKey (s : State) (c : Slot) : (s.setCur c).nextKey = s.nextKey := rfl
@[simp] theorem State.setCur_nextId (s : State) (c : Slot) : (s.setCur c).nextId = s.nextId := rfl
@[simp] theorem State.setCur_msix (s : State) (c : Slot) : (s.setCur c).msix = s.msix := rfl
@[simp] theorem State.setCur_hostLines (s : State) (c : Slot) : (s.setCur c).hostLines = s.hostLines := rfl
@[simp] theorem State.setCur_hostOut (s : State) (c : Slot) : (s.setCur c).hostOut = s.hostOut := rfl
@[simp] theorem State.setCur_fabOut (s : State) (c : Slot) : (s.setCur c).fabOut = s.fabOut := rfl
@[simp] theorem State.setCur_owed (s : State) (c : Slot) : (s.setCur c).owed = s.owed := rfl
@[simp] theorem State.setCur_modAcks (s : State) (c : Slot) : (s.setCur c).modAcks = s.modAcks := rfl
@[simp] theorem State.setCur_mergedOut (s : State) (c : Slot) : (s.setCur c).mergedOut = s.mergedOut := rfl
@[simp] theorem State.setCur_mailOut (s : State) (c : Slot) : (s.setCur c).mailOut = s.mailOut := rfl
@[simp] theorem State.setCur_dbgNext (s : State) (c : Slot) : (s.setCur c).dbgNext = s.dbgNext := rfl
@[simp] theorem State.setCur_dbgWait (s : State) (c : Slot) : (s.setCur c).dbgWait = s.dbgWait := rfl
@[simp] theorem State.setCur_reports (s : State) (c : Slot) : (s.setCur c).reports = s.reports := rfl
@[simp] theorem State.setCur_offWays (s : State) (c : Slot) : (s.setCur c).offWays = s.offWays := rfl
@[simp] theorem State.setCur_poison (s : State) (c : Slot) : (s.setCur c).poison = s.poison := rfl
@[simp] theorem State.setCur_stores (s : State) (c : Slot) : (s.setCur c).stores = s.stores := rfl
@[simp] theorem State.setCur_bad (s : State) (c : Slot) : (s.setCur c).bad = s.bad := rfl
@[simp] theorem State.setCur_minSvn (s : State) (c : Slot) : (s.setCur c).minSvn = s.minSvn := rfl
@[simp] theorem State.setCur_images (s : State) (c : Slot) : (s.setCur c).images = s.images := rfl
@[simp] theorem State.setCur_agenda (s : State) (c : Slot) : (s.setCur c).agenda = s.agenda := rfl
@[simp] theorem State.setCur_resident (s : State) (c : Slot) : (s.setCur c).resident = s.resident := rfl
@[simp] theorem State.setCur_defer (s : State) (c : Slot) : (s.setCur c).defer = s.defer := rfl
@[simp] theorem State.setCur_dtCycles (s : State) (c : Slot) : (s.setCur c).dtCycles = s.dtCycles := rfl
@[simp] theorem State.setCur_dtNs (s : State) (c : Slot) : (s.setCur c).dtNs = s.dtNs := rfl
@[simp] theorem State.setCur_free (s : State) (c : Slot) : (s.setCur c).free = s.free := rfl

/-! ### State.setCtl -/

@[simp] theorem State.setCtl_g (s : State) (f : Ctl → Ctl) : (s.setCtl f).g = s.g := rfl
@[simp] theorem State.setCtl_groups (s : State) (f : Ctl → Ctl) : (s.setCtl f).groups = s.groups := rfl
@[simp] theorem State.setCtl_mem (s : State) (f : Ctl → Ctl) : (s.setCtl f).mem = s.mem := rfl
@[simp] theorem State.setCtl_cores (s : State) (f : Ctl → Ctl) : (s.setCtl f).cores = s.cores := rfl
@[simp] theorem State.setCtl_clusters (s : State) (f : Ctl → Ctl) : (s.setCtl f).clusters = s.clusters := rfl
@[simp] theorem State.setCtl_dies (s : State) (f : Ctl → Ctl) : (s.setCtl f).dies = s.dies := rfl
@[simp] theorem State.setCtl_launches (s : State) (f : Ctl → Ctl) : (s.setCtl f).launches = s.launches := rfl
@[simp] theorem State.setCtl_wgs (s : State) (f : Ctl → Ctl) : (s.setCtl f).wgs = s.wgs := rfl
@[simp] theorem State.setCtl_insts (s : State) (f : Ctl → Ctl) : (s.setCtl f).insts = s.insts := rfl
@[simp] theorem State.setCtl_roots (s : State) (f : Ctl → Ctl) : (s.setCtl f).roots = s.roots := rfl
@[simp] theorem State.setCtl_tlbs (s : State) (f : Ctl → Ctl) : (s.setCtl f).tlbs = s.tlbs := rfl
@[simp] theorem State.setCtl_walkCache (s : State) (f : Ctl → Ctl) : (s.setCtl f).walkCache = s.walkCache := rfl
@[simp] theorem State.setCtl_misses (s : State) (f : Ctl → Ctl) : (s.setCtl f).misses = s.misses := rfl
@[simp] theorem State.setCtl_dir (s : State) (f : Ctl → Ctl) : (s.setCtl f).dir = s.dir := rfl
@[simp] theorem State.setCtl_l1 (s : State) (f : Ctl → Ctl) : (s.setCtl f).l1 = s.l1 := rfl
@[simp] theorem State.setCtl_msgs (s : State) (f : Ctl → Ctl) : (s.setCtl f).msgs = s.msgs := rfl
@[simp] theorem State.setCtl_l2 (s : State) (f : Ctl → Ctl) : (s.setCtl f).l2 = s.l2 := rfl
@[simp] theorem State.setCtl_wheels (s : State) (f : Ctl → Ctl) : (s.setCtl f).wheels = s.wheels := rfl
@[simp] theorem State.setCtl_hostCopies (s : State) (f : Ctl → Ctl) : (s.setCtl f).hostCopies = s.hostCopies := rfl
@[simp] theorem State.setCtl_fabric (s : State) (f : Ctl → Ctl) : (s.setCtl f).fabric = s.fabric := rfl
@[simp] theorem State.setCtl_failed (s : State) (f : Ctl → Ctl) : (s.setCtl f).failed = s.failed := rfl
@[simp] theorem State.setCtl_ctl (s : State) (f : Ctl → Ctl) : (s.setCtl f).ctl = f s.ctl := rfl
@[simp] theorem State.setCtl_fallback (s : State) (f : Ctl → Ctl) : (s.setCtl f).fallback = s.fallback := rfl
@[simp] theorem State.setCtl_fallbackWait (s : State) (f : Ctl → Ctl) : (s.setCtl f).fallbackWait = s.fallbackWait := rfl
@[simp] theorem State.setCtl_module (s : State) (f : Ctl → Ctl) : (s.setCtl f).module = s.module := rfl
@[simp] theorem State.setCtl_clock (s : State) (f : Ctl → Ctl) : (s.setCtl f).clock = s.clock := rfl
@[simp] theorem State.setCtl_tstamp (s : State) (f : Ctl → Ctl) : (s.setCtl f).tstamp = s.tstamp := rfl
@[simp] theorem State.setCtl_nextHandle (s : State) (f : Ctl → Ctl) : (s.setCtl f).nextHandle = s.nextHandle := rfl
@[simp] theorem State.setCtl_nextKey (s : State) (f : Ctl → Ctl) : (s.setCtl f).nextKey = s.nextKey := rfl
@[simp] theorem State.setCtl_nextId (s : State) (f : Ctl → Ctl) : (s.setCtl f).nextId = s.nextId := rfl
@[simp] theorem State.setCtl_msix (s : State) (f : Ctl → Ctl) : (s.setCtl f).msix = s.msix := rfl
@[simp] theorem State.setCtl_hostLines (s : State) (f : Ctl → Ctl) : (s.setCtl f).hostLines = s.hostLines := rfl
@[simp] theorem State.setCtl_hostOut (s : State) (f : Ctl → Ctl) : (s.setCtl f).hostOut = s.hostOut := rfl
@[simp] theorem State.setCtl_fabOut (s : State) (f : Ctl → Ctl) : (s.setCtl f).fabOut = s.fabOut := rfl
@[simp] theorem State.setCtl_owed (s : State) (f : Ctl → Ctl) : (s.setCtl f).owed = s.owed := rfl
@[simp] theorem State.setCtl_modAcks (s : State) (f : Ctl → Ctl) : (s.setCtl f).modAcks = s.modAcks := rfl
@[simp] theorem State.setCtl_mergedOut (s : State) (f : Ctl → Ctl) : (s.setCtl f).mergedOut = s.mergedOut := rfl
@[simp] theorem State.setCtl_mailOut (s : State) (f : Ctl → Ctl) : (s.setCtl f).mailOut = s.mailOut := rfl
@[simp] theorem State.setCtl_dbgNext (s : State) (f : Ctl → Ctl) : (s.setCtl f).dbgNext = s.dbgNext := rfl
@[simp] theorem State.setCtl_dbgWait (s : State) (f : Ctl → Ctl) : (s.setCtl f).dbgWait = s.dbgWait := rfl
@[simp] theorem State.setCtl_reports (s : State) (f : Ctl → Ctl) : (s.setCtl f).reports = s.reports := rfl
@[simp] theorem State.setCtl_offWays (s : State) (f : Ctl → Ctl) : (s.setCtl f).offWays = s.offWays := rfl
@[simp] theorem State.setCtl_poison (s : State) (f : Ctl → Ctl) : (s.setCtl f).poison = s.poison := rfl
@[simp] theorem State.setCtl_stores (s : State) (f : Ctl → Ctl) : (s.setCtl f).stores = s.stores := rfl
@[simp] theorem State.setCtl_bad (s : State) (f : Ctl → Ctl) : (s.setCtl f).bad = s.bad := rfl
@[simp] theorem State.setCtl_minSvn (s : State) (f : Ctl → Ctl) : (s.setCtl f).minSvn = s.minSvn := rfl
@[simp] theorem State.setCtl_images (s : State) (f : Ctl → Ctl) : (s.setCtl f).images = s.images := rfl
@[simp] theorem State.setCtl_agenda (s : State) (f : Ctl → Ctl) : (s.setCtl f).agenda = s.agenda := rfl
@[simp] theorem State.setCtl_resident (s : State) (f : Ctl → Ctl) : (s.setCtl f).resident = s.resident := rfl
@[simp] theorem State.setCtl_defer (s : State) (f : Ctl → Ctl) : (s.setCtl f).defer = s.defer := rfl
@[simp] theorem State.setCtl_dtCycles (s : State) (f : Ctl → Ctl) : (s.setCtl f).dtCycles = s.dtCycles := rfl
@[simp] theorem State.setCtl_dtNs (s : State) (f : Ctl → Ctl) : (s.setCtl f).dtNs = s.dtNs := rfl
@[simp] theorem State.setCtl_free (s : State) (f : Ctl → Ctl) : (s.setCtl f).free = s.free := rfl

/-! ### State.updCore -/

@[simp] theorem State.updCore_g (s : State) (c : Nat) (f : Core → Core) : (s.updCore c f).g = s.g := rfl
@[simp] theorem State.updCore_groups (s : State) (c : Nat) (f : Core → Core) : (s.updCore c f).groups = s.groups := rfl
@[simp] theorem State.updCore_mem (s : State) (c : Nat) (f : Core → Core) : (s.updCore c f).mem = s.mem := rfl
@[simp] theorem State.updCore_cores (s : State) (c : Nat) (f : Core → Core) : (s.updCore c f).cores = modifyAt f c s.cores := rfl
@[simp] theorem State.updCore_clusters (s : State) (c : Nat) (f : Core → Core) : (s.updCore c f).clusters = s.clusters := rfl
@[simp] theorem State.updCore_dies (s : State) (c : Nat) (f : Core → Core) : (s.updCore c f).dies = s.dies := rfl
@[simp] theorem State.updCore_launches (s : State) (c : Nat) (f : Core → Core) : (s.updCore c f).launches = s.launches := rfl
@[simp] theorem State.updCore_wgs (s : State) (c : Nat) (f : Core → Core) : (s.updCore c f).wgs = s.wgs := rfl
@[simp] theorem State.updCore_insts (s : State) (c : Nat) (f : Core → Core) : (s.updCore c f).insts = s.insts := rfl
@[simp] theorem State.updCore_roots (s : State) (c : Nat) (f : Core → Core) : (s.updCore c f).roots = s.roots := rfl
@[simp] theorem State.updCore_tlbs (s : State) (c : Nat) (f : Core → Core) : (s.updCore c f).tlbs = s.tlbs := rfl
@[simp] theorem State.updCore_walkCache (s : State) (c : Nat) (f : Core → Core) : (s.updCore c f).walkCache = s.walkCache := rfl
@[simp] theorem State.updCore_misses (s : State) (c : Nat) (f : Core → Core) : (s.updCore c f).misses = s.misses := rfl
@[simp] theorem State.updCore_dir (s : State) (c : Nat) (f : Core → Core) : (s.updCore c f).dir = s.dir := rfl
@[simp] theorem State.updCore_l1 (s : State) (c : Nat) (f : Core → Core) : (s.updCore c f).l1 = s.l1 := rfl
@[simp] theorem State.updCore_msgs (s : State) (c : Nat) (f : Core → Core) : (s.updCore c f).msgs = s.msgs := rfl
@[simp] theorem State.updCore_l2 (s : State) (c : Nat) (f : Core → Core) : (s.updCore c f).l2 = s.l2 := rfl
@[simp] theorem State.updCore_wheels (s : State) (c : Nat) (f : Core → Core) : (s.updCore c f).wheels = s.wheels := rfl
@[simp] theorem State.updCore_hostCopies (s : State) (c : Nat) (f : Core → Core) : (s.updCore c f).hostCopies = s.hostCopies := rfl
@[simp] theorem State.updCore_fabric (s : State) (c : Nat) (f : Core → Core) : (s.updCore c f).fabric = s.fabric := rfl
@[simp] theorem State.updCore_failed (s : State) (c : Nat) (f : Core → Core) : (s.updCore c f).failed = s.failed := rfl
@[simp] theorem State.updCore_ctl (s : State) (c : Nat) (f : Core → Core) : (s.updCore c f).ctl = s.ctl := rfl
@[simp] theorem State.updCore_fallback (s : State) (c : Nat) (f : Core → Core) : (s.updCore c f).fallback = s.fallback := rfl
@[simp] theorem State.updCore_fallbackWait (s : State) (c : Nat) (f : Core → Core) : (s.updCore c f).fallbackWait = s.fallbackWait := rfl
@[simp] theorem State.updCore_module (s : State) (c : Nat) (f : Core → Core) : (s.updCore c f).module = s.module := rfl
@[simp] theorem State.updCore_clock (s : State) (c : Nat) (f : Core → Core) : (s.updCore c f).clock = s.clock := rfl
@[simp] theorem State.updCore_tstamp (s : State) (c : Nat) (f : Core → Core) : (s.updCore c f).tstamp = s.tstamp := rfl
@[simp] theorem State.updCore_nextHandle (s : State) (c : Nat) (f : Core → Core) : (s.updCore c f).nextHandle = s.nextHandle := rfl
@[simp] theorem State.updCore_nextKey (s : State) (c : Nat) (f : Core → Core) : (s.updCore c f).nextKey = s.nextKey := rfl
@[simp] theorem State.updCore_nextId (s : State) (c : Nat) (f : Core → Core) : (s.updCore c f).nextId = s.nextId := rfl
@[simp] theorem State.updCore_msix (s : State) (c : Nat) (f : Core → Core) : (s.updCore c f).msix = s.msix := rfl
@[simp] theorem State.updCore_hostLines (s : State) (c : Nat) (f : Core → Core) : (s.updCore c f).hostLines = s.hostLines := rfl
@[simp] theorem State.updCore_hostOut (s : State) (c : Nat) (f : Core → Core) : (s.updCore c f).hostOut = s.hostOut := rfl
@[simp] theorem State.updCore_fabOut (s : State) (c : Nat) (f : Core → Core) : (s.updCore c f).fabOut = s.fabOut := rfl
@[simp] theorem State.updCore_owed (s : State) (c : Nat) (f : Core → Core) : (s.updCore c f).owed = s.owed := rfl
@[simp] theorem State.updCore_modAcks (s : State) (c : Nat) (f : Core → Core) : (s.updCore c f).modAcks = s.modAcks := rfl
@[simp] theorem State.updCore_mergedOut (s : State) (c : Nat) (f : Core → Core) : (s.updCore c f).mergedOut = s.mergedOut := rfl
@[simp] theorem State.updCore_mailOut (s : State) (c : Nat) (f : Core → Core) : (s.updCore c f).mailOut = s.mailOut := rfl
@[simp] theorem State.updCore_dbgNext (s : State) (c : Nat) (f : Core → Core) : (s.updCore c f).dbgNext = s.dbgNext := rfl
@[simp] theorem State.updCore_dbgWait (s : State) (c : Nat) (f : Core → Core) : (s.updCore c f).dbgWait = s.dbgWait := rfl
@[simp] theorem State.updCore_reports (s : State) (c : Nat) (f : Core → Core) : (s.updCore c f).reports = s.reports := rfl
@[simp] theorem State.updCore_offWays (s : State) (c : Nat) (f : Core → Core) : (s.updCore c f).offWays = s.offWays := rfl
@[simp] theorem State.updCore_poison (s : State) (c : Nat) (f : Core → Core) : (s.updCore c f).poison = s.poison := rfl
@[simp] theorem State.updCore_stores (s : State) (c : Nat) (f : Core → Core) : (s.updCore c f).stores = s.stores := rfl
@[simp] theorem State.updCore_bad (s : State) (c : Nat) (f : Core → Core) : (s.updCore c f).bad = s.bad := rfl
@[simp] theorem State.updCore_minSvn (s : State) (c : Nat) (f : Core → Core) : (s.updCore c f).minSvn = s.minSvn := rfl
@[simp] theorem State.updCore_images (s : State) (c : Nat) (f : Core → Core) : (s.updCore c f).images = s.images := rfl
@[simp] theorem State.updCore_agenda (s : State) (c : Nat) (f : Core → Core) : (s.updCore c f).agenda = s.agenda := rfl
@[simp] theorem State.updCore_resident (s : State) (c : Nat) (f : Core → Core) : (s.updCore c f).resident = s.resident := rfl
@[simp] theorem State.updCore_defer (s : State) (c : Nat) (f : Core → Core) : (s.updCore c f).defer = s.defer := rfl
@[simp] theorem State.updCore_dtCycles (s : State) (c : Nat) (f : Core → Core) : (s.updCore c f).dtCycles = s.dtCycles := rfl
@[simp] theorem State.updCore_dtNs (s : State) (c : Nat) (f : Core → Core) : (s.updCore c f).dtNs = s.dtNs := rfl
@[simp] theorem State.updCore_free (s : State) (c : Nat) (f : Core → Core) : (s.updCore c f).free = s.free := rfl

/-! ### State.updCluster -/

@[simp] theorem State.updCluster_g (s : State) (c : Nat) (f : Cluster → Cluster) : (s.updCluster c f).g = s.g := rfl
@[simp] theorem State.updCluster_groups (s : State) (c : Nat) (f : Cluster → Cluster) : (s.updCluster c f).groups = s.groups := rfl
@[simp] theorem State.updCluster_mem (s : State) (c : Nat) (f : Cluster → Cluster) : (s.updCluster c f).mem = s.mem := rfl
@[simp] theorem State.updCluster_cores (s : State) (c : Nat) (f : Cluster → Cluster) : (s.updCluster c f).cores = s.cores := rfl
@[simp] theorem State.updCluster_clusters (s : State) (c : Nat) (f : Cluster → Cluster) : (s.updCluster c f).clusters = modifyAt f c s.clusters := rfl
@[simp] theorem State.updCluster_dies (s : State) (c : Nat) (f : Cluster → Cluster) : (s.updCluster c f).dies = s.dies := rfl
@[simp] theorem State.updCluster_launches (s : State) (c : Nat) (f : Cluster → Cluster) : (s.updCluster c f).launches = s.launches := rfl
@[simp] theorem State.updCluster_wgs (s : State) (c : Nat) (f : Cluster → Cluster) : (s.updCluster c f).wgs = s.wgs := rfl
@[simp] theorem State.updCluster_insts (s : State) (c : Nat) (f : Cluster → Cluster) : (s.updCluster c f).insts = s.insts := rfl
@[simp] theorem State.updCluster_roots (s : State) (c : Nat) (f : Cluster → Cluster) : (s.updCluster c f).roots = s.roots := rfl
@[simp] theorem State.updCluster_tlbs (s : State) (c : Nat) (f : Cluster → Cluster) : (s.updCluster c f).tlbs = s.tlbs := rfl
@[simp] theorem State.updCluster_walkCache (s : State) (c : Nat) (f : Cluster → Cluster) : (s.updCluster c f).walkCache = s.walkCache := rfl
@[simp] theorem State.updCluster_misses (s : State) (c : Nat) (f : Cluster → Cluster) : (s.updCluster c f).misses = s.misses := rfl
@[simp] theorem State.updCluster_dir (s : State) (c : Nat) (f : Cluster → Cluster) : (s.updCluster c f).dir = s.dir := rfl
@[simp] theorem State.updCluster_l1 (s : State) (c : Nat) (f : Cluster → Cluster) : (s.updCluster c f).l1 = s.l1 := rfl
@[simp] theorem State.updCluster_msgs (s : State) (c : Nat) (f : Cluster → Cluster) : (s.updCluster c f).msgs = s.msgs := rfl
@[simp] theorem State.updCluster_l2 (s : State) (c : Nat) (f : Cluster → Cluster) : (s.updCluster c f).l2 = s.l2 := rfl
@[simp] theorem State.updCluster_wheels (s : State) (c : Nat) (f : Cluster → Cluster) : (s.updCluster c f).wheels = s.wheels := rfl
@[simp] theorem State.updCluster_hostCopies (s : State) (c : Nat) (f : Cluster → Cluster) : (s.updCluster c f).hostCopies = s.hostCopies := rfl
@[simp] theorem State.updCluster_fabric (s : State) (c : Nat) (f : Cluster → Cluster) : (s.updCluster c f).fabric = s.fabric := rfl
@[simp] theorem State.updCluster_failed (s : State) (c : Nat) (f : Cluster → Cluster) : (s.updCluster c f).failed = s.failed := rfl
@[simp] theorem State.updCluster_ctl (s : State) (c : Nat) (f : Cluster → Cluster) : (s.updCluster c f).ctl = s.ctl := rfl
@[simp] theorem State.updCluster_fallback (s : State) (c : Nat) (f : Cluster → Cluster) : (s.updCluster c f).fallback = s.fallback := rfl
@[simp] theorem State.updCluster_fallbackWait (s : State) (c : Nat) (f : Cluster → Cluster) : (s.updCluster c f).fallbackWait = s.fallbackWait := rfl
@[simp] theorem State.updCluster_module (s : State) (c : Nat) (f : Cluster → Cluster) : (s.updCluster c f).module = s.module := rfl
@[simp] theorem State.updCluster_clock (s : State) (c : Nat) (f : Cluster → Cluster) : (s.updCluster c f).clock = s.clock := rfl
@[simp] theorem State.updCluster_tstamp (s : State) (c : Nat) (f : Cluster → Cluster) : (s.updCluster c f).tstamp = s.tstamp := rfl
@[simp] theorem State.updCluster_nextHandle (s : State) (c : Nat) (f : Cluster → Cluster) : (s.updCluster c f).nextHandle = s.nextHandle := rfl
@[simp] theorem State.updCluster_nextKey (s : State) (c : Nat) (f : Cluster → Cluster) : (s.updCluster c f).nextKey = s.nextKey := rfl
@[simp] theorem State.updCluster_nextId (s : State) (c : Nat) (f : Cluster → Cluster) : (s.updCluster c f).nextId = s.nextId := rfl
@[simp] theorem State.updCluster_msix (s : State) (c : Nat) (f : Cluster → Cluster) : (s.updCluster c f).msix = s.msix := rfl
@[simp] theorem State.updCluster_hostLines (s : State) (c : Nat) (f : Cluster → Cluster) : (s.updCluster c f).hostLines = s.hostLines := rfl
@[simp] theorem State.updCluster_hostOut (s : State) (c : Nat) (f : Cluster → Cluster) : (s.updCluster c f).hostOut = s.hostOut := rfl
@[simp] theorem State.updCluster_fabOut (s : State) (c : Nat) (f : Cluster → Cluster) : (s.updCluster c f).fabOut = s.fabOut := rfl
@[simp] theorem State.updCluster_owed (s : State) (c : Nat) (f : Cluster → Cluster) : (s.updCluster c f).owed = s.owed := rfl
@[simp] theorem State.updCluster_modAcks (s : State) (c : Nat) (f : Cluster → Cluster) : (s.updCluster c f).modAcks = s.modAcks := rfl
@[simp] theorem State.updCluster_mergedOut (s : State) (c : Nat) (f : Cluster → Cluster) : (s.updCluster c f).mergedOut = s.mergedOut := rfl
@[simp] theorem State.updCluster_mailOut (s : State) (c : Nat) (f : Cluster → Cluster) : (s.updCluster c f).mailOut = s.mailOut := rfl
@[simp] theorem State.updCluster_dbgNext (s : State) (c : Nat) (f : Cluster → Cluster) : (s.updCluster c f).dbgNext = s.dbgNext := rfl
@[simp] theorem State.updCluster_dbgWait (s : State) (c : Nat) (f : Cluster → Cluster) : (s.updCluster c f).dbgWait = s.dbgWait := rfl
@[simp] theorem State.updCluster_reports (s : State) (c : Nat) (f : Cluster → Cluster) : (s.updCluster c f).reports = s.reports := rfl
@[simp] theorem State.updCluster_offWays (s : State) (c : Nat) (f : Cluster → Cluster) : (s.updCluster c f).offWays = s.offWays := rfl
@[simp] theorem State.updCluster_poison (s : State) (c : Nat) (f : Cluster → Cluster) : (s.updCluster c f).poison = s.poison := rfl
@[simp] theorem State.updCluster_stores (s : State) (c : Nat) (f : Cluster → Cluster) : (s.updCluster c f).stores = s.stores := rfl
@[simp] theorem State.updCluster_bad (s : State) (c : Nat) (f : Cluster → Cluster) : (s.updCluster c f).bad = s.bad := rfl
@[simp] theorem State.updCluster_minSvn (s : State) (c : Nat) (f : Cluster → Cluster) : (s.updCluster c f).minSvn = s.minSvn := rfl
@[simp] theorem State.updCluster_images (s : State) (c : Nat) (f : Cluster → Cluster) : (s.updCluster c f).images = s.images := rfl
@[simp] theorem State.updCluster_agenda (s : State) (c : Nat) (f : Cluster → Cluster) : (s.updCluster c f).agenda = s.agenda := rfl
@[simp] theorem State.updCluster_resident (s : State) (c : Nat) (f : Cluster → Cluster) : (s.updCluster c f).resident = s.resident := rfl
@[simp] theorem State.updCluster_defer (s : State) (c : Nat) (f : Cluster → Cluster) : (s.updCluster c f).defer = s.defer := rfl
@[simp] theorem State.updCluster_dtCycles (s : State) (c : Nat) (f : Cluster → Cluster) : (s.updCluster c f).dtCycles = s.dtCycles := rfl
@[simp] theorem State.updCluster_dtNs (s : State) (c : Nat) (f : Cluster → Cluster) : (s.updCluster c f).dtNs = s.dtNs := rfl
@[simp] theorem State.updCluster_free (s : State) (c : Nat) (f : Cluster → Cluster) : (s.updCluster c f).free = s.free := rfl

/-! ### State.updDie -/

@[simp] theorem State.updDie_g (s : State) (d : Nat) (f : Die → Die) : (s.updDie d f).g = s.g := rfl
@[simp] theorem State.updDie_groups (s : State) (d : Nat) (f : Die → Die) : (s.updDie d f).groups = s.groups := rfl
@[simp] theorem State.updDie_mem (s : State) (d : Nat) (f : Die → Die) : (s.updDie d f).mem = s.mem := rfl
@[simp] theorem State.updDie_cores (s : State) (d : Nat) (f : Die → Die) : (s.updDie d f).cores = s.cores := rfl
@[simp] theorem State.updDie_clusters (s : State) (d : Nat) (f : Die → Die) : (s.updDie d f).clusters = s.clusters := rfl
@[simp] theorem State.updDie_dies (s : State) (d : Nat) (f : Die → Die) : (s.updDie d f).dies = modifyAt f d s.dies := rfl
@[simp] theorem State.updDie_launches (s : State) (d : Nat) (f : Die → Die) : (s.updDie d f).launches = s.launches := rfl
@[simp] theorem State.updDie_wgs (s : State) (d : Nat) (f : Die → Die) : (s.updDie d f).wgs = s.wgs := rfl
@[simp] theorem State.updDie_insts (s : State) (d : Nat) (f : Die → Die) : (s.updDie d f).insts = s.insts := rfl
@[simp] theorem State.updDie_roots (s : State) (d : Nat) (f : Die → Die) : (s.updDie d f).roots = s.roots := rfl
@[simp] theorem State.updDie_tlbs (s : State) (d : Nat) (f : Die → Die) : (s.updDie d f).tlbs = s.tlbs := rfl
@[simp] theorem State.updDie_walkCache (s : State) (d : Nat) (f : Die → Die) : (s.updDie d f).walkCache = s.walkCache := rfl
@[simp] theorem State.updDie_misses (s : State) (d : Nat) (f : Die → Die) : (s.updDie d f).misses = s.misses := rfl
@[simp] theorem State.updDie_dir (s : State) (d : Nat) (f : Die → Die) : (s.updDie d f).dir = s.dir := rfl
@[simp] theorem State.updDie_l1 (s : State) (d : Nat) (f : Die → Die) : (s.updDie d f).l1 = s.l1 := rfl
@[simp] theorem State.updDie_msgs (s : State) (d : Nat) (f : Die → Die) : (s.updDie d f).msgs = s.msgs := rfl
@[simp] theorem State.updDie_l2 (s : State) (d : Nat) (f : Die → Die) : (s.updDie d f).l2 = s.l2 := rfl
@[simp] theorem State.updDie_wheels (s : State) (d : Nat) (f : Die → Die) : (s.updDie d f).wheels = s.wheels := rfl
@[simp] theorem State.updDie_hostCopies (s : State) (d : Nat) (f : Die → Die) : (s.updDie d f).hostCopies = s.hostCopies := rfl
@[simp] theorem State.updDie_fabric (s : State) (d : Nat) (f : Die → Die) : (s.updDie d f).fabric = s.fabric := rfl
@[simp] theorem State.updDie_failed (s : State) (d : Nat) (f : Die → Die) : (s.updDie d f).failed = s.failed := rfl
@[simp] theorem State.updDie_ctl (s : State) (d : Nat) (f : Die → Die) : (s.updDie d f).ctl = s.ctl := rfl
@[simp] theorem State.updDie_fallback (s : State) (d : Nat) (f : Die → Die) : (s.updDie d f).fallback = s.fallback := rfl
@[simp] theorem State.updDie_fallbackWait (s : State) (d : Nat) (f : Die → Die) : (s.updDie d f).fallbackWait = s.fallbackWait := rfl
@[simp] theorem State.updDie_module (s : State) (d : Nat) (f : Die → Die) : (s.updDie d f).module = s.module := rfl
@[simp] theorem State.updDie_clock (s : State) (d : Nat) (f : Die → Die) : (s.updDie d f).clock = s.clock := rfl
@[simp] theorem State.updDie_tstamp (s : State) (d : Nat) (f : Die → Die) : (s.updDie d f).tstamp = s.tstamp := rfl
@[simp] theorem State.updDie_nextHandle (s : State) (d : Nat) (f : Die → Die) : (s.updDie d f).nextHandle = s.nextHandle := rfl
@[simp] theorem State.updDie_nextKey (s : State) (d : Nat) (f : Die → Die) : (s.updDie d f).nextKey = s.nextKey := rfl
@[simp] theorem State.updDie_nextId (s : State) (d : Nat) (f : Die → Die) : (s.updDie d f).nextId = s.nextId := rfl
@[simp] theorem State.updDie_msix (s : State) (d : Nat) (f : Die → Die) : (s.updDie d f).msix = s.msix := rfl
@[simp] theorem State.updDie_hostLines (s : State) (d : Nat) (f : Die → Die) : (s.updDie d f).hostLines = s.hostLines := rfl
@[simp] theorem State.updDie_hostOut (s : State) (d : Nat) (f : Die → Die) : (s.updDie d f).hostOut = s.hostOut := rfl
@[simp] theorem State.updDie_fabOut (s : State) (d : Nat) (f : Die → Die) : (s.updDie d f).fabOut = s.fabOut := rfl
@[simp] theorem State.updDie_owed (s : State) (d : Nat) (f : Die → Die) : (s.updDie d f).owed = s.owed := rfl
@[simp] theorem State.updDie_modAcks (s : State) (d : Nat) (f : Die → Die) : (s.updDie d f).modAcks = s.modAcks := rfl
@[simp] theorem State.updDie_mergedOut (s : State) (d : Nat) (f : Die → Die) : (s.updDie d f).mergedOut = s.mergedOut := rfl
@[simp] theorem State.updDie_mailOut (s : State) (d : Nat) (f : Die → Die) : (s.updDie d f).mailOut = s.mailOut := rfl
@[simp] theorem State.updDie_dbgNext (s : State) (d : Nat) (f : Die → Die) : (s.updDie d f).dbgNext = s.dbgNext := rfl
@[simp] theorem State.updDie_dbgWait (s : State) (d : Nat) (f : Die → Die) : (s.updDie d f).dbgWait = s.dbgWait := rfl
@[simp] theorem State.updDie_reports (s : State) (d : Nat) (f : Die → Die) : (s.updDie d f).reports = s.reports := rfl
@[simp] theorem State.updDie_offWays (s : State) (d : Nat) (f : Die → Die) : (s.updDie d f).offWays = s.offWays := rfl
@[simp] theorem State.updDie_poison (s : State) (d : Nat) (f : Die → Die) : (s.updDie d f).poison = s.poison := rfl
@[simp] theorem State.updDie_stores (s : State) (d : Nat) (f : Die → Die) : (s.updDie d f).stores = s.stores := rfl
@[simp] theorem State.updDie_bad (s : State) (d : Nat) (f : Die → Die) : (s.updDie d f).bad = s.bad := rfl
@[simp] theorem State.updDie_minSvn (s : State) (d : Nat) (f : Die → Die) : (s.updDie d f).minSvn = s.minSvn := rfl
@[simp] theorem State.updDie_images (s : State) (d : Nat) (f : Die → Die) : (s.updDie d f).images = s.images := rfl
@[simp] theorem State.updDie_agenda (s : State) (d : Nat) (f : Die → Die) : (s.updDie d f).agenda = s.agenda := rfl
@[simp] theorem State.updDie_resident (s : State) (d : Nat) (f : Die → Die) : (s.updDie d f).resident = s.resident := rfl
@[simp] theorem State.updDie_defer (s : State) (d : Nat) (f : Die → Die) : (s.updDie d f).defer = s.defer := rfl
@[simp] theorem State.updDie_dtCycles (s : State) (d : Nat) (f : Die → Die) : (s.updDie d f).dtCycles = s.dtCycles := rfl
@[simp] theorem State.updDie_dtNs (s : State) (d : Nat) (f : Die → Die) : (s.updDie d f).dtNs = s.dtNs := rfl
@[simp] theorem State.updDie_free (s : State) (d : Nat) (f : Die → Die) : (s.updDie d f).free = s.free := rfl

/-! ### State.updLaunch -/

@[simp] theorem State.updLaunch_g (s : State) (h : Nat) (f : Launch → Launch) : (s.updLaunch h f).g = s.g := rfl
@[simp] theorem State.updLaunch_groups (s : State) (h : Nat) (f : Launch → Launch) : (s.updLaunch h f).groups = s.groups := rfl
@[simp] theorem State.updLaunch_mem (s : State) (h : Nat) (f : Launch → Launch) : (s.updLaunch h f).mem = s.mem := rfl
@[simp] theorem State.updLaunch_cores (s : State) (h : Nat) (f : Launch → Launch) : (s.updLaunch h f).cores = s.cores := rfl
@[simp] theorem State.updLaunch_clusters (s : State) (h : Nat) (f : Launch → Launch) : (s.updLaunch h f).clusters = s.clusters := rfl
@[simp] theorem State.updLaunch_dies (s : State) (h : Nat) (f : Launch → Launch) : (s.updLaunch h f).dies = s.dies := rfl
@[simp] theorem State.updLaunch_launches (s : State) (h : Nat) (f : Launch → Launch) : (s.updLaunch h f).launches = modifyFirst (fun l => l.handle == h) f s.launches := rfl
@[simp] theorem State.updLaunch_wgs (s : State) (h : Nat) (f : Launch → Launch) : (s.updLaunch h f).wgs = s.wgs := rfl
@[simp] theorem State.updLaunch_insts (s : State) (h : Nat) (f : Launch → Launch) : (s.updLaunch h f).insts = s.insts := rfl
@[simp] theorem State.updLaunch_roots (s : State) (h : Nat) (f : Launch → Launch) : (s.updLaunch h f).roots = s.roots := rfl
@[simp] theorem State.updLaunch_tlbs (s : State) (h : Nat) (f : Launch → Launch) : (s.updLaunch h f).tlbs = s.tlbs := rfl
@[simp] theorem State.updLaunch_walkCache (s : State) (h : Nat) (f : Launch → Launch) : (s.updLaunch h f).walkCache = s.walkCache := rfl
@[simp] theorem State.updLaunch_misses (s : State) (h : Nat) (f : Launch → Launch) : (s.updLaunch h f).misses = s.misses := rfl
@[simp] theorem State.updLaunch_dir (s : State) (h : Nat) (f : Launch → Launch) : (s.updLaunch h f).dir = s.dir := rfl
@[simp] theorem State.updLaunch_l1 (s : State) (h : Nat) (f : Launch → Launch) : (s.updLaunch h f).l1 = s.l1 := rfl
@[simp] theorem State.updLaunch_msgs (s : State) (h : Nat) (f : Launch → Launch) : (s.updLaunch h f).msgs = s.msgs := rfl
@[simp] theorem State.updLaunch_l2 (s : State) (h : Nat) (f : Launch → Launch) : (s.updLaunch h f).l2 = s.l2 := rfl
@[simp] theorem State.updLaunch_wheels (s : State) (h : Nat) (f : Launch → Launch) : (s.updLaunch h f).wheels = s.wheels := rfl
@[simp] theorem State.updLaunch_hostCopies (s : State) (h : Nat) (f : Launch → Launch) : (s.updLaunch h f).hostCopies = s.hostCopies := rfl
@[simp] theorem State.updLaunch_fabric (s : State) (h : Nat) (f : Launch → Launch) : (s.updLaunch h f).fabric = s.fabric := rfl
@[simp] theorem State.updLaunch_failed (s : State) (h : Nat) (f : Launch → Launch) : (s.updLaunch h f).failed = s.failed := rfl
@[simp] theorem State.updLaunch_ctl (s : State) (h : Nat) (f : Launch → Launch) : (s.updLaunch h f).ctl = s.ctl := rfl
@[simp] theorem State.updLaunch_fallback (s : State) (h : Nat) (f : Launch → Launch) : (s.updLaunch h f).fallback = s.fallback := rfl
@[simp] theorem State.updLaunch_fallbackWait (s : State) (h : Nat) (f : Launch → Launch) : (s.updLaunch h f).fallbackWait = s.fallbackWait := rfl
@[simp] theorem State.updLaunch_module (s : State) (h : Nat) (f : Launch → Launch) : (s.updLaunch h f).module = s.module := rfl
@[simp] theorem State.updLaunch_clock (s : State) (h : Nat) (f : Launch → Launch) : (s.updLaunch h f).clock = s.clock := rfl
@[simp] theorem State.updLaunch_tstamp (s : State) (h : Nat) (f : Launch → Launch) : (s.updLaunch h f).tstamp = s.tstamp := rfl
@[simp] theorem State.updLaunch_nextHandle (s : State) (h : Nat) (f : Launch → Launch) : (s.updLaunch h f).nextHandle = s.nextHandle := rfl
@[simp] theorem State.updLaunch_nextKey (s : State) (h : Nat) (f : Launch → Launch) : (s.updLaunch h f).nextKey = s.nextKey := rfl
@[simp] theorem State.updLaunch_nextId (s : State) (h : Nat) (f : Launch → Launch) : (s.updLaunch h f).nextId = s.nextId := rfl
@[simp] theorem State.updLaunch_msix (s : State) (h : Nat) (f : Launch → Launch) : (s.updLaunch h f).msix = s.msix := rfl
@[simp] theorem State.updLaunch_hostLines (s : State) (h : Nat) (f : Launch → Launch) : (s.updLaunch h f).hostLines = s.hostLines := rfl
@[simp] theorem State.updLaunch_hostOut (s : State) (h : Nat) (f : Launch → Launch) : (s.updLaunch h f).hostOut = s.hostOut := rfl
@[simp] theorem State.updLaunch_fabOut (s : State) (h : Nat) (f : Launch → Launch) : (s.updLaunch h f).fabOut = s.fabOut := rfl
@[simp] theorem State.updLaunch_owed (s : State) (h : Nat) (f : Launch → Launch) : (s.updLaunch h f).owed = s.owed := rfl
@[simp] theorem State.updLaunch_modAcks (s : State) (h : Nat) (f : Launch → Launch) : (s.updLaunch h f).modAcks = s.modAcks := rfl
@[simp] theorem State.updLaunch_mergedOut (s : State) (h : Nat) (f : Launch → Launch) : (s.updLaunch h f).mergedOut = s.mergedOut := rfl
@[simp] theorem State.updLaunch_mailOut (s : State) (h : Nat) (f : Launch → Launch) : (s.updLaunch h f).mailOut = s.mailOut := rfl
@[simp] theorem State.updLaunch_dbgNext (s : State) (h : Nat) (f : Launch → Launch) : (s.updLaunch h f).dbgNext = s.dbgNext := rfl
@[simp] theorem State.updLaunch_dbgWait (s : State) (h : Nat) (f : Launch → Launch) : (s.updLaunch h f).dbgWait = s.dbgWait := rfl
@[simp] theorem State.updLaunch_reports (s : State) (h : Nat) (f : Launch → Launch) : (s.updLaunch h f).reports = s.reports := rfl
@[simp] theorem State.updLaunch_offWays (s : State) (h : Nat) (f : Launch → Launch) : (s.updLaunch h f).offWays = s.offWays := rfl
@[simp] theorem State.updLaunch_poison (s : State) (h : Nat) (f : Launch → Launch) : (s.updLaunch h f).poison = s.poison := rfl
@[simp] theorem State.updLaunch_stores (s : State) (h : Nat) (f : Launch → Launch) : (s.updLaunch h f).stores = s.stores := rfl
@[simp] theorem State.updLaunch_bad (s : State) (h : Nat) (f : Launch → Launch) : (s.updLaunch h f).bad = s.bad := rfl
@[simp] theorem State.updLaunch_minSvn (s : State) (h : Nat) (f : Launch → Launch) : (s.updLaunch h f).minSvn = s.minSvn := rfl
@[simp] theorem State.updLaunch_images (s : State) (h : Nat) (f : Launch → Launch) : (s.updLaunch h f).images = s.images := rfl
@[simp] theorem State.updLaunch_agenda (s : State) (h : Nat) (f : Launch → Launch) : (s.updLaunch h f).agenda = s.agenda := rfl
@[simp] theorem State.updLaunch_resident (s : State) (h : Nat) (f : Launch → Launch) : (s.updLaunch h f).resident = s.resident := rfl
@[simp] theorem State.updLaunch_defer (s : State) (h : Nat) (f : Launch → Launch) : (s.updLaunch h f).defer = s.defer := rfl
@[simp] theorem State.updLaunch_dtCycles (s : State) (h : Nat) (f : Launch → Launch) : (s.updLaunch h f).dtCycles = s.dtCycles := rfl
@[simp] theorem State.updLaunch_dtNs (s : State) (h : Nat) (f : Launch → Launch) : (s.updLaunch h f).dtNs = s.dtNs := rfl
@[simp] theorem State.updLaunch_free (s : State) (h : Nat) (f : Launch → Launch) : (s.updLaunch h f).free = s.free := rfl

/-! ### State.advance -/

@[simp] theorem State.advance_g (s : State) : (s.advance).g = s.g.setCur (s.cur.goto (s.cur.pc + 4)) := rfl
@[simp] theorem State.advance_groups (s : State) : (s.advance).groups = s.groups := rfl
@[simp] theorem State.advance_mem (s : State) : (s.advance).mem = s.mem := rfl
@[simp] theorem State.advance_cores (s : State) : (s.advance).cores = s.cores := rfl
@[simp] theorem State.advance_clusters (s : State) : (s.advance).clusters = s.clusters := rfl
@[simp] theorem State.advance_dies (s : State) : (s.advance).dies = s.dies := rfl
@[simp] theorem State.advance_launches (s : State) : (s.advance).launches = s.launches := rfl
@[simp] theorem State.advance_wgs (s : State) : (s.advance).wgs = s.wgs := rfl
@[simp] theorem State.advance_insts (s : State) : (s.advance).insts = s.insts := rfl
@[simp] theorem State.advance_roots (s : State) : (s.advance).roots = s.roots := rfl
@[simp] theorem State.advance_tlbs (s : State) : (s.advance).tlbs = s.tlbs := rfl
@[simp] theorem State.advance_walkCache (s : State) : (s.advance).walkCache = s.walkCache := rfl
@[simp] theorem State.advance_misses (s : State) : (s.advance).misses = s.misses := rfl
@[simp] theorem State.advance_dir (s : State) : (s.advance).dir = s.dir := rfl
@[simp] theorem State.advance_l1 (s : State) : (s.advance).l1 = s.l1 := rfl
@[simp] theorem State.advance_msgs (s : State) : (s.advance).msgs = s.msgs := rfl
@[simp] theorem State.advance_l2 (s : State) : (s.advance).l2 = s.l2 := rfl
@[simp] theorem State.advance_wheels (s : State) : (s.advance).wheels = s.wheels := rfl
@[simp] theorem State.advance_hostCopies (s : State) : (s.advance).hostCopies = s.hostCopies := rfl
@[simp] theorem State.advance_fabric (s : State) : (s.advance).fabric = s.fabric := rfl
@[simp] theorem State.advance_failed (s : State) : (s.advance).failed = s.failed := rfl
@[simp] theorem State.advance_ctl (s : State) : (s.advance).ctl = s.ctl := rfl
@[simp] theorem State.advance_fallback (s : State) : (s.advance).fallback = s.fallback := rfl
@[simp] theorem State.advance_fallbackWait (s : State) : (s.advance).fallbackWait = s.fallbackWait := rfl
@[simp] theorem State.advance_module (s : State) : (s.advance).module = s.module := rfl
@[simp] theorem State.advance_clock (s : State) : (s.advance).clock = s.clock := rfl
@[simp] theorem State.advance_tstamp (s : State) : (s.advance).tstamp = s.tstamp := rfl
@[simp] theorem State.advance_nextHandle (s : State) : (s.advance).nextHandle = s.nextHandle := rfl
@[simp] theorem State.advance_nextKey (s : State) : (s.advance).nextKey = s.nextKey := rfl
@[simp] theorem State.advance_nextId (s : State) : (s.advance).nextId = s.nextId := rfl
@[simp] theorem State.advance_msix (s : State) : (s.advance).msix = s.msix := rfl
@[simp] theorem State.advance_hostLines (s : State) : (s.advance).hostLines = s.hostLines := rfl
@[simp] theorem State.advance_hostOut (s : State) : (s.advance).hostOut = s.hostOut := rfl
@[simp] theorem State.advance_fabOut (s : State) : (s.advance).fabOut = s.fabOut := rfl
@[simp] theorem State.advance_owed (s : State) : (s.advance).owed = s.owed := rfl
@[simp] theorem State.advance_modAcks (s : State) : (s.advance).modAcks = s.modAcks := rfl
@[simp] theorem State.advance_mergedOut (s : State) : (s.advance).mergedOut = s.mergedOut := rfl
@[simp] theorem State.advance_mailOut (s : State) : (s.advance).mailOut = s.mailOut := rfl
@[simp] theorem State.advance_dbgNext (s : State) : (s.advance).dbgNext = s.dbgNext := rfl
@[simp] theorem State.advance_dbgWait (s : State) : (s.advance).dbgWait = s.dbgWait := rfl
@[simp] theorem State.advance_reports (s : State) : (s.advance).reports = s.reports := rfl
@[simp] theorem State.advance_offWays (s : State) : (s.advance).offWays = s.offWays := rfl
@[simp] theorem State.advance_poison (s : State) : (s.advance).poison = s.poison := rfl
@[simp] theorem State.advance_stores (s : State) : (s.advance).stores = s.stores := rfl
@[simp] theorem State.advance_bad (s : State) : (s.advance).bad = s.bad := rfl
@[simp] theorem State.advance_minSvn (s : State) : (s.advance).minSvn = s.minSvn := rfl
@[simp] theorem State.advance_images (s : State) : (s.advance).images = s.images := rfl
@[simp] theorem State.advance_agenda (s : State) : (s.advance).agenda = s.agenda := rfl
@[simp] theorem State.advance_resident (s : State) : (s.advance).resident = s.resident := rfl
@[simp] theorem State.advance_defer (s : State) : (s.advance).defer = s.defer := rfl
@[simp] theorem State.advance_dtCycles (s : State) : (s.advance).dtCycles = s.dtCycles := rfl
@[simp] theorem State.advance_dtNs (s : State) : (s.advance).dtNs = s.dtNs := rfl
@[simp] theorem State.advance_free (s : State) : (s.advance).free = s.free := rfl

/-! ### State.jump -/

@[simp] theorem State.jump_g (s : State) (pc : W64) : (s.jump pc).g = s.g.setCur (s.cur.goto pc) := rfl
@[simp] theorem State.jump_groups (s : State) (pc : W64) : (s.jump pc).groups = s.groups := rfl
@[simp] theorem State.jump_mem (s : State) (pc : W64) : (s.jump pc).mem = s.mem := rfl
@[simp] theorem State.jump_cores (s : State) (pc : W64) : (s.jump pc).cores = s.cores := rfl
@[simp] theorem State.jump_clusters (s : State) (pc : W64) : (s.jump pc).clusters = s.clusters := rfl
@[simp] theorem State.jump_dies (s : State) (pc : W64) : (s.jump pc).dies = s.dies := rfl
@[simp] theorem State.jump_launches (s : State) (pc : W64) : (s.jump pc).launches = s.launches := rfl
@[simp] theorem State.jump_wgs (s : State) (pc : W64) : (s.jump pc).wgs = s.wgs := rfl
@[simp] theorem State.jump_insts (s : State) (pc : W64) : (s.jump pc).insts = s.insts := rfl
@[simp] theorem State.jump_roots (s : State) (pc : W64) : (s.jump pc).roots = s.roots := rfl
@[simp] theorem State.jump_tlbs (s : State) (pc : W64) : (s.jump pc).tlbs = s.tlbs := rfl
@[simp] theorem State.jump_walkCache (s : State) (pc : W64) : (s.jump pc).walkCache = s.walkCache := rfl
@[simp] theorem State.jump_misses (s : State) (pc : W64) : (s.jump pc).misses = s.misses := rfl
@[simp] theorem State.jump_dir (s : State) (pc : W64) : (s.jump pc).dir = s.dir := rfl
@[simp] theorem State.jump_l1 (s : State) (pc : W64) : (s.jump pc).l1 = s.l1 := rfl
@[simp] theorem State.jump_msgs (s : State) (pc : W64) : (s.jump pc).msgs = s.msgs := rfl
@[simp] theorem State.jump_l2 (s : State) (pc : W64) : (s.jump pc).l2 = s.l2 := rfl
@[simp] theorem State.jump_wheels (s : State) (pc : W64) : (s.jump pc).wheels = s.wheels := rfl
@[simp] theorem State.jump_hostCopies (s : State) (pc : W64) : (s.jump pc).hostCopies = s.hostCopies := rfl
@[simp] theorem State.jump_fabric (s : State) (pc : W64) : (s.jump pc).fabric = s.fabric := rfl
@[simp] theorem State.jump_failed (s : State) (pc : W64) : (s.jump pc).failed = s.failed := rfl
@[simp] theorem State.jump_ctl (s : State) (pc : W64) : (s.jump pc).ctl = s.ctl := rfl
@[simp] theorem State.jump_fallback (s : State) (pc : W64) : (s.jump pc).fallback = s.fallback := rfl
@[simp] theorem State.jump_fallbackWait (s : State) (pc : W64) : (s.jump pc).fallbackWait = s.fallbackWait := rfl
@[simp] theorem State.jump_module (s : State) (pc : W64) : (s.jump pc).module = s.module := rfl
@[simp] theorem State.jump_clock (s : State) (pc : W64) : (s.jump pc).clock = s.clock := rfl
@[simp] theorem State.jump_tstamp (s : State) (pc : W64) : (s.jump pc).tstamp = s.tstamp := rfl
@[simp] theorem State.jump_nextHandle (s : State) (pc : W64) : (s.jump pc).nextHandle = s.nextHandle := rfl
@[simp] theorem State.jump_nextKey (s : State) (pc : W64) : (s.jump pc).nextKey = s.nextKey := rfl
@[simp] theorem State.jump_nextId (s : State) (pc : W64) : (s.jump pc).nextId = s.nextId := rfl
@[simp] theorem State.jump_msix (s : State) (pc : W64) : (s.jump pc).msix = s.msix := rfl
@[simp] theorem State.jump_hostLines (s : State) (pc : W64) : (s.jump pc).hostLines = s.hostLines := rfl
@[simp] theorem State.jump_hostOut (s : State) (pc : W64) : (s.jump pc).hostOut = s.hostOut := rfl
@[simp] theorem State.jump_fabOut (s : State) (pc : W64) : (s.jump pc).fabOut = s.fabOut := rfl
@[simp] theorem State.jump_owed (s : State) (pc : W64) : (s.jump pc).owed = s.owed := rfl
@[simp] theorem State.jump_modAcks (s : State) (pc : W64) : (s.jump pc).modAcks = s.modAcks := rfl
@[simp] theorem State.jump_mergedOut (s : State) (pc : W64) : (s.jump pc).mergedOut = s.mergedOut := rfl
@[simp] theorem State.jump_mailOut (s : State) (pc : W64) : (s.jump pc).mailOut = s.mailOut := rfl
@[simp] theorem State.jump_dbgNext (s : State) (pc : W64) : (s.jump pc).dbgNext = s.dbgNext := rfl
@[simp] theorem State.jump_dbgWait (s : State) (pc : W64) : (s.jump pc).dbgWait = s.dbgWait := rfl
@[simp] theorem State.jump_reports (s : State) (pc : W64) : (s.jump pc).reports = s.reports := rfl
@[simp] theorem State.jump_offWays (s : State) (pc : W64) : (s.jump pc).offWays = s.offWays := rfl
@[simp] theorem State.jump_poison (s : State) (pc : W64) : (s.jump pc).poison = s.poison := rfl
@[simp] theorem State.jump_stores (s : State) (pc : W64) : (s.jump pc).stores = s.stores := rfl
@[simp] theorem State.jump_bad (s : State) (pc : W64) : (s.jump pc).bad = s.bad := rfl
@[simp] theorem State.jump_minSvn (s : State) (pc : W64) : (s.jump pc).minSvn = s.minSvn := rfl
@[simp] theorem State.jump_images (s : State) (pc : W64) : (s.jump pc).images = s.images := rfl
@[simp] theorem State.jump_agenda (s : State) (pc : W64) : (s.jump pc).agenda = s.agenda := rfl
@[simp] theorem State.jump_resident (s : State) (pc : W64) : (s.jump pc).resident = s.resident := rfl
@[simp] theorem State.jump_defer (s : State) (pc : W64) : (s.jump pc).defer = s.defer := rfl
@[simp] theorem State.jump_dtCycles (s : State) (pc : W64) : (s.jump pc).dtCycles = s.dtCycles := rfl
@[simp] theorem State.jump_dtNs (s : State) (pc : W64) : (s.jump pc).dtNs = s.dtNs := rfl
@[simp] theorem State.jump_free (s : State) (pc : W64) : (s.jump pc).free = s.free := rfl

/-! ### Group.setCur -/

@[simp] theorem Group.setCur_core (g : Group) (c : Slot) : (g.setCur c).core = g.core := by unfold Group.setCur; split <;> rfl
@[simp] theorem Group.setCur_slot (g : Group) (c : Slot) : (g.setCur c).slot = g.slot := by unfold Group.setCur; split <;> rfl
@[simp] theorem Group.setCur_sup (g : Group) (c : Slot) : (g.setCur c).sup = g.sup := by unfold Group.setCur; split <;> rfl
@[simp] theorem Group.setCur_launch (g : Group) (c : Slot) : (g.setCur c).launch = g.launch := by unfold Group.setCur; split <;> rfl
@[simp] theorem Group.setCur_wg (g : Group) (c : Slot) : (g.setCur c).wg = g.wg := by unfold Group.setCur; split <;> rfl
@[simp] theorem Group.setCur_gidx (g : Group) (c : Slot) : (g.setCur c).gidx = g.gidx := by unfold Group.setCur; split <;> rfl
@[simp] theorem Group.setCur_asid (g : Group) (c : Slot) : (g.setCur c).asid = g.asid := by unfold Group.setCur; split <;> rfl
@[simp] theorem Group.setCur_root (g : Group) (c : Slot) : (g.setCur c).root = g.root := by unfold Group.setCur; split <;> rfl
@[simp] theorem Group.setCur_prio (g : Group) (c : Slot) : (g.setCur c).prio = g.prio := by unfold Group.setCur; split <;> rfl
@[simp] theorem Group.setCur_lanes (g : Group) (c : Slot) : (g.setCur c).lanes = g.lanes := by unfold Group.setCur; split <;> rfl
@[simp] theorem Group.setCur_inB (g : Group) (c : Slot) : (g.setCur c).inB = g.inB := by unfold Group.setCur; split <;> rfl
@[simp] theorem Group.setCur_save (g : Group) (c : Slot) : (g.setCur c).save = g.save := by unfold Group.setCur; split <;> rfl
@[simp] theorem Group.setCur_seqNext (g : Group) (c : Slot) : (g.setCur c).seqNext = g.seqNext := by unfold Group.setCur; split <;> rfl
@[simp] theorem Group.setCur_frameCtr (g : Group) (c : Slot) : (g.setCur c).frameCtr = g.frameCtr := by unfold Group.setCur; split <;> rfl
@[simp] theorem Group.setCur_v (g : Group) (c : Slot) : (g.setCur c).v = g.v := by unfold Group.setCur; split <;> rfl
@[simp] theorem Group.setCur_s (g : Group) (c : Slot) : (g.setCur c).s = g.s := by unfold Group.setCur; split <;> rfl
@[simp] theorem Group.setCur_p (g : Group) (c : Slot) : (g.setCur c).p = g.p := by unfold Group.setCur; split <;> rfl
@[simp] theorem Group.setCur_t (g : Group) (c : Slot) : (g.setCur c).t = g.t := by unfold Group.setCur; split <;> rfl
@[simp] theorem Group.setCur_ac (g : Group) (c : Slot) : (g.setCur c).ac = g.ac := by unfold Group.setCur; split <;> rfl
@[simp] theorem Group.setCur_bm (g : Group) (c : Slot) : (g.setCur c).bm = g.bm := by unfold Group.setCur; split <;> rfl
@[simp] theorem Group.setCur_pcfg (g : Group) (c : Slot) : (g.setCur c).pcfg = g.pcfg := by unfold Group.setCur; split <;> rfl
@[simp] theorem Group.setCur_schk (g : Group) (c : Slot) : (g.setCur c).schk = g.schk := by unfold Group.setCur; split <;> rfl
@[simp] theorem Group.setCur_fmt (g : Group) (c : Slot) : (g.setCur c).fmt = g.fmt := by unfold Group.setCur; split <;> rfl
@[simp] theorem Group.setCur_dsave (g : Group) (c : Slot) : (g.setCur c).dsave = g.dsave := by unfold Group.setCur; split <;> rfl
@[simp] theorem Group.setCur_wid (g : Group) (c : Slot) : (g.setCur c).wid = g.wid := by unfold Group.setCur; split <;> rfl
@[simp] theorem Group.setCur_txst (g : Group) (c : Slot) : (g.setCur c).txst = g.txst := by unfold Group.setCur; split <;> rfl
@[simp] theorem Group.setCur_tx (g : Group) (c : Slot) : (g.setCur c).tx = g.tx := by unfold Group.setCur; split <;> rfl
@[simp] theorem Group.setCur_slab (g : Group) (c : Slot) : (g.setCur c).slab = g.slab := by unfold Group.setCur; split <;> rfl
@[simp] theorem Group.setCur_regionNext (g : Group) (c : Slot) : (g.setCur c).regionNext = g.regionNext := by unfold Group.setCur; split <;> rfl
@[simp] theorem Group.setCur_commits (g : Group) (c : Slot) : (g.setCur c).commits = g.commits := by unfold Group.setCur; split <;> rfl
@[simp] theorem Group.setCur_status (g : Group) (c : Slot) : (g.setCur c).status = g.status := by unfold Group.setCur; split <;> rfl
@[simp] theorem Group.setCur_stopAsked (g : Group) (c : Slot) : (g.setCur c).stopAsked = g.stopAsked := by unfold Group.setCur; split <;> rfl
@[simp] theorem Group.setCur_saveAsked (g : Group) (c : Slot) : (g.setCur c).saveAsked = g.saveAsked := by unfold Group.setCur; split <;> rfl
@[simp] theorem Group.setCur_lastExit (g : Group) (c : Slot) : (g.setCur c).lastExit = g.lastExit := by unfold Group.setCur; split <;> rfl
@[simp] theorem Group.setCur_lastMask (g : Group) (c : Slot) : (g.setCur c).lastMask = g.lastMask := by unfold Group.setCur; split <;> rfl
@[simp] theorem Group.setCur_inflight (g : Group) (c : Slot) : (g.setCur c).inflight = g.inflight := by unfold Group.setCur; split <;> rfl
@[simp] theorem Group.setCur_retSlots (g : Group) (c : Slot) : (g.setCur c).retSlots = g.retSlots := by unfold Group.setCur; split <;> rfl
@[simp] theorem Group.setCur_early (g : Group) (c : Slot) : (g.setCur c).early = g.early := by unfold Group.setCur; split <;> rfl
@[simp] theorem Group.setCur_lateFault (g : Group) (c : Slot) : (g.setCur c).lateFault = g.lateFault := by unfold Group.setCur; split <;> rfl
@[simp] theorem Group.setCur_lateUnsup (g : Group) (c : Slot) : (g.setCur c).lateUnsup = g.lateUnsup := by unfold Group.setCur; split <;> rfl
@[simp] theorem Group.setCur_lateInfo (g : Group) (c : Slot) : (g.setCur c).lateInfo = g.lateInfo := by unfold Group.setCur; split <;> rfl
@[simp] theorem Group.setCur_liveMask (g : Group) (c : Slot) : (g.setCur c).liveMask = g.liveMask := by unfold Group.setCur; split <;> rfl
@[simp] theorem Group.setCur_sortKey (g : Group) (c : Slot) : (g.setCur c).sortKey = g.sortKey := by unfold Group.setCur; split <;> rfl
@[simp] theorem Group.setCur_hash (g : Group) (c : Slot) : (g.setCur c).hash = g.hash := by unfold Group.setCur; split <;> rfl
@[simp] theorem Group.setCur_hashCount (g : Group) (c : Slot) : (g.setCur c).hashCount = g.hashCount := by unfold Group.setCur; split <;> rfl
@[simp] theorem Group.setCur_born (g : Group) (c : Slot) : (g.setCur c).born = g.born := by unfold Group.setCur; split <;> rfl
@[simp] theorem Group.setCur_matFailed (g : Group) (c : Slot) : (g.setCur c).matFailed = g.matFailed := by unfold Group.setCur; split <;> rfl
@[simp] theorem Group.setCur_matWait (g : Group) (c : Slot) : (g.setCur c).matWait = g.matWait := by unfold Group.setCur; split <;> rfl
@[simp] theorem Group.setCur_tlbiWait (g : Group) (c : Slot) : (g.setCur c).tlbiWait = g.tlbiWait := by unfold Group.setCur; split <;> rfl
@[simp] theorem Group.setCur_fenceWait (g : Group) (c : Slot) : (g.setCur c).fenceWait = g.fenceWait := by unfold Group.setCur; split <;> rfl
@[simp] theorem Group.setCur_pressWait (g : Group) (c : Slot) : (g.setCur c).pressWait = g.pressWait := by unfold Group.setCur; split <;> rfl

/-! ### Lists -/

@[simp] theorem modifyAt_length {α : Type} (f : α → α) (n : Nat) (xs : List α) : (modifyAt f n xs).length = xs.length := by
  induction xs generalizing n with
  | nil => cases n <;> rfl
  | cons x xs ih => cases n <;> simp [modifyAt, ih]

/-- An entry is replaced at its index and every other entry stays. -/
theorem modifyAt_getD {α : Type} (f : α → α) (n k : Nat) (xs : List α) (d : α) :
    (modifyAt f n xs).getD k d = if k = n ∧ n < xs.length then f (xs.getD k d) else xs.getD k d := by
  induction xs generalizing n k with
  | nil => simp [modifyAt]
  | cons x xs ih =>
    cases n with
    | zero => cases k <;> simp [modifyAt]
    | succ n =>
      cases k with
      | zero => simp [modifyAt]
      | succ k => simpa [modifyAt, Nat.succ_lt_succ_iff] using ih n k

end Sys2Proof.Machine
end

