-- ==== Sys2Proof/Laws/Regs.lean ====
section
/-!
SUPPORT. The laws of the register operations: a read after a write, the register that is always zero, the lanes of a vector register, and what a
trap can do.
-/
namespace Sys2Proof.Machine
open Sys2Proof

set_option Elab.async false

/-! ### Uniform registers (R198) -/

@[simp] theorem Group.readS_zero (g : Group) : g.readS 0 = 0 := rfl
@[simp] theorem Group.writeS_zero (g : Group) (x : W64) : g.writeS 0 x = g := rfl
theorem Group.readS_writeS (g : Group) (n k : Nat) (x : W64) :
    (g.writeS n x).readS k = if k = n ∧ n ≠ 0 ∧ n < g.s.length then x else g.readS k := by
  by_cases hn : n = 0
  · subst hn; simp
  · by_cases hk : k = 0
    · subst hk
      have : ¬ (0 = n ∧ n ≠ 0 ∧ n < g.s.length) := fun h => hn h.1.symm
      rw [if_neg this]; rfl
    · have e : g.writeS n x = { g with s := g.s.set n x } := by unfold Group.writeS; rw [if_neg hn]
      have r : ∀ h : Group, h.readS k = h.s.getD k 0 := fun h => by unfold Group.readS; rw [if_neg hk]
      rw [r, r, e]
      simp only [List.getD_eq_getElem?_getD, List.getElem?_set]
      by_cases h : k = n
      · subst h
        by_cases hl : k < g.s.length
        · simp [hl, hk]
        · simp [hl]
      · have : ¬ n = k := fun e => h e.symm
        simp [h, this]
@[simp] theorem Group.writeS_lanes (g : Group) (n : Nat) (x : W64) : (g.writeS n x).lanes = g.lanes := by unfold Group.writeS; split <;> rfl
@[simp] theorem Group.writeS_v (g : Group) (n : Nat) (x : W64) : (g.writeS n x).v = g.v := by unfold Group.writeS; split <;> rfl
@[simp] theorem Group.writeS_p (g : Group) (n : Nat) (x : W64) : (g.writeS n x).p = g.p := by unfold Group.writeS; split <;> rfl
@[simp] theorem Group.writeS_length (g : Group) (n : Nat) (x : W64) : (g.writeS n x).s.length = g.s.length := by unfold Group.writeS; split <;> simp

/-! ### Vector and predicate registers (R239, R281) -/

theorem writeLanes_getD (mask : W32) (z : Bool) (old : VReg) (f : Nat → W32) (l : Nat) (h : l < 32) :
    (writeLanes mask z old f).getD l 0 = if laneOn mask l then f l else if z then 0 else old.getD l 0 := by
  have he : allLanes = List.range 32 := rfl
  simp [writeLanes, he, h]
@[simp] theorem writeLanes_length (mask : W32) (z : Bool) (old : VReg) (f : Nat → W32) : (writeLanes mask z old f).length = 32 := by
  unfold writeLanes; rw [List.length_map]; rfl

/-- Every lane of a vector register that is written, by its place in the mask. -/
theorem Group.lane_writeV (g : Group) (n l : Nat) (mask : W32) (z : Bool) (f : Nat → W32) (hm : mask ≠ 0) (hn : n < g.v.length) (hl : l < 32) :
    (g.writeV n mask z f).lane n l = if laneOn mask l then f l else if z then 0 else g.lane n l := by
  unfold Group.writeV
  rw [if_neg hm]
  simp only [Group.lane, Group.readV, List.getD_eq_getElem?_getD, List.getElem?_set]
  simp only [hn, if_true, Option.getD_some]
  have := writeLanes_getD mask z (g.v.getD n []) f l hl
  simpa [List.getD_eq_getElem?_getD, hn] using this

/-- Another vector register stays. -/
theorem Group.readV_writeV_ne (g : Group) (n k : Nat) (mask : W32) (z : Bool) (f : Nat → W32) (h : k ≠ n) : (g.writeV n mask z f).readV k = g.readV k := by
  unfold Group.writeV Group.readV
  split
  · rfl
  · simp only [List.getD_eq_getElem?_getD, List.getElem?_set]
    rw [if_neg (fun e => h e.symm)]

@[simp] theorem Group.writeV_none (g : Group) (n : Nat) (z : Bool) (f : Nat → W32) : g.writeV n 0 z f = g := by simp [Group.writeV]
@[simp] theorem Group.writeP_none (g : Group) (n : Nat) (z : Bool) (f : Nat → Bool) : g.writeP n 0 z f = g := by simp [Group.writeP]

/-! ### Traps (R171, R355, R356) -/

/-- What a trap can do: outside a trap context it always has a next state. -/
theorem State.takeTrap_next (s : State) (t : Trap) (h : s.g.slot ≠ 64) : ∃ u, s.takeTrap t = .next u := by
  unfold State.takeTrap
  rw [if_neg h]
  split <;> exact ⟨_, rfl⟩

/-- A group with no open transaction on its active lanes delivers its trap. -/
theorem State.takeTrap_deliver (s : State) (t : Trap) (h : s.g.slot ≠ 64) (hx : s.g.txIn s.exm &&& s.g.openLanes = 0) :
    s.takeTrap t = .next (s.deliver t false t.async) := by
  unfold State.takeTrap
  rw [if_neg h, if_pos hx]

/-- No trap is refused, and a fault is only ever that of a trap context. -/
theorem State.takeTrap_cases (s : State) (t : Trap) : (∃ u, s.takeTrap t = .next u) ∨ (s.g.slot = 64 ∧ s.takeTrap t = .fault (.trapInTrapContext t.code)) := by
  by_cases h : s.g.slot = 64
  · exact .inr ⟨h, by unfold State.takeTrap; rw [if_pos h]⟩
  · exact .inl (s.takeTrap_next t h)

end Sys2Proof.Machine
end

