-- ==== Sys2Proof/Machine/Places.lean ====
section
/-!
DEFINITION. Where things lie and in which order events count, as far as no instruction's effect depends on it: the ring of dies (R8,
R9), scratchpad banks (R69) and the placement of memory in the HBM stacks (R83).
-/
namespace Sys2Proof.Machine
open Sys2Proof

/-- Whether a link of the ring joins two dies (R8): they differ in their row or in their column, and not in both. -/
def dieLinked (a b : Nat) : Bool := (a ^^^ b) == 1 || (a ^^^ b) == 2

/-- The dies that a message crosses from one die to another, the last one included (R9): first the column changes, then the row. -/
def diePath (a b : Nat) : List Nat :=
  let turn := b % 2 + a / 2 * 2
  (if turn = a then [] else [turn]) ++ (if b = turn then [] else [b])

/-- The bank of a scratchpad byte (R69). -/
def bankOf (x : Nat) : Nat := natField x 2 7

/-- The cycles of a vector access to the scratchpad (R69): the largest number of distinct words that its lanes address in one bank. -/
def bankCycles (bytes : List Nat) : Nat :=
  let words := dedup (bytes.map fun x => x / 4)
  (List.range 128).foldl (fun m k => max m (words.filter fun w => w % 128 == k).length) 0

/-- The HBM stack of a local address (R83). -/
def hbmStack (a : Nat) : Nat := 4 * homeDie a + homeSlice a % 4
/-- The pseudo-channel of a local address in its stack (R83). -/
def hbmChannel (a : Nat) : Nat := homeSlice a / 4 * 64 + (natField a 18 6 ^^^ natField a 30 6)
/-- The byte position of a local address in its pseudo-channel (R83). -/
def hbmPos (a : Nat) : Nat := natField a 24 19 * 2048 + a % 2048

end Sys2Proof.Machine
end

