-- ==== Sys2Proof/Tests/Slice0.lean ====
section
/-!
SUPPORT. The model's own tests. `test_…`: ill-formed terms, words of the manual and single steps whose results are the manual's or worked by hand
from it. `witness_…`: for each obligation, states and operands that meet its hypotheses, clause by clause.
-/
namespace Sys2Proof.Tests
open Sys2Proof Sys2Proof.Machine

set_option Elab.async false

/-! ### Ill-formed terms, one for each check of each form -/

theorem test_ill_formed_1 : (([.hintSch 4 14 1 6 32, .hintSch 0 12 9 1024 9, .hintSch 127 8 0 5 9, .hintSch 9 31 0 1 1, .hintSch 2 0 16384 8 6, .hintImm 4194304,
    .hintOrd 6 4, .hintOrd 3 5, .hintMod false 4 false 0 true 0 7, .hintMod false 1 true 3 false 0 0, .hintMod false 0 false 0 false 5 0, .hintExt 12 0 0,
    .hintExt 2 3 5, .hintExt 2 0 4194304, .hintExt 0 7 7, .br 4194304, .bxz 4194304, .bxnz 4194304,
    .bxall 4194304, .bs 8192 4 16, .bs 3 14 63, .bs 6 0 65536, .call 4194304, .bdiv 128 true 0] : List Instr).all fun i => !i.wellFormed) = true := by decide
theorem test_ill_formed_2 : (([.bdiv 1 false 4194304, .calli 128, .jmpi 128, .bjt 8192 4 16, .bjt 63 127 15, .bjt 32 31 8192,
    .mwait 64 0 false true 0, .mwait 5 15 false false 7, .mwait 4 256 false false 5, .spawn 8192 4 false, .spawn 10 127 true, .spawn 63 7 true,
    .waitc 32 64, .waitc 8192 4, .trap 8192, .brk 8192, .xmGet 128, .xmSet 32 64,
    .xmSet 8192 4, .xmAnd 32 64, .xmAnd 8192 4, .xmAndn 32 64, .xmAndn 8192 4, .xmFromp 32 64] : List Instr).all fun i => !i.wellFormed) = true := by decide
theorem test_ill_formed_3 : (([.xmFromp 8192 4, .xmPop 128, .sadd 16 63 127 true, .sadd 127 13 2 false, .sadd 15 1048576 8 false, .ssub 16 63 127 true,
    .ssub 127 13 2 false, .ssub 15 1048576 8 false, .smul 16 63 127 true, .smul 127 13 2 false, .smul 15 1048576 8 false, .smulh 16 63 127 true,
    .smulh 127 13 2 false, .smulh 15 1048576 8 false, .smulhu 16 63 127 true, .smulhu 127 13 2 false, .smulhu 15 1048576 8 false, .sdiv 16 63 127 true,
    .sdiv 127 13 2 false, .sdiv 15 1048576 8 false, .sdivu 16 63 127 true, .sdivu 127 13 2 false, .sdivu 15 1048576 8 false, .srem 16 63 127 true] : List Instr).all fun i => !i.wellFormed) = true := by decide
theorem test_ill_formed_4 : (([.srem 127 13 2 false, .srem 15 1048576 8 false, .sand 16 63 127 true, .sand 127 13 2 false, .sand 15 1048576 8 false, .sor 16 63 127 true,
    .sor 127 13 2 false, .sor 15 1048576 8 false, .sxor 16 63 127 true, .sxor 127 13 2 false, .sxor 15 1048576 8 false, .sandn 16 63 127 true,
    .sandn 127 13 2 false, .sandn 15 1048576 8 false, .sshl 16 63 127 true, .sshl 127 13 2 false, .sshl 15 1048576 8 false, .sshr 16 63 127 true,
    .sshr 127 13 2 false, .sshr 15 1048576 8 false, .ssra 16 63 127 true, .ssra 127 13 2 false, .ssra 15 1048576 8 false, .srot 16 63 127 true] : List Instr).all fun i => !i.wellFormed) = true := by decide
theorem test_ill_formed_5 : (([.srot 127 13 2 false, .srot 15 1048576 8 false, .smin 16 63 127 true, .smin 127 13 2 false, .smin 15 1048576 8 false, .sminu 16 63 127 true,
    .sminu 127 13 2 false, .sminu 15 1048576 8 false, .smax 16 63 127 true, .smax 127 13 2 false, .smax 15 1048576 8 false, .smaxu 16 63 127 true,
    .smaxu 127 13 2 false, .smaxu 15 1048576 8 false, .spopc 8192 4 false, .spopc 63 127 true, .sclz 8192 4 false, .sclz 63 127 true,
    .sctz 8192 4 false, .sctz 63 127 true, .sbrev 8192 4 false, .sbrev 63 127 true, .sbfx 16 63 127 true, .sbfx 127 13 2 false] : List Instr).all fun i => !i.wellFormed) = true := by decide
theorem test_ill_formed_6 : (([.sbfx 15 1048576 8 false, .sbfi 16 63 127 true, .sbfi 127 13 2 false, .sbfi 15 1048576 8 false, .sseq 16 63 127 true, .sseq 127 13 2 false,
    .sseq 15 1048576 8 false, .sslt 16 63 127 true, .sslt 127 13 2 false, .sslt 15 1048576 8 false, .ssltu 16 63 127 true, .ssltu 127 13 2 false,
    .ssltu 15 1048576 8 false, .saddi 8192 4 16, .saddi 63 127 15, .saddi 6 0 65536, .sli 128 127, .sli 15 1048576,
    .sandi 8192 4 16, .sandi 63 127 15, .sandi 6 0 65536, .sori 8192 4 16, .sori 63 127 15, .sori 6 0 65536] : List Instr).all fun i => !i.wellFormed) = true := by decide
theorem test_ill_formed_7 : (([.sshi 13 0 true 64 4, .sshi 31 31 false 0 65536, .sshi 4 256 false 0 5, .sshi 127 16 false 0 0, .sshi 14 0 true 2 63, .smfs 16 63,
    .smfs 127 15, .smts 0 3, .smts 127 15, .vmfs 3 32 false, .vmfs 8192 4 false, .satom 0 12 8 0 8192,
    .satom 0 8 2 3 5, .satom 0 0 8 0 15, .satom 128 32 0 0 11, .satom 1 8192 63 2 8, .satom 14 1 1048576 0 6, .scas 1048576 10 10 0 1,
    .scas 2 1048576 0 2 0, .scas 12 11 1024 0 0, .scas 16 15 8 2 3, .scas 0 1 9 0 2, .scas 5 4 7 3 1, .vadd 127 ⟨3, 15⟩ ⟨63, 14⟩] : List Instr).all fun i => !i.wellFormed) = true := by decide
theorem test_ill_formed_8 : (([.vadd 64 ⟨1048576, 0⟩ ⟨0, 127⟩, .vadd 128 ⟨0, 10⟩ ⟨3, 7⟩, .vsub 127 ⟨3, 15⟩ ⟨63, 14⟩, .vsub 64 ⟨1048576, 0⟩ ⟨0, 127⟩, .vsub 128 ⟨0, 10⟩ ⟨3, 7⟩, .vmul 127 ⟨3, 15⟩ ⟨63, 14⟩,
    .vmul 64 ⟨1048576, 0⟩ ⟨0, 127⟩, .vmul 128 ⟨0, 10⟩ ⟨3, 7⟩, .vmulh 127 ⟨3, 15⟩ ⟨63, 14⟩, .vmulh 64 ⟨1048576, 0⟩ ⟨0, 127⟩, .vmulh 128 ⟨0, 10⟩ ⟨3, 7⟩, .vmulhu 127 ⟨3, 15⟩ ⟨63, 14⟩,
    .vmulhu 64 ⟨1048576, 0⟩ ⟨0, 127⟩, .vmulhu 128 ⟨0, 10⟩ ⟨3, 7⟩, .vmad 127 ⟨3, 15⟩ ⟨63, 14⟩, .vmad 64 ⟨1048576, 0⟩ ⟨0, 127⟩, .vmad 128 ⟨0, 10⟩ ⟨3, 7⟩, .vand 127 ⟨3, 15⟩ ⟨63, 14⟩,
    .vand 64 ⟨1048576, 0⟩ ⟨0, 127⟩, .vand 128 ⟨0, 10⟩ ⟨3, 7⟩, .vor 127 ⟨3, 15⟩ ⟨63, 14⟩, .vor 64 ⟨1048576, 0⟩ ⟨0, 127⟩, .vor 128 ⟨0, 10⟩ ⟨3, 7⟩, .vxor 127 ⟨3, 15⟩ ⟨63, 14⟩] : List Instr).all fun i => !i.wellFormed) = true := by decide
theorem test_ill_formed_9 : (([.vxor 64 ⟨1048576, 0⟩ ⟨0, 127⟩, .vxor 128 ⟨0, 10⟩ ⟨3, 7⟩, .vandn 127 ⟨3, 15⟩ ⟨63, 14⟩, .vandn 64 ⟨1048576, 0⟩ ⟨0, 127⟩, .vandn 128 ⟨0, 10⟩ ⟨3, 7⟩, .vshl 127 ⟨3, 15⟩ ⟨63, 14⟩,
    .vshl 64 ⟨1048576, 0⟩ ⟨0, 127⟩, .vshl 128 ⟨0, 10⟩ ⟨3, 7⟩, .vshr 127 ⟨3, 15⟩ ⟨63, 14⟩, .vshr 64 ⟨1048576, 0⟩ ⟨0, 127⟩, .vshr 128 ⟨0, 10⟩ ⟨3, 7⟩, .vsra 127 ⟨3, 15⟩ ⟨63, 14⟩,
    .vsra 64 ⟨1048576, 0⟩ ⟨0, 127⟩, .vsra 128 ⟨0, 10⟩ ⟨3, 7⟩, .vrot 127 ⟨3, 15⟩ ⟨63, 14⟩, .vrot 64 ⟨1048576, 0⟩ ⟨0, 127⟩, .vrot 128 ⟨0, 10⟩ ⟨3, 7⟩, .vmin 127 ⟨3, 15⟩ ⟨63, 14⟩,
    .vmin 64 ⟨1048576, 0⟩ ⟨0, 127⟩, .vmin 128 ⟨0, 10⟩ ⟨3, 7⟩, .vmax 127 ⟨3, 15⟩ ⟨63, 14⟩, .vmax 64 ⟨1048576, 0⟩ ⟨0, 127⟩, .vmax 128 ⟨0, 10⟩ ⟨3, 7⟩, .vminu 127 ⟨3, 15⟩ ⟨63, 14⟩] : List Instr).all fun i => !i.wellFormed) = true := by decide
theorem test_ill_formed_10 : (([.vminu 64 ⟨1048576, 0⟩ ⟨0, 127⟩, .vminu 128 ⟨0, 10⟩ ⟨3, 7⟩, .vmaxu 127 ⟨3, 15⟩ ⟨63, 14⟩, .vmaxu 64 ⟨1048576, 0⟩ ⟨0, 127⟩, .vmaxu 128 ⟨0, 10⟩ ⟨3, 7⟩, .vabsd 127 ⟨3, 15⟩ ⟨63, 14⟩,
    .vabsd 64 ⟨1048576, 0⟩ ⟨0, 127⟩, .vabsd 128 ⟨0, 10⟩ ⟨3, 7⟩, .vaddc 127 ⟨3, 15⟩ ⟨63, 14⟩, .vaddc 64 ⟨1048576, 0⟩ ⟨0, 127⟩, .vaddc 128 ⟨0, 10⟩ ⟨3, 7⟩, .vdot4 127 ⟨3, 15⟩ ⟨63, 14⟩,
    .vdot4 64 ⟨1048576, 0⟩ ⟨0, 127⟩, .vdot4 128 ⟨0, 10⟩ ⟨3, 7⟩, .vdot4u 127 ⟨3, 15⟩ ⟨63, 14⟩, .vdot4u 64 ⟨1048576, 0⟩ ⟨0, 127⟩, .vdot4u 128 ⟨0, 10⟩ ⟨3, 7⟩, .vcmp 0 4 ⟨14, 0⟩ ⟨3, 63⟩ false,
    .vcmp 1024 4 ⟨0, 10⟩ ⟨0, 3⟩ true, .vcmp 0 5 ⟨0, 9⟩ ⟨256, 8⟩ true, .vcmp 0 15 ⟨3, 1⟩ ⟨0, 4⟩ true, .vfcmp 5 11 ⟨0, 8⟩ ⟨1, 8⟩, .vfcmp 4 4 ⟨10, 1048576⟩ ⟨0, 10⟩, .vfcmp 3 2 ⟨2, 0⟩ ⟨11, 8192⟩] : List Instr).all fun i => !i.wellFormed) = true := by decide
theorem test_ill_formed_11 : (([.vfcmp 1024 4 ⟨0, 10⟩ ⟨0, 3⟩, .vmov 128 ⟨0, 127⟩, .vmov 3 ⟨64, 32⟩, .vnot 128 ⟨0, 127⟩, .vnot 3 ⟨64, 32⟩, .vneg 128 ⟨0, 127⟩,
    .vneg 3 ⟨64, 32⟩, .vabs 128 ⟨0, 127⟩, .vabs 3 ⟨64, 32⟩, .vpopc 128 ⟨0, 127⟩, .vpopc 3 ⟨64, 32⟩, .vclz 128 ⟨0, 127⟩,
    .vclz 3 ⟨64, 32⟩, .vctz 128 ⟨0, 127⟩, .vctz 3 ⟨64, 32⟩, .vbrev 128 ⟨0, 127⟩, .vbrev 3 ⟨64, 32⟩, .vext 128 ⟨0, 127⟩ true false,
    .vext 64 ⟨4, 8192⟩ false true, .vlid 128, .vaddi 128 ⟨0, 127⟩ 3, .vaddi 32 ⟨8192, 64⟩ 4, .vaddi 127 ⟨2, 13⟩ 65536, .vandi 128 ⟨0, 127⟩ 3] : List Instr).all fun i => !i.wellFormed) = true := by decide
theorem test_ill_formed_12 : (([.vandi 32 ⟨8192, 64⟩ 4, .vandi 127 ⟨2, 13⟩ 65536, .vori 128 ⟨0, 127⟩ 3, .vori 32 ⟨8192, 64⟩ 4, .vori 127 ⟨2, 13⟩ 65536, .vshi 4 ⟨0, 64⟩ 32 15,
    .vshi 4 ⟨65536, 256⟩ 0 5, .vshi 128 ⟨0, 32⟩ 0 11, .vshi 32 ⟨0, 31⟩ 2 1024, .vmovi 128 127, .vmovi 2 65536, .vperm 127 ⟨3, 15⟩ ⟨63, 14⟩,
    .vperm 64 ⟨1048576, 0⟩ ⟨0, 127⟩, .vperm 128 ⟨0, 10⟩ ⟨3, 7⟩, .vpermx 127 ⟨3, 15⟩ ⟨63, 14⟩, .vpermx 64 ⟨1048576, 0⟩ ⟨0, 127⟩, .vpermx 128 ⟨0, 10⟩ ⟨3, 7⟩, .vballot 128 ⟨0, 127⟩,
    .vballot 3 ⟨64, 32⟩, .vredadd 128 ⟨0, 127⟩ true, .vredadd 32 ⟨8192, 64⟩ false, .vredmin 128 ⟨0, 127⟩ true, .vredmin 32 ⟨8192, 64⟩ false, .vredmax 128 ⟨0, 127⟩ true] : List Instr).all fun i => !i.wellFormed) = true := by decide
theorem test_ill_formed_13 : (([.vredmax 32 ⟨8192, 64⟩ false, .vfredadd 128 ⟨0, 127⟩, .vfredadd 3 ⟨64, 32⟩, .vfredmax 128 ⟨0, 127⟩, .vfredmax 3 ⟨64, 32⟩, .vfirst 128 ⟨0, 127⟩,
    .vfirst 3 ⟨64, 32⟩, .vread 128 ⟨0, 127⟩ 3, .vread 32 ⟨8192, 64⟩ 4, .vread 12 ⟨0, 8⟩ 8192, .vwrite 128 127 0, .vwrite 3 32 64,
    .vwrite 0 256 15, .vbcast 128 127, .vbcast 2 65536, .vscan 128 ⟨0, 127⟩ 3, .vscan 32 ⟨8192, 64⟩ 4, .vscan 10 ⟨1, 0⟩ 6,
    .vscanx 128 ⟨0, 127⟩ 3, .vscanx 32 ⟨8192, 64⟩ 4, .vscanx 10 ⟨1, 0⟩ 6, .vcompact 128 ⟨0, 127⟩, .vcompact 3 ⟨64, 32⟩, .vexpand 128 ⟨0, 127⟩] : List Instr).all fun i => !i.wellFormed) = true := by decide
theorem test_ill_formed_14 : (([.vexpand 3 ⟨64, 32⟩, .vprune 127 ⟨3, 15⟩ ⟨63, 14⟩, .vprune 64 ⟨1048576, 0⟩ ⟨0, 127⟩, .vprune 128 ⟨0, 10⟩ ⟨3, 7⟩, .vbmap 127 ⟨3, 15⟩ ⟨63, 14⟩, .vbmap 64 ⟨1048576, 0⟩ ⟨0, 127⟩,
    .vbmap 128 ⟨0, 10⟩ ⟨3, 7⟩, .vfadd 127 ⟨3, 15⟩ ⟨63, 14⟩, .vfadd 64 ⟨1048576, 0⟩ ⟨0, 127⟩, .vfadd 128 ⟨0, 10⟩ ⟨3, 7⟩, .vfsub 127 ⟨3, 15⟩ ⟨63, 14⟩, .vfsub 64 ⟨1048576, 0⟩ ⟨0, 127⟩,
    .vfsub 128 ⟨0, 10⟩ ⟨3, 7⟩, .vfmul 127 ⟨3, 15⟩ ⟨63, 14⟩, .vfmul 64 ⟨1048576, 0⟩ ⟨0, 127⟩, .vfmul 128 ⟨0, 10⟩ ⟨3, 7⟩, .vfma 127 ⟨3, 15⟩ ⟨63, 14⟩, .vfma 64 ⟨1048576, 0⟩ ⟨0, 127⟩,
    .vfma 128 ⟨0, 10⟩ ⟨3, 7⟩, .vfmin 127 ⟨3, 15⟩ ⟨63, 14⟩, .vfmin 64 ⟨1048576, 0⟩ ⟨0, 127⟩, .vfmin 128 ⟨0, 10⟩ ⟨3, 7⟩, .vfmax 127 ⟨3, 15⟩ ⟨63, 14⟩, .vfmax 64 ⟨1048576, 0⟩ ⟨0, 127⟩] : List Instr).all fun i => !i.wellFormed) = true := by decide
theorem test_ill_formed_15 : (([.vfmax 128 ⟨0, 10⟩ ⟨3, 7⟩, .vfdiv 127 ⟨3, 15⟩ ⟨63, 14⟩, .vfdiv 64 ⟨1048576, 0⟩ ⟨0, 127⟩, .vfdiv 128 ⟨0, 10⟩ ⟨3, 7⟩, .vfms 127 ⟨3, 15⟩ ⟨63, 14⟩, .vfms 64 ⟨1048576, 0⟩ ⟨0, 127⟩,
    .vfms 128 ⟨0, 10⟩ ⟨3, 7⟩, .vbdot2 127 ⟨3, 15⟩ ⟨63, 14⟩, .vbdot2 64 ⟨1048576, 0⟩ ⟨0, 127⟩, .vbdot2 128 ⟨0, 10⟩ ⟨3, 7⟩, .vhdot2 127 ⟨3, 15⟩ ⟨63, 14⟩, .vhdot2 64 ⟨1048576, 0⟩ ⟨0, 127⟩,
    .vhdot2 128 ⟨0, 10⟩ ⟨3, 7⟩, .vfabs 128 ⟨0, 127⟩, .vfabs 3 ⟨64, 32⟩, .vfneg 128 ⟨0, 127⟩, .vfneg 3 ⟨64, 32⟩, .vfrcp 128 ⟨0, 127⟩,
    .vfrcp 3 ⟨64, 32⟩, .vfrsq 128 ⟨0, 127⟩, .vfrsq 3 ⟨64, 32⟩, .vfsqrt 128 ⟨0, 127⟩, .vfsqrt 3 ⟨64, 32⟩, .vfexp2 128 ⟨0, 127⟩] : List Instr).all fun i => !i.wellFormed) = true := by decide
theorem test_ill_formed_16 : (([.vfexp2 3 ⟨64, 32⟩, .vflog2 128 ⟨0, 127⟩, .vflog2 3 ⟨64, 32⟩, .vfsin 128 ⟨0, 127⟩, .vfsin 3 ⟨64, 32⟩, .vfcos 128 ⟨0, 127⟩,
    .vfcos 3 ⟨64, 32⟩, .vfclass 128 ⟨0, 127⟩, .vfclass 3 ⟨64, 32⟩, .vfrint 128 ⟨0, 127⟩, .vfrint 3 ⟨64, 32⟩, .vcvt 127 ⟨3, 15⟩ false 63,
    .vcvt 13 ⟨31, 0⟩ false 4, .vcvt 128 ⟨0, 32⟩ false 11, .vpack 127 ⟨3, 15⟩ ⟨63, 14⟩, .vpack 64 ⟨1048576, 0⟩ ⟨0, 127⟩, .vpack 128 ⟨0, 10⟩ ⟨3, 7⟩, .vunpk 127 ⟨3, 15⟩ ⟨63, 14⟩,
    .vunpk 64 ⟨1048576, 0⟩ ⟨0, 127⟩, .vunpk 128 ⟨0, 10⟩ ⟨3, 7⟩, .vqblk 128 ⟨0, 127⟩, .vqblk 3 ⟨64, 32⟩, .vdqblk 128 ⟨0, 127⟩, .vdqblk 3 ⟨64, 32⟩] : List Instr).all fun i => !i.wellFormed) = true := by decide
theorem test_ill_formed_17 : (([.vld 11 6 14 6 4, .vld 16 14 127 4 0, .vld 16 65536 3 3 0, .vld 4194304 16 6 1 0, .vst 11 6 14 6 4, .vst 16 14 127 4 0,
    .vst 16 65536 3 3 0, .vst 4194304 16 6 1 0, .vlds 11 6 14 6 4, .vlds 16 14 127 4 0, .vlds 16 65536 3 3 0, .vlds 4194304 16 6 1 0,
    .vsts 11 6 14 6 4, .vsts 16 14 127 4 0, .vsts 16 65536 3 3 0, .vsts 4194304 16 6 1 0, .vldc 11 6 14 6 4, .vldc 16 14 127 4 0,
    .vldc 16 65536 3 3 0, .vldc 4194304 16 6 1 0, .vstc 11 6 14 6 4, .vstc 16 14 127 4 0, .vstc 16 65536 3 3 0, .vstc 4194304 16 6 1 0] : List Instr).all fun i => !i.wellFormed) = true := by decide
theorem test_ill_formed_18 : (([.vldk 11 6 14 6 4, .vldk 16 14 127 4 0, .vldk 16 65536 3 3 0, .vldk 4194304 16 6 1 0, .vstk 11 6 14 6 4, .vstk 16 14 127 4 0,
    .vstk 16 65536 3 3 0, .vstk 4194304 16 6 1 0, .vldsub 11 6 14 6 4, .vldsub 16 14 127 4 0, .vldsub 16 65536 3 3 0, .vldsub 4194304 16 6 1 0,
    .sld 0 8 2 3 5, .sld 128 32 0 0 11, .sld 4 15 1 0 16384, .sld 0 65536 3 0 12, .sst 0 8 2 3 5, .sst 128 32 0 0 11,
    .sst 4 15 1 0 16384, .sst 0 65536 3 0 12, .slds 0 8 2 3 5, .slds 128 32 0 0 11, .slds 4 15 1 0 16384, .slds 2 1048576 0 2 0] : List Instr).all fun i => !i.wellFormed) = true := by decide
theorem test_ill_formed_19 : (([.ssts 0 8 2 3 5, .ssts 128 32 0 0 11, .ssts 4 15 1 0 16384, .ssts 2 1048576 0 2 0, .vatom 10 127 13 2 65536, .vatom 0 8 2 3 5,
    .vatom 127 16 1048576 0 0, .vatom 0 0 8 0 15, .vatom 128 32 0 0 11, .vatom 127 16384 5 0 0, .vatom 31 31 63 2 13, .vcasW 128 4 14 1,
    .vcasW 6 32 256 2, .vcasW 1 127 8 0, .vcasW 10 256 13 1, .vcasW 8 16 9 3, .vcasD 128 4 14 1, .vcasD 1 127 8 0,
    .vcasD 12 0 16384 2, .vcasD 8 16 9 3, .vcasD 32 8192 3 0, .vcas2 128 4 14 1, .vcas2 1 127 8 0, .vcas2 8 16 9 3] : List Instr).all fun i => !i.wellFormed) = true := by decide
theorem test_ill_formed_20 : (([.vcas2 32 8192 3 0, .vcas2 32 8 16384 0, .vred 10 127 13 2 65536, .vred 0 8 2 3 5, .vred 9 31 0 1 1, .vred 128 32 0 0 11,
    .vred 1 8192 63 2 8, .vred 14 1 1048576 0 6, .vred 127 31 0 0 14, .prf 0 3, .prf 1024 0, .fls 63 128 4,
    .fls 14 1 6, .fls 127 4 0, .inv 63 128 4, .inv 14 1 6, .inv 127 4 0, .fence 6 4,
    .fence 3 5, .wfetch 32 256 2, .wfetch 6 4 0, .wfetch 0 31 3, .wfetch 127 3 2, .wevict 128] : List Instr).all fun i => !i.wellFormed) = true := by decide
theorem test_ill_formed_21 : (([.wpress 128, .barInit 32 64, .barInit 8192 4, .barArr 128 true 0, .barArr 3 false 64, .barWait 32 64,
    .barWait 8192 4, .barExp 3 32 64, .barExp 63 128 4, .barExp 127 4 0, .barTry 3 32 64, .barTry 63 128 4,
    .barTry 127 4 0, .barInval 128, .tbegVal 32 64, .tbegVal 8192 4, .tbegVal 12 0, .tbegTs 32 64,
    .tbegTs 8192 4, .tbegTs 12 0, .tabt 8192, .tstat 1024 0, .tord 3 32 64, .tord 63 127 15] : List Instr).all fun i => !i.wellFormed) = true := by decide
theorem test_ill_formed_22 : (([.tord 64 15 15, .tord 12 0 0, .ecmd 15 14 false 13, .ecmd 32 64 true 13, .ecmd 1 9 true 63, .ecmd 256 0 true 13,
    .ewait 32 64, .ewait 8192 4, .eyield 32 64, .eyield 8192 4, .eguard 128, .gres 32 64,
    .gres 8192 4, .ecopy 16 63 true 15, .ecopy 32 64 true 13, .ecopy 6 32 false 2, .ecopy 0 32 true 64, .ecopy 0 0 true 2,
    .ecopy 65536 16 true 6, .rrot 15 14 false 13, .rrot 32 64 true 13, .rrot 1 9 true 63, .rrot 256 0 true 13, .ecoll 16 63 true 15] : List Instr).all fun i => !i.wellFormed) = true := by decide
theorem test_ill_formed_23 : (([.ecoll 15 14 false 13, .ecoll 32 64 true 13, .ecoll 0 32 true 64, .ecoll 256 0 true 13, .rebal 32 64 false 4, .rebal 12 10 false 128,
    .rebal 128 4 false 1, .resort 128 127, .resort 3 14, .resort 2 65536, .tdescTWrite 3 32 64, .tdescTWrite 63 128 4,
    .tdescTWrite 127 4 0, .tdescTRead 3 32 64, .tdescTRead 63 128 4, .tdescTRead 127 4 0, .tdescAWrite 32 64, .tdescAWrite 8192 4,
    .tdescARead 32 64, .tdescARead 8192 4, .mwld 6 0 65536, .mwld 1 9 5, .mwld 127 3 2, .mloop 4 14 1 6 32] : List Instr).all fun i => !i.wellFormed) = true := by decide
theorem test_ill_formed_24 : (([.mloop 11 6 14 6 4, .mloop 5 15 0 4194304 7, .mloop 16 65536 3 3 0, .mloop 256 10 0 0 5, .mzero 6 0 65536, .mzero 1 9 5,
    .mzero 127 3 2, .mget 12 0 0 10, .mget 5 3 4194304 4, .mget 9 31 0 1, .mget 65536 3 3 0, .mput 12 0 0 10,
    .mput 5 3 4194304 4, .mput 9 31 0 1, .mput 65536 3 3 0, .mstore 12 0 0 10, .mstore 5 3 4194304 4, .mstore 9 31 0 1,
    .mstore 65536 3 3 0, .tlbi 3 32 64, .tlbi 32 256 2, .tlbi 127 4 0, .ctxsv 32 64, .ctxsv 8192 4] : List Instr).all fun i => !i.wellFormed) = true := by decide
theorem test_ill_formed_25 : (([.ctxld 32 64, .ctxld 8192 4, .sysc 8192 4 16, .sysc 63 127 15, .sysc 32 31 8192, .dump 32 64,
    .dump 8192 4, .dump 3 14, .vld 4 0 3 5 0, .vld 4 0 3 2 5, .vld 4 1 3 2 2, .vld 4 7 3 2 1,
    .vld 4 7 3 2 3, .vlds 4 8 3 2 2, .vld 3 0 3 3 0, .vld 6 0 3 4 0, .vldk 4 0 3 2 4, .sld 4 5 5 0 0,
    .sld 4 5 2 2 0, .slds 4 5 2 3 0, .sld 3 5 4 0 0, .slds 4 5 2 2 8, .sld 4 4 2 1 0, .sld 4 5 4 1 0] : List Instr).all fun i => !i.wellFormed) = true := by decide

/-! ### Words that the manual writes out beside their assembly text (chapters 12 to 18) -/

theorem test_decode_words_1 : (([(0x10800010, .bdiv 1 false 16),
    (0x14314603, .bjt 5 6 3),
    (0x04000000, .br 0),
    (0x14B00000, .brk 0),
    (0x0842FFFD, .bs 4 2 65533),
    (0x04400002, .bxz 2),
    (0x0C000100, .call 256),
    (0x14124000, .calli 9),
    (0x14224000, .jmpi 9),
    (0x14400000, .join),
    (0x14500000, .yield),
    (0x14600000, .exit),
    (0xFDE10500, .ctxsv 4 5)] : List (W32 × Instr)).all fun x => decide (decode x.1 = some x.2 ∧ encode x.2 = [x.1])) = true := by decide
theorem test_decode_words_2 : (([(0xFDF10500, .ctxld 4 5),
    (0xFE110600, .dump 4 6),
    (0xFD220C00, .ecoll 8 12 false 0),
    (0xFD020C00, .ecopy 8 12 false 0),
    (0xFCB20A15, .ecmd 8 10 true 5),
    (0xFCE00005, .eguard 5),
    (0xFCF0C005, .gres 3 5),
    (0xFCC0C800, .ewait 3 8),
    (0xFCD20900, .eyield 8 9),
    (0xFD120C00, .rrot 8 12 false 0),
    (0xF8300013, .fence 2 3),
    (0xF830001A, .fence 3 2),
    (0xF830002C, .fence 5 4)] : List (W32 × Instr)).all fun x => decide (decode x.1 = some x.2 ∧ encode x.2 = [x.1])) = true := by decide
theorem test_decode_words_3 : (([(0xF8110528, .fls 4 5 5),
    (0xF8210528, .inv 4 5 5),
    (0xF8010001, .prf 4 1),
    (0xF8414601, .wfetch 5 6 1),
    (0x01400007, .hintExt 0 0 7),
    (0x01400409, .hintExt 1 0 9),
    (0x00848D15, .hintImm 298261),
    (0x88080278, .vmovi 1 632),
    (0x01000002, .hintMod false 0 false 0 false 0 2),
    (0x01000200, .hintMod false 1 false 0 false 0 0),
    (0x00C00029, .hintOrd 5 1),
    (0x00C0001A, .hintOrd 3 2),
    (0x00C0002C, .hintOrd 5 4)] : List (W32 × Instr)).all fun x => decide (decode x.1 = some x.2 ∧ encode x.2 = [x.1])) = true := by decide
theorem test_decode_words_4 : (([(0x00421064, .hintSch 2 1 0 6 4),
    (0x1471050B, .mwait 4 5 false true 3),
    (0x14818700, .spawn 6 7 false),
    (0x1491C800, .waitc 7 8),
    (0x14A00003, .trap 3),
    (0xFD418003, .resort 6 3),
    (0x1C310500, .sadd 3 4 5 false),
    (0x1C310586, .sdivu 3 4 5 true),
    (0x38310500, .satom 3 4 5 0 0),
    (0x3C210602, .scas 2 4 6 0 2),
    (0xE8311810, .sld 3 4 3 0 16),
    (0xE8215100, .sst 2 5 2 0 0),
    (0xEC215304, .ssts 2 5 2 1 4)] : List (W32 × Instr)).all fun x => decide (decode x.1 = some x.2 ∧ encode x.2 = [x.1])) = true := by decide
theorem test_decode_words_5 : (([(0x245FFFFC, .sli 5 1048572),
    (0x30310087, .sshi 3 4 false 2 7),
    (0x34300300, .smfs 3 3),
    (0x34600422, .vmfs 6 4 true),
    (0xFE010507, .sysc 4 5 7),
    (0xFDD10501, .tlbi 4 5 1),
    (0xFD510013, .tdescAWrite 4 3),
    (0xFD510502, .tdescTWrite 4 5 2),
    (0x18A30002, .xmAnd 10 12),
    (0x18028001, .xmSet 0 10),
    (0x78301801, .vaddi 6 ⟨0, 6⟩ 1),
    (0x84100443, .vshi 2 ⟨0, 1⟩ 2 3),
    (0x74100468, .vext 2 ⟨0, 1⟩ true true)] : List (W32 × Instr)).all fun x => decide (decode x.1 = some x.2 ∧ encode x.2 = [x.1])) = true := by decide
theorem test_decode_words_6 : (([(0x6D100405, .vcmp 2 2 ⟨0, 1⟩ ⟨0, 2⟩ true),
    (0x70B80C06, .vfcmp 1 7 ⟨0, 3⟩ ⟨0, 3⟩),
    (0x40180405, .vsub 3 ⟨0, 1⟩ ⟨0, 2⟩),
    (0x48280405, .vmad 5 ⟨0, 1⟩ ⟨0, 2⟩),
    (0xA0200404, .vfadd 4 ⟨0, 1⟩ ⟨0, 2⟩),
    (0xA4280405, .vfma 5 ⟨0, 1⟩ ⟨0, 2⟩),
    (0xB8100440, .vcvt 2 ⟨0, 1⟩ false 2),
    (0xB8100740, .vcvt 2 ⟨0, 1⟩ true 10),
    (0x90300804, .vfredadd 3 ⟨0, 1⟩),
    (0x902008A7, .vread 2 ⟨0, 1⟩ 5),
    (0x94100401, .vscanx 2 ⟨0, 1⟩ 0),
    (0xC4080111, .vld 1 0 4 2 1),
    (0xC8103110, .vst 2 3 4 2 0)] : List (W32 × Instr)).all fun x => decide (decode x.1 = some x.2 ∧ encode x.2 = [x.1])) = true := by decide
theorem test_decode_words_7 : (([(0xCC406164, .vlds 8 6 5 4 4),
    (0xCC082112, .vlds 1 2 4 2 2),
    (0xF0205189, .vatom 4 5 6 0 9),
    (0xF4405182, .vcas2 8 5 6 0),
    (0xF4205193, .vred 4 5 6 1 3),
    (0xFC010500, .barInit 4 5),
    (0xFC110009, .barArr 4 true 1),
    (0xFC210700, .barWait 4 7),
    (0xFC310601, .barExp 4 6 1),
    (0xFC410702, .barTry 4 7 2),
    (0xFC510000, .barInval 4),
    (0xFC600004, .tbegVal 0 4),
    (0xFC618014, .tbegTs 6 4)] : List (W32 × Instr)).all fun x => decide (decode x.1 = some x.2 ∧ encode x.2 = [x.1])) = true := by decide
theorem test_decode_words_8 : (([(0xFC700000, .tend),
    (0xFC800005, .tabt 5),
    (0xFC90C001, .tstat 3 1),
    (0xFCA10503, .tord 4 5 3),
    (0xFD618041, .mwld 6 1 1),
    (0x01400202, .hintExt 0 4 2),
    (0xFD700701, .mloop 0 7 0 0 1),
    (0xFD800002, .mzero 0 0 2),
    (0xFD9000A1, .mget 0 2 4 1),
    (0xFDA0001A, .mput 0 0 3 2),
    (0xFDB0001A, .mstore 0 0 3 2)] : List (W32 × Instr)).all fun x => decide (decode x.1 = some x.2 ∧ encode x.2 = [x.1])) = true := by decide

/-! ### Words written from the encoding tables (chapters 12 to 18) for the other forms -/

theorem test_decode_forms_1 : (([(0x00000000, .nop),
    (0x04800002, .bxnz 2),
    (0x04C00003, .bxall 3),
    (0x14000000, .ret),
    (0x18400000, .xmGet 4),
    (0x18104003, .xmAndn 1 1),
    (0x1821C004, .xmFromp 2 7),
    (0x18300005, .xmPop 3),
    (0x1C318281, .ssub 3 6 2 true),
    (0x1C518702, .smul 5 6 7 false),
    (0x1C404383, .smulh 4 1 3 true),
    (0x1C610184, .smulhu 6 4 1 true),
    (0x1C408405, .sdiv 4 2 4 false)] : List (W32 × Instr)).all fun x => decide (decode x.1 = some x.2 ∧ encode x.2 = [x.1])) = true := by decide
theorem test_decode_forms_2 : (([(0x1C010107, .srem 0 4 1 false),
    (0x1C318308, .sand 3 6 3 false),
    (0x1C20C609, .sor 2 3 6 false),
    (0x1C30C28A, .sxor 3 3 2 true),
    (0x1C10000B, .sandn 1 0 0 false),
    (0x1C31818C, .sshl 3 6 1 true),
    (0x1C40440D, .sshr 4 1 4 false),
    (0x1C41C60E, .ssra 4 7 6 false),
    (0x1C40C00F, .srot 4 3 0 false),
    (0x1C31C510, .smin 3 7 5 false),
    (0x1C404611, .sminu 4 1 6 false),
    (0x1C000312, .smax 0 0 3 false),
    (0x1C11C513, .smaxu 1 7 5 false)] : List (W32 × Instr)).all fun x => decide (decode x.1 = some x.2 ∧ encode x.2 = [x.1])) = true := by decide
theorem test_decode_forms_3 : (([(0x1C618014, .spopc 6 6 false),
    (0x1C208095, .sclz 2 2 true),
    (0x1C618096, .sctz 6 6 true),
    (0x1C414017, .sbrev 4 5 false),
    (0x1C11C498, .sbfx 1 7 4 true),
    (0x1C61C219, .sbfi 6 7 2 false),
    (0x1C61C79A, .sseq 6 7 7 true),
    (0x1C70851B, .sslt 7 2 5 false),
    (0x1C50009C, .ssltu 5 0 0 true),
    (0x20314003, .saddi 3 5 3),
    (0x28514000, .sandi 5 5 0),
    (0x2C404000, .sori 4 1 0),
    (0x3401C201, .smts 7 2)] : List (W32 × Instr)).all fun x => decide (decode x.1 = some x.2 ∧ encode x.2 = [x.1])) = true := by decide
theorem test_decode_forms_4 : (([(0x40141810, .vadd 2 ⟨2, 6⟩ ⟨0, 8⟩),
    (0x44122B02, .vmul 2 ⟨1, 10⟩ ⟨3, 1⟩),
    (0x440C281F, .vmulh 1 ⟨2, 10⟩ ⟨0, 15⟩),
    (0x481E7632, .vmulhu 3 ⟨3, 29⟩ ⟨2, 25⟩),
    (0x4C10771C, .vand 2 ⟨0, 29⟩ ⟨3, 14⟩),
    (0x4C264731, .vor 4 ⟨3, 17⟩ ⟨3, 24⟩),
    (0x500E4D14, .vxor 1 ⟨3, 19⟩ ⟨1, 10⟩),
    (0x501E311D, .vandn 3 ⟨3, 12⟩ ⟨1, 14⟩),
    (0x54142220, .vshl 2 ⟨2, 8⟩ ⟨2, 16⟩),
    (0x54165C2F, .vshr 2 ⟨3, 23⟩ ⟨0, 23⟩),
    (0x581A2736, .vsra 3 ⟨1, 9⟩ ⟨3, 27⟩),
    (0x583E3B07, .vrot 7 ⟨3, 14⟩ ⟨3, 3⟩),
    (0x5C1E3510, .vmin 3 ⟨3, 13⟩ ⟨1, 8⟩)] : List (W32 × Instr)).all fun x => decide (decode x.1 = some x.2 ∧ encode x.2 = [x.1])) = true := by decide
theorem test_decode_forms_5 : (([(0x5C2E0327, .vmax 5 ⟨3, 0⟩ ⟨3, 19⟩),
    (0x60186E00, .vminu 3 ⟨0, 27⟩ ⟨2, 0⟩),
    (0x6004623F, .vmaxu 0 ⟨2, 24⟩ ⟨2, 31⟩),
    (0x641E1136, .vabsd 3 ⟨3, 4⟩ ⟨1, 27⟩),
    (0x6416600B, .vaddc 2 ⟨3, 24⟩ ⟨0, 5⟩),
    (0x682E7D0E, .vdot4 5 ⟨3, 31⟩ ⟨1, 7⟩),
    (0x68205D01, .vdot4u 4 ⟨0, 23⟩ ⟨1, 0⟩),
    (0x74086000, .vmov 1 ⟨0, 24⟩),
    (0x743E2C01, .vnot 7 ⟨3, 11⟩),
    (0x741E0402, .vneg 3 ⟨3, 1⟩),
    (0x74185803, .vabs 3 ⟨0, 22⟩),
    (0x74147C04, .vpopc 2 ⟨2, 31⟩),
    (0x74141805, .vclz 2 ⟨2, 6⟩)] : List (W32 × Instr)).all fun x => decide (decode x.1 = some x.2 ∧ encode x.2 = [x.1])) = true := by decide
theorem test_decode_forms_6 : (([(0x74260006, .vctz 4 ⟨3, 0⟩),
    (0x741E5007, .vbrev 3 ⟨3, 20⟩),
    (0x74080009, .vlid 1),
    (0x7C145403, .vandi 2 ⟨2, 21⟩ 3),
    (0x800C3C00, .vori 1 ⟨2, 15⟩ 0),
    (0x8C38771C, .vperm 7 ⟨0, 29⟩ ⟨3, 14⟩),
    (0x8C044937, .vpermx 0 ⟨2, 18⟩ ⟨1, 27⟩),
    (0x905C8000, .vballot 5 ⟨3, 16⟩),
    (0x905CB001, .vredadd 5 ⟨3, 22⟩ false),
    (0x90286802, .vredmin 2 ⟨2, 13⟩ false),
    (0x90308803, .vredmax 3 ⟨0, 17⟩ false),
    (0x9074E805, .vfredmax 7 ⟨1, 29⟩),
    (0x904C6006, .vfirst 4 ⟨3, 12⟩)] : List (W32 × Instr)).all fun x => decide (decode x.1 = some x.2 ∧ encode x.2 = [x.1])) = true := by decide
theorem test_decode_forms_7 : (([(0x90102048, .vwrite 1 4 2),
    (0x90401009, .vbcast 4 2),
    (0x94201000, .vscan 4 ⟨0, 4⟩ 0),
    (0x981C1000, .vcompact 3 ⟨2, 4⟩),
    (0x98042401, .vexpand 0 ⟨2, 9⟩),
    (0x9C2C6406, .vprune 5 ⟨2, 25⟩ ⟨0, 3⟩),
    (0x9C1E3917, .vbmap 3 ⟨3, 14⟩ ⟨1, 11⟩),
    (0xA0304C09, .vfsub 6 ⟨0, 19⟩ ⟨0, 4⟩),
    (0xA4184924, .vfmul 3 ⟨0, 18⟩ ⟨1, 18⟩),
    (0xA81A4814, .vfmin 3 ⟨1, 18⟩ ⟨0, 10⟩),
    (0xA82E272B, .vfmax 5 ⟨3, 9⟩ ⟨3, 21⟩),
    (0xAC0C0636, .vfdiv 1 ⟨2, 1⟩ ⟨2, 27⟩),
    (0xAC3A7325, .vfms 7 ⟨1, 28⟩ ⟨3, 18⟩)] : List (W32 × Instr)).all fun x => decide (decode x.1 = some x.2 ∧ encode x.2 = [x.1])) = true := by decide
theorem test_decode_forms_8 : (([(0xB03E0724, .vbdot2 7 ⟨3, 1⟩ ⟨3, 18⟩),
    (0xB016123D, .vhdot2 2 ⟨3, 4⟩ ⟨2, 30⟩),
    (0xB4382000, .vfabs 7 ⟨0, 8⟩),
    (0xB43E1801, .vfneg 7 ⟨3, 6⟩),
    (0xB4261002, .vfrcp 4 ⟨3, 4⟩),
    (0xB4241003, .vfrsq 4 ⟨2, 4⟩),
    (0xB43C6C04, .vfsqrt 7 ⟨2, 27⟩),
    (0xB40E5C05, .vfexp2 1 ⟨3, 23⟩),
    (0xB4346806, .vflog2 6 ⟨2, 26⟩),
    (0xB42C5807, .vfsin 5 ⟨2, 22⟩),
    (0xB4083408, .vfcos 1 ⟨0, 13⟩),
    (0xB4327C09, .vfclass 6 ⟨1, 31⟩),
    (0xB428680A, .vfrint 5 ⟨0, 26⟩)] : List (W32 × Instr)).all fun x => decide (decode x.1 = some x.2 ∧ encode x.2 = [x.1])) = true := by decide
theorem test_decode_forms_9 : (([(0xBC207C1E, .vpack 4 ⟨0, 31⟩ ⟨0, 15⟩),
    (0xBC106725, .vunpk 2 ⟨0, 25⟩ ⟨3, 18⟩),
    (0xC0285400, .vqblk 5 ⟨0, 21⟩),
    (0xC0383C01, .vdqblk 7 ⟨0, 15⟩),
    (0xD0084190, .vsts 1 4 6 2 0),
    (0xD4081110, .vldc 1 1 4 2 0),
    (0xD8202042, .vstc 4 2 1 0 2),
    (0xDC380000, .vldk 7 0 0 0 0),
    (0xE00021D8, .vstk 0 2 7 3 0),
    (0xE4202060, .vldsub 4 2 1 4 0),
    (0xEC305803, .slds 3 1 3 0 3),
    (0xF43051D0, .vcasW 6 5 7 1),
    (0xF4002021, .vcasD 0 2 0 2)] : List (W32 × Instr)).all fun x => decide (decode x.1 = some x.2 ∧ encode x.2 = [x.1])) = true := by decide
theorem test_decode_forms_10 : (([(0xF851C000, .wevict 7),
    (0xF8600000, .wpress 0),
    (0xFD310203, .rebal 4 2 false 3),
    (0xFD51400D, .tdescTRead 5 0 5),
    (0xFD50401C, .tdescARead 1 4),
    (0xFDC00000, .rfe)] : List (W32 × Instr)).all fun x => decide (decode x.1 = some x.2 ∧ encode x.2 = [x.1])) = true := by decide

/-! ### A small module for the witnesses -/

/-- The first gigabytes of the address space, by the entries of one table: plain HBM, the coherent window, an attribute VAT page, nothing, NOATOM128, and a
page without U. -/
def tables : Cells :=
  let t := loaderTables 0 []
  let t := (t.writeNat 0x3008 8 0x4001).writeNat 0x4000 8 (0x68000000000 + 0x0F)
  let t := t.writeNat 0x3010 8 (0x40000000 + 0xBF)
  let t := t.writeNat 0x3020 8 (0x40000000 + 0x83F)
  t.writeNat 0x3028 8 (0x40000000 + 0x1F)

/-- Uniform registers: addresses of each kind, a misaligned and a non-canonical one, offsets and small numbers. -/
def regs : List W64 :=
  [0, 0x2000, 0x40000100, 0x80000800, 3, 0xC0000000, 0x100000000, 0x2001, 0x0100000000000000, 64, 16, 240, 256, 1, 0xFFFFFFFFFFFFFFFF, 0x0410,
   0x140000000, 0x3000, 2, 0x2004, 0x101, 12, 0x10002, 5] ++ List.replicate 40 0

/-- Group of the tests: core 0, slot 0, supervisor code, no launch, all lanes; modulo buffer 0 covers offsets 0 to 63 with a step of 16. -/
def grp : Group :=
  { loaderGroup 0 with wg := 1, s := regs, bm := (List.replicate 8 0).set 0 (BitVec.ofNat 64 (4 * 2 ^ 22 + 16 * 2 ^ 41)) }

def wg1 : Workgroup := { key := 1, launch := 0, index := 0, core := 0, inst := some 1, spad := 256, priv := 128 }

/-- A module with one group, one core, one workgroup and nothing in flight. -/
def base : State :=
  { g := grp, groups := [trapContext 0], cores := [{ Core.fresh with vbase := 0x8000 }], clusters := [Cluster.fresh],
    dies := List.replicate 4 Die.fresh, mem := tables, wgs := [wg1], insts := [{ key := 1, launch := 0, index := 0, cluster := 0, size := 256 }], clock := 5000 }

def upd (f : Group → Group) (s : State := base) : State := { s with g := f s.g }
def slot (f : Slot → Slot) (s : State := base) : State := s.setCur (f s.cur)
def hinted (h : Hints) (s : State := base) : State := slot (fun c => { c with hints := h, run := 1 }) s
def masked (m : W32) (s : State := base) : State := slot (fun c => { c with exm := m }) s
def modded (m : ModHint) (s : State := base) : State := hinted { mod := some m } s
def exted (cls reg : Nat) (s : State := base) : State := hinted { ext := some { sel := 0, cls := cls, reg := reg } } s
def user (s : State := base) : State := upd (fun g => { g with sup := false }) s
def deferred (s : State := base) : State := { s with defer := true }
def full (s : State := base) : State :=
  upd (fun g => { g with save := (List.range 64).map fun k => { state := .waitJoin, pc := BitVec.ofNat 64 k, mask := 0, depth := 9, frame := 0, seq := k } }) s
def ready (s : State := base) : State :=
  upd (fun g => { g with save := [{ state := .ready, pc := 0x1100, mask := 0, depth := 0, frame := 0, seq := 0 }] }) s
/-- The trap context of core 0 issuing. -/
def context : State := upd (fun g => { g with slot := 64 }) { base with groups := [{ grp with slot := 3, status := .stopped }] }
/-- Lane 5 alone in a transaction by value, with one read logged and one write. -/
def inTx (w : W32 := 1) (d : W64 := 0) (ws : List LogEntry := [{ kind := 2, size := 4, pa := 0x40002010, data := 7 }]) (f : LaneTx → LaneTx := id) : State :=
  upd (fun g => { g with txst := g.txst.set 5 w, slab := true, regionNext := 2,
                         tx := g.tx.set 5 (f { region := 1, restart := 0x1000, reads := [{ kind := 0, size := 4, pa := 0x40002000, data := d }], writes := ws }) })
    (masked 32)

def isOk {α : Type} (x : Res α) : Bool :=
  match x with
  | .ok _ => true
  | .error _ => false
def isTrap {α : Type} (x : Res α) : Bool :=
  match x with
  | .error (.trap _) => true
  | _ => false

/-- The leaf that an access finds, when it passes its checks. -/
def leafAt (s : State) (k : Kind) (scalar : Bool) (size : Nat) (va : W64) : Leaf :=
  match s.check s.who k scalar size va with
  | .passes f => f
  | .fails _ => { pte := 0, level := 0 }
def passes (s : State) (k : Kind) (scalar : Bool) (size : Nat) (va : W64) : Bool :=
  decide (s.check s.who k scalar size va = .passes (leafAt s k scalar size va))
def routeAt (s : State) (k : Kind) (scalar : Bool) (size : Nat) (va : W64) : Route :=
  let f := leafAt s k scalar size va
  s.route f.pte (f.pa va)

/-! ### Witnesses: uniform, vector, floating-point and control forms -/

theorem witness_ScalarArithmetic :
    Form.runs { srcs := [rs 63, rs 0], dsts := [rs 63], lat := 4 } base = true ∧ Form.runs { srcs := [rs 1, rs 2], dsts := [rs 0], lat := 6 } base = true ∧
    Form.runs { srcs := [rs 1, rs 0], dsts := [rs 3] } base = true ∧ Form.runs { srcs := [rs 1], dsts := [rs 3], lat := 4 } base = true := by decide +kernel

theorem witness_ScalarImmediates :
    (let s := hinted { imm := some 3 }
     Form.runs { srcs := [rs 1], dsts := [rs 3], lat := 4, imm := true } s = true ∧ Form.runs { dsts := [rs 3], lat := 4, imm := true } s = true) ∧
    (Form.runs { srcs := [rs 1], dsts := [rs 3], lat := 4, imm := true } base = true ∧ base.cur.hints.imm.getD 0 = 0 ∧ 31 < 32 ∧ 63 < 64) ∧
    Form.runs { srcs := [rs 1, rs 15], dsts := [rs 3], lat := 4 } base = true ∧ Form.runs { srcs := [rs 1, rs 15, rs 3], dsts := [rs 3], lat := 4 } base = true := by
  decide +kernel

theorem witness_RegisterWrites :
    63 < base.g.s.length ∧ ((false && base.defer) = false ∧ 63 ≠ 0) ∧ (true && (deferred).defer) = true ∧
    (127 < base.g.v.length ∧ 31 < 32 ∧ base.exm ≠ 0) ∧ (masked 0).exm = 0 := by decide +kernel

theorem witness_VectorArithmetic :
    (let f := fun lat (sat acc : Bool) s => Form.runs { srcs := [rv 1, rv 2] ++ (if acc then [rv 127] else []), dsts := [rv 127], sels := [0, 1], lat := lat, sat := sat, z := true } s
     f 6 true false (modded { sat := true, zero := true }) = true ∧ f 6 false false base = true ∧ f 8 false false base = true ∧ f 8 false true base = true) ∧
    Form.runs { srcs := [rv 0, rv 127], dsts := [rv 3], sels := [2, 3], lat := 6, z := true } base = true := by decide +kernel

theorem witness_VectorUnary :
    let f := fun (sat im : Bool) s => Form.runs { srcs := [rv 1], dsts := [rv 127], sels := [0], lat := 6, sat := sat, imm := im, z := true } s
    f true true (modded { sat := true }) = true ∧ f false true (hinted { imm := some 1 }) = true ∧ (f false true base = true ∧ base.cur.hints.imm.getD 0 = 0 ∧ 31 < 32) ∧
    Form.runs { dsts := [rv 0], lat := 6, imm := true, z := true } base = true ∧ Form.runs { dsts := [rv 0], lat := 6, z := true } base = true ∧
    f true false base = true ∧ f false false base = true := by decide +kernel

theorem witness_VectorCompares :
    7 < base.g.p.length ∧ Form.runs { srcs := [rv 1, rv 2], dsts := [rp 7], sels := [0, 0], lat := 6, z := true } base = true ∧ 31 < 32 ∧ base.exm ≠ 0 ∧
    (masked 0).exm = 0 ∧ Form.runs { srcs := [rv 1, rv 2], dsts := [rp 7], sels := [0, 0], lat := 6, z := true } (masked 0) = true := by decide +kernel

theorem witness_CrossLaneForms :
    (let f := fun srcs sels => Form.runs { srcs := srcs, dsts := [rv 3], sels := sels, lat := 12, z := true } base
     f [rv 1, rv 2] [0, 0] = true ∧ f [rv 1, rv 2, rv 3] [0, 0] = true ∧ f [rv 1] [0] = true ∧ Form.runs { srcs := [rs 4], dsts := [rv 3], keeps := [rv 3], lat := 12, z := true } base = true ∧ f [rs 4] [] = true) ∧
    (let f := fun (fp : Bool) => Form.runs { srcs := [rv 1], dsts := [rs 4], sels := [0], lat := 12, rnd := fp, sat := fp } base
     f false = true ∧ f true = true) := by decide +kernel

theorem witness_ScansAndPruning :
    (let f := fun (fp : Bool) => Form.runs { srcs := [rv 1], dsts := [rv 3], sels := [0], lat := 12, rnd := fp, sat := fp, z := true } base
     f false = true ∧ f true = true) ∧
    (let form : Form := { srcs := [rv 1, rv 2], dsts := [rv 3], sels := [0, 0], lat := 12, h2 := true, b2 := true, z := true }
     let e : ExtHint := { sel := 0, cls := 1, reg := 4 }
     (let s := exted 1 4
      s.cur.hints.ext = some e ∧ { form with ext := [1], extNeeded := true : Form }.runs s = true ∧ s.cur.hints.mods.pk = 0) ∧
     (let s := hinted { ext := some e, mod := some { pk := 2 } }
      s.cur.hints.ext = some e ∧ { form with ext := [1], extNeeded := true : Form }.runs s = true ∧ s.cur.hints.mods.pk ≠ 0) ∧
     base.cur.hints.ext = none ∧ form.runs base = true ∧ form.runs (modded { pk := 1 }) = true) := by decide +kernel

theorem witness_FloatBinary :
    let f := fun lat (round pk acc : Bool) s => Form.runs { srcs := [rv 1, rv 2] ++ (if acc then [rv 3] else []), dsts := [rv 3], sels := [0, 0], lat := lat, rnd := round, sat := round, h2 := pk, b2 := pk, z := true } s
    f 8 true true false (modded { pk := 1, rnd := 2, sat := true }) = true ∧ f 8 true true true (modded { pk := 2 }) = true ∧ f 8 false true false base = true ∧
    f 0 true false false (modded { rnd := 4 }) = true ∧ f 10 true false true base = true := by decide +kernel

theorem witness_FloatUnary :
    let f := fun lat (r t pk : Bool) s => Form.runs { srcs := [rv 1], dsts := [rv 3], sels := [0], lat := lat, rnd := r, sat := t, h2 := pk, b2 := pk, z := true } s
    f 8 false false true (modded { pk := 2 }) = true ∧ f 0 true true false (modded { rnd := 3, sat := true }) = true ∧ f 8 false false false base = true ∧
    f 8 true false false (modded { rnd := 1 }) = true := by decide +kernel

theorem witness_FloatConvert :
    let e : ExtHint := { sel := 0, cls := 1, reg := 23 }
    let one : Form := { srcs := [rv 1], dsts := [rv 3], sels := [0], z := true }
    let two : Form := { srcs := [rv 1, rv 2], dsts := [rv 3], sels := [0, 0], lat := 8, h2 := true, b2 := true, pkNeeded := true, z := true }
    let cvt := fun n (dir : Bool) => { one with lat := 8, rnd := true, sat := !dir && decide (n ≤ 3) : Form }
    (base.cur.hints.ext = none ∧ (cvt 3 false).runs (modded { sat := true }) = true ∧ (cvt 11 true).runs base = true) ∧
    ((cvt 12 true).runs base = true ∧ ¬(!descValid (base.g.fmtReg 0) || descBs (base.g.fmtReg 0)) = true) ∧
    ((cvt 17 true).runs base = true ∧ (!descValid (base.g.fmtReg 5) || descBs (base.g.fmtReg 5)) = true) ∧
    { two with rnd := true, sat := true : Form }.runs (modded { pk := 1, rnd := 1 }) = true ∧ two.runs (modded { pk := 2 }) = true ∧
    (let s := exted 1 23
     s.cur.hints.ext = some e ∧ { one with lat := 10, rnd := true, ext := [1], extNeeded := true : Form }.runs s = true ∧
     { one with lat := 10, rnd := true, sat := true, ext := [1], extNeeded := true : Form }.runs s = true ∧
     (!descValid (s.g.fmtReg 5) || !descBs (s.g.fmtReg 5)) = false ∧ ((s.g.readS 23).extractLsb' 0 3).toNat = 5 ∧
     (!descValid (s.g.fmtReg 0) || !descBs (s.g.fmtReg 0)) = true) := by decide +kernel

theorem witness_HintsAreCollected :
    (let c := base.cur
     c.hints.imm = none ∧ c.hints.mod = none ∧ c.hints.ext = none ∧ c.hints.ord = none ∧ base.g.txIn base.exm = 0 ∧ Form.runs {} base = true ∧ base.g.schkMode ≠ 2) ∧
    (upd fun g => { g with schk := 2 }).g.schkMode = 2 ∧
    (let h : Hints := { imm := some 1, mod := some {}, ext := some { sel := 0, cls := 0, reg := 1 }, ord := some { order := 0, scope := 2 } }
     let c := (hinted h).cur
     c.hints.imm ≠ none ∧ c.hints.mod ≠ none ∧ c.hints.ext ≠ none ∧ c.hints.ord ≠ none) ∧
    (modded {}).cur.hints.mod.any (fun m => m.cache == 0) = true := by decide +kernel

theorem witness_IssueChecks :
    (let f : Form := { srcs := [rs 64], sup := true }
     f.admits base.g {} = false ∧ (f.srcs ++ f.dsts).any (fun r => !base.g.names r) = true ∧ Form.admits { sup := true } (user).g {} = false ∧ (user).g.sup = false) ∧
    (let s := upd fun g => { g with pcfg := 0xFF }
     ([1] : List Nat).any (fun n => n != 0 && permReserved (s.g.permDesc n)) = true) ∧
    (let p : Producer := { reg := rs 4, pc := 0x0FFC, lat := 6, sum := 5, issued := 4990, old := .word 0 }
     let s := slot (fun c => { c with prods := [p] }) (upd fun g => { g with schk := 1 })
     let f : Form := { srcs := [rs 4], dsts := [rs 5], lat := 4 }
     f.admits s.g s.cur.hints = true ∧ s.g.schk.extractLsb' 0 2 = 1#2 ∧ (s.cur.prods.find? fun p => (f.reads s.cur.hints).elem p.reg && decide (p.sum < p.lat)) = some p) ∧
    (let f : Form := { noTx := true }
     f.admits (inTx).g (inTx).cur.hints = true ∧ (inTx).g.schk.extractLsb' 0 2 ≠ 1#2 ∧ (inTx).g.txIn (inTx).exm ≠ 0) ∧
    (let s := slot (fun c => { c with hints := { ord := some { order := 1, scope := 2 } }, run := 1 }) inTx
     let f : Form := { ords := [1] }
     f.admits s.g s.cur.hints = true ∧ s.cur.hints.ord ≠ none ∧ s.g.txIn s.exm ≠ 0) ∧
    (let s := upd fun g => { g with inflight := [{ mem := true, reg := rs 4, mask := 1, val := .word 1 }] }
     let f : Form := { srcs := [rs 4] }
     f.admits s.g s.cur.hints = true ∧ f.noTx = false ∧ (s.g.inflight.filter fun x => (f.reads s.cur.hints).elem x.reg).any (fun x => x.mem) = true) ∧
    (let s := upd fun g => { g with inflight := [{ mem := true, reg := rv 4, mask := 1, val := .lanes (List.replicate 32 9) }] }
     let f : Form := { dsts := [rv 4], keeps := [rv 4] }
     f.admits s.g s.cur.hints = true ∧ (f.reads s.cur.hints).elem (rv 4) = false ∧ (s.g.inflight.filter fun x => f.keeps.elem x.reg).any (fun x => x.mem) = true) ∧
    (let s := upd fun g => { g with inflight := [{ mem := false, reg := rs 4, mask := 1, val := .word 1 }] }
     let f : Form := { srcs := [rs 4] }
     f.admits s.g s.cur.hints = true ∧ (s.g.inflight.filter fun x => (f.reads s.cur.hints).elem x.reg).any (fun x => x.mem) = false ∧
       (s.g.inflight.filter fun x => (f.reads s.cur.hints).elem x.reg) ≠ []) ∧
    (let s := upd fun g => { g with inflight := (List.range 32).map fun k => { mem := true, reg := rs (8 + k), mask := 1, val := .word 1 } }
     let f : Form := { srcs := [rs 4], dsts := [rs 5] }
     f.admits s.g s.cur.hints = true ∧ (decide (32 < s.g.inflight.length + f.dsts.length) && f.lat == 0 && !f.dsts.isEmpty && !s.g.inflight.isEmpty) = true) ∧
    (Form.admits {} base.g {} = true ∧ base.g.inflight = []) ∧
    (let h : Hints := { imm := some 1, mod := some { rnd := 1, sat := true, zero := true, sub := 1 }, ext := some { sel := 0, cls := 0, reg := 1 }, ord := some { order := 1, scope := 2 } }
     h.imm.isSome = true ∧ h.ord.any (fun o => !([] : List Nat).elem o.order) = true ∧ h.ext.any (fun e => !([] : List Nat).elem e.cls || !base.g.names e.name) = true) ∧
    (let s := slot fun c => { c with cover := [(3, true), (1, false)] }
     Form.runs {} s = true ∧ s.cur.cover = (3, true) :: [(1, false)] ∧ s.g.schkMode ≠ 2) := by decide +kernel

theorem witness_Branches :
    (base.cur.live = true ∧ Form.runs {} base = true ∧ Form.runs { srcs := [rs 4] } base = true ∧ (base.exm == 0) = false ∧ ((masked 0).exm == 0) = true) ∧
    (let s := ready
     let t := s.cur.pc + BitVec.ofInt 64 (4 * sextInt 4194303 22)
     (decide (t.toNat ≤ s.cur.pc.toNat) && decide (s.cur.entered + 4096 ≤ s.clock) && s.g.save.any fun e => decide (e.state = .ready)) = true ∧ s.g.save.length < 64) := by
  decide +kernel

theorem witness_CallsAndJumps :
    let deep := slot fun c => { c with depth := 65535 }
    (Form.runs {} base = true ∧ Form.runs { srcs := [rs 1] } base = true ∧ base.cur.live = true ∧ (masked 0).cur.exm = 0 ∧ base.cur.exm ≠ 0 ∧ (base.g.readS 1).toNat % 4 = 0 ∧
      base.cur.depth < 65535 ∧ 16 * (base.cur.depth + 1) ≤ base.extent (.slice 0)) ∧ (base.g.readS 7).toNat % 4 ≠ 0 ∧ deep.cur.depth = 65535 ∧
    (slot fun c => { c with depth := 8 }).extent (.slice 0) < 16 * (8 + 1) := by decide +kernel

theorem witness_Splits :
    let part := upd fun g => { g with p := g.p.set 1 1, v := g.v.set 2 (List.replicate 32 2) }
    let deep := slot fun c => { c with depth := 1 }
    (Form.runs {} base = true ∧ part.cur.live = true ∧ deep.cur.live = true ∧ base.cur.depth = 0 ∧ deep.cur.depth ≠ 0 ∧ (masked 0 deep).cur.exm = 0 ∧ deep.cur.exm ≠ 0 ∧ 16 * deep.cur.depth ≤ deep.extent (.slice 0) ∧
      (slot fun c => { c with depth := 9 }).extent (.slice 0) < 16 * 9) ∧
    (Form.runs { srcs := [rp 1] } part = true ∧ part.cur.exm &&& part.g.readP 1 ≠ 0 ∧ part.cur.exm &&& ~~~(part.cur.exm &&& part.g.readP 1) ≠ 0 ∧ part.cur.exm &&& part.g.readP 2 = 0 ∧
      (part.g.placePaths part.clock [{ pc := 0x2000, mask := 1, depth := 0, tag := 0 }, { pc := 0x3000, mask := 2, depth := 0, tag := 0 }]).isSome = true ∧
      (full { base with g := { base.g with b := { base.g.b with live := true } } }).g.placePaths 0 [{ pc := 0x2000, mask := 1, depth := 0, tag := 0 }, { pc := 0x3000, mask := 2, depth := 0, tag := 0 }] = none) ∧
    (Form.runs { srcs := [rs 1, rs 4, rv 2] } part = true ∧ (lanesOf part.cur.exm).filter (fun l => decide (3 ≤ (part.g.lane 2 l).toNat)) = [] ∧ (part.g.readS 4).toNat % 2 ^ 32 = 3 ∧
      ((lanesOf part.cur.exm).filter fun l => decide ((part.g.readS 18).toNat % 2 ^ 32 ≤ (part.g.lane 2 l).toNat)).length = 32 ∧ (part.g.readS 1).toNat % 4 = 0 ∧ (part.g.readS 13).toNat % 4 ≠ 0 ∧
      (∃ ps, part.checkLanes part.who .fetch false 4 [(0, 0x3008)] = .ok ps) ∧ (∃ t, part.checkLanes part.who .fetch false 4 [(0, 0xC0001008)] = .error (.trap t)) ∧
      (∃ u, part.instrRead 0x3008 0x40003008 = .ok u) ∧ (∃ t, ({ part with poison := [{ line := 0x40003000 }] } : State).instrRead 0x3008 0x40003008 = .error (.trap t))) ∧
    popMask 1 = popMask 2 ∧ popMask 1 < popMask 3 := by
  refine ⟨by decide +kernel, by decide +kernel, ⟨by decide +kernel, by decide +kernel, by decide +kernel, by decide +kernel, by decide +kernel, by decide +kernel, ?_, ?_, ?_, ?_⟩, by decide +kernel⟩
  · exact ⟨_, rfl⟩
  · exact ⟨_, rfl⟩
  · exact ⟨_, rfl⟩
  · exact ⟨_, rfl⟩

theorem witness_JoinsExitsAndMasks :
    let same := fun (s : State) (e : SaveEntry) => decide (e.state = .waitJoin) && e.pc == s.cur.pc && e.depth == s.cur.depth && e.frame == s.cur.tag
    let waits := upd fun g => { g with save := [{ state := .waitJoin, pc := 0x1000, mask := 0, depth := 0, frame := 0, seq := 0 }] }
    (Form.runs {} base = true ∧ Form.runs { noTx := true } base = true ∧ waits.g.save.any (same waits) = true ∧ base.g.save.any (same base) = false ∧ base.g.save.length < 64 ∧
      ((full).g.save.any (same full) = false ∧ 64 ≤ (full).g.save.length) ∧ base.g.anyReady = false ∧ (ready).g.anyReady = true ∧
      (let s := full (upd fun g => { g with save := [] })
       let s := upd (fun g => { g with save := g.save.set 0 { state := .ready, pc := 0, mask := 0, depth := 0, frame := 0, seq := 0 } }) s
       s.g.anyReady = true ∧ 64 ≤ s.g.save.length)) ∧
    Form.runs { dsts := [rs 3], lat := 4 } base = true ∧ Form.runs { srcs := [rs 1], dsts := [rs 3], lat := 4 } base = true ∧
    Form.runs { srcs := [rp 7], dsts := [rs 3], lat := 4 } base = true := by decide +kernel

theorem witness_SpecialRegisters :
    (Form.runs { dsts := [rs 3] } base = true ∧ Form.runs { srcs := [rb 7], dsts := [rs 3] } base = true ∧ context.g.slot = 64 ∧ context.g.sup = true ∧
      Form.runs { dsts := [rs 3] } context = true ∧ base.g.slot ≠ 64 ∧ Form.runs { dsts := [rv 127], z := true } base = true) ∧
    (Form.runs { srcs := [rs 1] } base = true ∧ (base.g.readS 1).extractLsb' 0 2 ≠ 3#2 ∧ (base.g.readS 4).extractLsb' 0 2 = 3#2 ∧ base.g.sup = true ∧ (user).g.sup = false ∧
      Form.runs { srcs := [rs 1], dsts := [rb 7] } base = true ∧ Form.runs { srcs := [rs 1] } context = true) := by decide +kernel

/-! ### Witnesses: traps, memory, atomics, waiting and barriers -/

theorem witness_TrapsAreDelivered :
    (base.g.slot < 64 ∧ base.g.txIn base.exm &&& base.g.openLanes = 0 ∧ base.defer = false ∧ base.cores[base.g.core]? = some { Core.fresh with vbase := 0x8000 } ∧
      base.groups.any (fun g => g.at_ base.g.core 64) = true ∧ Form.runs {} base = true) ∧
    (let s := inTx
     s.g.slot < 64 ∧ s.g.txst.length = 32 ∧ s.g.tx.length = 32 ∧ s.exm = BitVec.ofNat 32 (2 ^ 5) ∧ s.g.openLanes = s.exm ∧ s.wheels = [] ∧ s.hostCopies = [] ∧ (∀ e ∈ (s.g.laneTx 5).reads ++ (s.g.laneTx 5).writes, e.vat = false) ∧
     (∀ e ∈ (s.g.laneTx 5).reads, e.kind = 0 ∧ s.mem.readNat e.pa e.size = e.data.toNat)) := by decide +kernel

/-- The core of `context` with a cause: SLOT 3 and ACTION a. -/
def ending (a : Nat) : State :=
  { context with cores := [{ Core.fresh with vbase := 0x8000, serving := some 3, xpc := 0x1004, xcause := BitVec.ofNat 64 (a * 2 ^ 30 + 3 * 2 ^ 18 + 1) }] }

theorem witness_ReturnFromTrap :
    (user).g.slot ≠ 64 ∧ (user).g.sup = false ∧ (base.g.slot ≠ 64 ∧ Form.runs { sup := true } base = true ∧ base.cores[base.g.core]? = some (base.core 0) ∧ (base.core 0).events = [] ∧
      base.allGroups.all (fun h => !h.save.any SaveEntry.sorting) = true) ∧
    (let s := ending 0
     s.g.slot = 64 ∧ Form.runs { sup := true } s = true ∧ (s.core 0).events = [] ∧ s.allGroups.all (fun h => !h.save.any SaveEntry.sorting) = true ∧ s.cores[0]? = some (s.core 0) ∧ ((s.core 0).xcause.extractLsb' 18 6).toNat = 3 ∧
     s.groups.find? (Group.at_ 0 3) = some { grp with slot := 3, status := .stopped } ∧ ((s.core 0).xcause.extractLsb' 30 2).toNat = 0) ∧
    (let s := ending 3
     ((s.core 0).xcause.extractLsb' 30 2).toNat = 3 ∧ (s.core 0).xcause.extractLsb' 0 6 ≠ 0#6) ∧
    (let g := { grp with b := { grp.b with live := true } }
     g.txLanes = 0 ∧ g.a.live = true ∧ g.b.live = true) := by decide +kernel

theorem witness_VectorChipAccess :
    (base.g.early = [] ∧ base.defer = false ∧ 4 ≤ 4 ∧ 124 + elemRegs 4 ≤ base.g.v.length ∧ base.exm ≠ 0) ∧
    (let s := upd fun g => { g with v := g.v.set 2 (List.replicate 32 2) }
     let f := fun (load : Bool) size mode => { mvForm load 4 1 9 size mode with noTx := mode != 4 : Form }.runs s
     s.defer = false ∧ s.rrMode = 0 ∧ isOk (s.ordered s.cur.hints) = true ∧ f true 0 0 = true ∧ f false 4 1 = true ∧ f true 2 3 = true ∧ f false 2 4 = true ∧
     lanesOf (masked 0).exm = [] ∧ (lanesOf s.exm).filter (fun _ => decide (s.extent .scratch < (s.g.readS 9).toNat + 16)) = [] ∧
     (lanesOf s.exm).filter (fun l => decide (s.extent .scratch < (s.g.readS 9).toNat + l * 16 + 16)) ≠ [] ∧ (s.g.readS 13).toNat % 4 ≠ 0) := by decide +kernel

theorem witness_ModuloBuffers :
    (let b := grp.bm.getD 0 0
     (b.extractLsb' 0 22).toNat = 0 ∧ 16 * (b.extractLsb' 22 19).toNat = 64 ∧ ¬256 < 0 + 64 ∧ 63 < 64 ∧ 60 % 4 = 0 ∧ 63 % 4 ≠ 0) ∧
    (base.defer = false ∧ base.rrMode = 0 ∧ isOk (base.ordered base.cur.hints) = true ∧ lanesOf base.exm ≠ [] ∧ lanesOf (masked 0).exm = [] ∧ base.bad = [] ∧ base.extent .cluster = 256 ∧
      { mvForm true 4 0 10 2 2 with noTx := true : Form }.runs (masked 0) = true ∧ { mvForm false 4 0 10 2 2 with noTx := true : Form }.runs (masked 0) = true ∧ { mvForm false 4 0 9 2 2 with noTx := true : Form }.runs base = true ∧
      { mvForm true 4 0 10 2 2 with noTx := true : Form }.runs base = true ∧ { mvForm false 4 0 10 2 2 with noTx := true : Form }.runs base = true ∧
      { mvForm true 4 0 9 2 2 with noTx := true : Form }.runs base = true) ∧
    (∃ f, modAccess (base.extent .cluster) (base.g.readS 10) (base.g.bm.getD 0 0) 1 0 = .ok f) ∧
    (∃ f, modAccess (base.extent .scratch) (base.g.readS 10) (base.g.bm.getD 0 0) 4 0 = .ok f) ∧
    (∃ f, modAccess (base.extent .scratch) (base.g.readS 10) (base.g.bm.getD 0 0) 4 1 = .ok f) ∧
    (∃ t, modAccess (base.extent .scratch) (base.g.readS 9) (base.g.bm.getD 0 0) 4 0 = .error (.trap t)) ∧
    (∃ t, modAccess (base.extent .scratch) (base.g.readS 9) (base.g.bm.getD 0 0) 4 1 = .error (.trap t)) := by
  refine ⟨by decide +kernel, by decide +kernel, ⟨_, rfl⟩, ⟨_, rfl⟩, ⟨_, rfl⟩, ⟨_, rfl⟩, ⟨_, rfl⟩⟩

theorem witness_ScalarChipAccess :
    (base.defer = false ∧ base.rrMode = 0 ∧ isOk (base.ordered base.cur.hints) = true ∧
      (let l := fun sd sb size mode off => { soForm true sd sb size mode off base.cur.hints with noTx := true : Form }.runs base
       let t := fun sd sb size mode off => { soForm false sd sb size mode off base.cur.hints with noTx := true : Form }.runs base
       l 4 9 2 0 16 = true ∧ t 4 9 4 1 16 = true ∧ l 4 7 3 0 0 = true ∧ t 4 12 2 0 0 = true ∧ l 4 10 2 2 0 = true ∧ t 4 10 2 2 0 = true ∧ l 4 9 2 2 0 = true ∧ t 4 9 2 2 0 = true ∧ l 4 9 0 0 3 = true ∧ t 4 9 0 0 3 = true ∧ l 4 9 1 1 2 = true ∧ t 4 9 1 1 2 = true) ∧
      (base.g.readS 11).toNat % 16 = 0 ∧ (base.g.readS 11).toNat + 16 ≤ base.extent .scratch ∧ base.extent .scratch < (base.g.readS 12).toNat + 4 ∧ (base.g.readS 7).toNat % 8 ≠ 0) ∧
    (base.wgs.find? (fun w => w.key == base.g.wg)).any (fun w => Memory.wf w.cells) = true ∧ 255 < 256 ∧ base.bad = [] ∧
    ({ base with bad := [{ store := .wg base.g.wg, off := (base.g.readS 11).toNat }] } : State).spoiled (.wg base.g.wg) (base.g.readS 11).toNat 4 = true ∧
    (∃ f, modAccess (base.extent .scratch) (base.g.readS 10) (base.g.bm.getD 0 0) 4 0 = .ok f) := by
  exact ⟨by decide +kernel, by decide +kernel, by decide +kernel, by decide +kernel, by decide +kernel, ⟨_, rfl⟩⟩

theorem witness_GlobalLoads :
    base.calm = true ∧ base.l1 = [] ∧ base.wheels = [] ∧ (passes base .load true 8 0x80000800 = true ∧ routeAt base .load true 8 0x80000800 = .vat) ∧
    (let s := modded { sub := 1 }
     s.cur.hints.mods.sub ≠ 0 ∧ (s.subTag 1).isSome = true ∧ { mvForm true 4 0 1 2 3 with sub := true : Form }.runs s = true) ∧ lanesOf (masked 0).exm = [] ∧
    (passes base .load true 1 0x2001 = true ∧ routeAt base .load true 1 0x2001 = .plain ∧ (soForm true 4 7 0 0 0 base.cur.hints).runs base = true) ∧
    (passes base .load true 8 0x2000 = true ∧ routeAt base .load true 8 0x2000 = .plain ∧ passes base .load true 16 0x40000100 = true ∧ routeAt base .load true 16 0x40000100 = .window ∧
      (soForm true 4 1 3 0 0 base.cur.hints).runs base = true ∧ (soForm true 4 2 4 1 16 base.cur.hints).runs base = true) ∧
    (base.exm ≠ 0 ∧ (∀ l ∈ lanesOf base.exm, passes base .load false 4 (0x2000 + BitVec.ofNat 64 (4 * l)) = true ∧ routeAt base .load false 4 (0x2000 + BitVec.ofNat 64 (4 * l)) = .plain) ∧
      (mvForm true 4 0 1 2 1).runs base = true ∧ (mvForm true 4 1 1 0 0).runs base = true ∧ { mvForm true 4 0 1 2 3 with sub := true : Form }.runs base = true ∧ base.cur.hints.mods.sub = 0) := by
  decide +kernel

theorem witness_GlobalStores :
    base.calm = true ∧ (passes base .store true 8 0x80000800 = true ∧ routeAt base .store true 8 0x80000800 = .vat) ∧ lanesOf (masked 0).exm = [] ∧
    (passes base .store true 2 0x2000 = true ∧ (soForm false 4 1 1 0 0 base.cur.hints).runs base = true ∧ Memory.wf base.mem = true) ∧
    (passes base .store true 8 0x2000 = true ∧ routeAt base .store true 8 0x2000 = .plain ∧ routeAt base .store true 4 0x40000100 = .window ∧
      (soForm false 4 1 3 0 0 base.cur.hints).runs base = true ∧ (soForm false 4 1 4 1 16 base.cur.hints).runs base = true) ∧
    (base.exm ≠ 0 ∧ (∀ l ∈ lanesOf base.exm, passes base .store false 4 (0x2000 + BitVec.ofNat 64 (4 * l)) = true ∧ routeAt base .store false 4 (0x2000 + BitVec.ofNat 64 (4 * l)) = .plain) ∧
      (mvForm false 4 0 1 2 1).runs base = true ∧ (mvForm false 4 1 1 4 0).runs base = true ∧ (mvForm false 4 0 1 3 3).runs base = true) := by decide +kernel

theorem witness_AccessChecks :
    let row := fun k va => (base.check base.who k false 4 va).row
    (0x2001 : W64).toNat % 4 ≠ 0 ∧ ((0x0100000000000000 : W64).toNat % 4 = 0 ∧ row .load 0x0100000000000000 = 2) ∧
    (passes base .load false 4 0x2000 = true ∧ passes base .store false 4 0x2000 = true ∧ passes base .fetch false 4 0x2000 = true ∧ passes (user) .load false 4 0x2000 = true) ∧
    ([(0, (0x2000 : W64)), (31, 0x2004)].all fun x => row .load x.2 == 7) = true ∧
    ([(0, (0x2000 : W64)), (31, 0xC0000000)].map fun x => row .load x.2).min? = some 3 ∧ base.calm = true ∧ base.exm ≠ 0 ∧
    (mvForm true 4 0 5 2 1).runs base = true ∧ (mvForm false 4 0 5 2 1).runs base = true ∧ (soForm true 4 5 2 0 0 base.cur.hints).runs base = true ∧ (soForm false 4 5 2 1 0 base.cur.hints).runs base = true ∧
    base.check base.who .store true 4 0xC0000000 = .fails 3 ∧ base.check base.who .load true 4 0xC0000000 = .fails 3 := by decide +kernel

/-- Every lane of `base` at an absent page: the reduced check fails (the other clause of the statement). -/
theorem witness_AccessChecks_lanes :
    (match base.checkLanes base.who .load false 4 ((lanesOf base.exm).map fun l => (l, base.g.readS 5 + BitVec.ofNat 64 (l * 4))) with
     | .error (.trap tr) => tr.code == codePageNp
     | _ => false) = true := by decide +kernel

theorem witness_AtomicOperations : (0 : Nat) < 3 ∧ (2 : Nat) < 3 ∧ (0x80000000#32).slt 0 = true ∧ (5#128 : BitVec 128) = 5 := by decide +kernel

theorem witness_ChipAtomics :
    let s := upd fun g => { g with v := (g.v.set 2 (List.replicate 32 2)).set 3 (List.replicate 32 240) }
    let one := fun (x : State) => masked 1 x
    let form : Form := { srcs := [rs 9, rv 1, rv 4], ords := [0, 2, 4], ext := [0], extDst := true, noTx := true }
    s.defer = false ∧ s.rrMode = 0 ∧ isOk (s.ordered s.cur.hints) = true ∧ s.cur.hints.ext = none ∧ form.runs s = true ∧ { form with h2 := true, b2 := true : Form }.runs (modded { pk := 1 } s) = true ∧
    (let t := exted 0 8 s
     t.cur.hints.ext = some { sel := 0, cls := 0, reg := 8 } ∧ { form with ords := [0, 1, 2, 3, 4], dsts := [rv 8] : Form }.runs t = true ∧ { form with ords := [0, 1, 2, 3, 4], dsts := [rv 8], keeps := [rv 8] : Form }.runs t = true) ∧ { form with ext := [] : Form }.runs s = true ∧
    { srcs := [rs 9, rv 1, rv 4, rv 5, rv 6, rv 7], dsts := [rv 4, rv 5], ords := [0, 1, 2, 3, 4], noTx := true : Form }.runs s = true ∧
    { srcs := [rs 9, rs 4], dsts := [rs 22], ords := [0, 1, 2, 3, 4], noTx := true : Form }.runs s = true ∧
    { srcs := [rs 9, rs 4, rs 5, rs 22, rs 23], dsts := [rs 22, rs 23], ords := [0, 1, 2, 3, 4], noTx := true : Form }.runs s = true ∧
    (lanesOf (masked 0).exm = [] ∧ (64 + s.g.lane 2 0).toNat % 4 ≠ 0 ∧ s.extent .scratch < (64 + s.g.lane 3 0).toNat + 4 ∧ (64 + s.g.lane 1 0).toNat + 16 ≤ s.extent .scratch ∧
      64 + 16 ≤ s.extent .cluster ∧ lanesOf (one s).exm = [0]) := by decide +kernel

theorem witness_GlobalAtomics :
    let ls := (lanesOf base.exm).map fun l => (l, base.g.readS 1 + (base.g.lane 1 l).signExtend 64)
    let form : Form := { srcs := [rs 1, rv 1, rv 4], ords := [0, 2, 4], ext := [0], extDst := true, noTx := true }
    base.calm = true ∧ base.wheels = [] ∧ Memory.wf base.mem = true ∧ form.runs base = true ∧ form.runs (masked 0) = true ∧ lanesOf (masked 0).exm = [] ∧ ls ≠ [] ∧
    (∀ x ∈ ls, base.atomUnsup false false 0 4 { lane := x.1, va := x.2, pa := (leafAt base .reduction false 4 x.2).pa x.2, leaf := leafAt base .reduction false 4 x.2 } = false) ∧
    (∀ x ∈ ls, passes base .reduction false 4 x.2 = true ∧ routeAt base .reduction false 4 x.2 = .plain ∧ passes base .atomic false 16 x.2 = true ∧ routeAt base .atomic false 16 x.2 = .plain) ∧
    (let t := exted 0 8
     t.cur.hints.ext = some { sel := 0, cls := 0, reg := 8 } ∧ { form with ords := [0, 1, 2, 3, 4], dsts := [rv 8] : Form }.runs t = true ∧ { form with ords := [0, 1, 2, 3, 4], dsts := [rv 8], keeps := [rv 8] : Form }.runs t = true) ∧ { form with ext := [] : Form }.runs base = true ∧
    { srcs := [rs 1, rv 1, rv 4, rv 5, rv 6, rv 7], dsts := [rv 4, rv 5], ords := [0, 1, 2, 3, 4], noTx := true : Form }.runs base = true ∧
    { srcs := [rs 1, rs 4], dsts := [rs 22], ords := [0, 1, 2, 3, 4], noTx := true : Form }.runs base = true ∧
    { srcs := [rs 1, rs 4, rs 5, rs 22, rs 23], dsts := [rs 22, rs 23], ords := [0, 1, 2, 3, 4], noTx := true : Form }.runs base = true ∧
    (passes base .atomic false 1 0x40000100 = true ∧ routeAt base .atomic false 1 0x40000100 = .window) ∧
    (passes base .atomic false 16 0x100000000 = true ∧ (leafAt base .atomic false 16 0x100000000).pte.getLsbD 11 = true) := by decide +kernel

theorem witness_MonitorWaits :
    let form : Form := { srcs := [rs 1, rs 4], ords := [0, 1], ext := [0], noTx := true }
    let word := { base with mem := base.mem.writeNat 0x40002000 4 5 }
    base.calm = true ∧ base.l1 = [] ∧ base.wheels = [] ∧ form.runs base = true ∧ (masked 0).cur.exm = 0 ∧ (base.check base.who .load false 4 0xC0000000).row = 3 ∧
    (passes base .load false 4 0x2000 = true ∧ routeAt base .load false 4 0x2000 = .plain ∧ base.cur.exm ≠ 0) ∧
    (word.mem.readNat 0x40002000 4 = 5 ∧ word.g.readS 4 ≠ 5 ∧ word.g.readS 23 = 5 ∧ base.g.save.length < 64 ∧ 64 ≤ (full).g.save.length) ∧
    (let s := exted 0 2 (upd fun g => { g with v := g.v.set 2 ((List.replicate 32 0).set 0 9) })
     form.runs s = true ∧ s.g.laneOf { sel := 0, reg := 2 } 0 = 9 ∧ s.g.laneOf { sel := 0, reg := 2 } 1 = 0) := by decide +kernel

/-- The header of a launch of one group of 32 threads with 8 vector and 16 uniform registers. -/
def header : List Byte :=
  let b := fun (m : Cells) (o n v : Nat) => m.writeNat o n v
  let m := b (b (b (b (b (b (b (b [] 0 8 0x1000) 8 8 (5 + 31 * 64)) 0x38 1 1) 0x39 1 1) 0x3C 1 1) 0x3D 1 2) 0x42 2 0x0901) 0x44 4 256
  m.readBytes 0 128

theorem witness_SpawnAndWait :
    let form : Form := { srcs := [rs 1], dsts := [rs 4], noTx := true }
    let put := fun (bs : List Byte) => { base with mem := base.mem.writeBytes 0x40002000 bs }
    let big := ((Cells.writeBytes [] 0 header).writeNat 0x44 8 0x1000100000).readBytes 0 128
    let l : Launch := { handle := 7, parent := 0 }
    base.calm = true ∧ base.performed base.g = true ∧ base.g.lateFault = none ∧ form.runs base = true ∧ (base.g.readS 7).toNat % 64 ≠ 0 ∧
    ((base.g.readS 5).toNat % 64 = 0 ∧ (base.check base.who .load false 64 0xC0000000).row = 3) ∧
    ((base.g.readS 1).toNat % 2048 = 0 ∧ passes base .load false 64 0x2000 = true ∧ base.check base.who .load false 64 0x2040 = .passes (leafAt base .load false 64 0x2000) ∧ routeAt base .load false 64 0x2000 = .plain ∧
      parseHeader (List.replicate 128 0) = none ∧ (parseHeader header).any (fun l => decide (l.done = 0) && l.placeable) = true ∧
      (parseHeader big).any (fun l => decide (l.done = 0) && !l.placeable) = true ∧ (put header).launches = []) ∧
    ({ srcs := [rs 1, rs 2], dsts := [rs 4], sup := true, noTx := true : Form }.runs base = true ∧ base.g.sup = true ∧ base.roots = []) ∧
    (let s := { base with roots := [(3, grp.root)] }
     (s.roots.find? fun r => r.1 == ((s.g.readS 4).extractLsb' 0 12).toNat).map (fun r => r.2) = some grp.root ∧ { srcs := rs 3 :: [rs 4], dsts := [rs 4], sup := true, noTx := true : Form }.runs s = true) ∧
    (let s := { base with launches := [l, { l with handle := 8, complete := true, faulted := true }] }
     s.launches.find? (fun l => l.handle == 9 && l.parent == s.g.launch) = none ∧ s.launches.find? (fun l => l.handle == 8 && l.parent == s.g.launch) = some { l with handle := 8, complete := true, faulted := true } ∧
     s.launches.find? (fun l => l.handle == 7 && l.parent == s.g.launch) = some l) := by decide +kernel

theorem witness_Barriers :
    let obj := fun (exp arr phase wait obs : Nat) => { base with wgs := [{ wg1 with cells := Cells.writeNat [] 64 16 (phase + arr * 2 ^ 16 + exp * 2 ^ 32 + wait * 2 ^ 64 + obs * 2 ^ 80) }] }
    let runs := fun srcs dsts => ({ srcs := rs 9 :: srcs, dsts := dsts, noTx := true : Form }).runs base = true
    let word := fun (s : State) => fromBytes ((s.wgs.head?.map fun w => w.cells.readBytes 64 16).getD [])
    base.wgs.find? (fun w => w.key == base.g.wg) = some wg1 ∧ base.defer = false ∧ base.g.lateFault = none ∧ base.cur.live = true ∧ base.performedAt 1 base.g = true ∧ base.bad = [] ∧ 64 ≤ (full).g.save.length ∧
    Memory.wf wg1.cells = true ∧ runs [rs 4] [] ∧ runs [rp 1] [rp 1] ∧ runs [rs 4, rp 1] [rp 1] ∧ runs [] [] ∧ (masked 0).exm = 0 ∧ base.exm ≠ 0 ∧ 64 % 16 = 0 ∧ 64 + 16 ≤ wg1.spad ∧ (base.g.readS 23).toNat % 16 ≠ 0 ∧
    wg1.spad < (base.g.readS 12).toNat + 16 ∧ (base.g.readS 12).toNat % 16 = 0 ∧ (base.g.readS 11).toNat + 16 = wg1.spad ∧
    (word (obj 33 1 0 1 1) / 2 ^ 32 % 2 ^ 16 = 33 ∧ natField (word (obj 33 1 0 1 0)) 80 16 < natField (word (obj 33 1 0 1 0)) 64 16) ∧
    (word (obj 33 1 1 0 0) % 2 = 1 ∧ (base.g.readS 4).getLsbD 0 = true ∧ (base.g.readS 18).getLsbD 0 = false) ∧ base.g.save.length < 64 := by decide +kernel

/-! ### Witnesses: wheels, transactions, engines, lanes and tiles -/

def wheelOfPage (st : WheelState) : State := { base with wheels := [{ wheel := 0x40000800, state := st }] }

theorem witness_CacheAndWheelForms :
    (base.calm = true ∧ base.modAcks = [] ∧ base.performed base.g = true ∧ base.g.lateFault = none ∧
      { srcs := [rs 1] : Form }.runs base = true ∧ { noTx := true : Form }.runs base = true ∧ { srcs := [rs 1, rs 13], noTx := true : Form }.runs base = true ∧
      (base.g.readS 0).extractLsb' 0 32 = 0#32 ∧ (base.g.readS 13).extractLsb' 0 32 = 1#32 ∧ canonical (base.g.readS 8) = false ∧
      (canonical (base.g.readS 5) = true ∧ base.translate 0 0 base.g.root .load (base.g.readS 5) = .absent) ∧
      (let s := user
       let f := leafAt base .load false 1 0x140000000
       s.calm = true ∧ s.g.sup = false ∧ s.translate 0 0 s.g.root .load (s.g.readS 16) = .leaf f ∧ f.pte.getLsbD 5 = false) ∧
      (let f := leafAt base .load false 1 0x2000
       base.translate 0 0 base.g.root .load (base.g.readS 1) = .leaf f ∧ base.g.sup = true ∧ base.route f.pte (lineOf (f.pa 0x2000)) = .plain)) ∧
    (base.check base.who .store false 1 (base.g.readS 5) = .fails 3 ∧
      (passes base .store false 1 0x2000 = true ∧ (leafAt base .store false 1 0x2000).pte.getLsbD 7 = false) ∧
      (let f := leafAt base .store false 1 0x80000800
       passes base .store false 1 0x80000800 = true ∧ f.pte.getLsbD 7 = true ∧ moduleOf (f.pa 0x80000800) = base.module ∧ base.wheels.find? (fun x => x.wheel == f.pa 0x80000800) = none ∧
       ((wheelOfPage .residentS).wheels.find? fun x => x.wheel == f.pa 0x80000800).map (fun x => x.state) = some .residentS)) ∧
    (let s := wheelOfPage .vatted
     s.wheels.find? (fun x => x.wheel == 0x40000800) = some { wheel := 0x40000800, state := .vatted } ∧ s.calm = true) ∧
    (let s := wheelOfPage (.residentF false 1 0)
     (s.wheels.find? fun x => x.wheel == 0x40000800).map (fun x => x.state) = some (.residentF false 1 0) ∧ s.calm = true) ∧
    (let s := { base with insts := [{ key := 1, launch := 0, index := 0, cluster := owningCluster 0x40000800, size := 4096 }] }
     { srcs := [rs 3, rs 0], noTx := true : Form }.runs s = true ∧ s.calm = true ∧ isTrap (s.frameOf 1 0x40000800 (s.g.readS 4)) = true ∧ isOk (s.frameOf 1 0x40000800 (s.g.readS 0)) = true) := by
  decide +kernel

theorem witness_TransactionsOpen :
    base.g.txst.length = 32 ∧ base.g.tx.length = 32 ∧ { srcs := [rs 1] : Form }.runs base = true ∧ { srcs := [rs 1, rs 17] : Form }.runs base = true ∧ { dsts := [rs 1] : Form }.runs base = true ∧
    (masked 0).cur.exm = 0 ∧
    (let s := inTx
     s.cur.exm ≠ 0 ∧ s.g.txIn s.cur.exm &&& ~~~(maskBy fun l => (s.g.laneTx l).retry) ≠ 0) ∧
    (base.cur.exm ≠ 0 ∧ base.g.txIn base.cur.exm = 0 ∧ base.defer = false ∧ (base.g.readS 7).toNat % 4 ≠ 0 ∧ (base.g.readS 1).toNat % 4 = 0 ∧
      (base.allGroups.filter fun g => g.core == base.g.core && g.slab).length < 16) ∧
    base.check base.who .atomic false 8 (base.g.readS 5) = .fails 3 ∧ passes base .atomic false 8 (base.g.readS 17) = true ∧ routeAt base .atomic false 8 (base.g.readS 17) = .plain ∧
    placeOf (localOf ((leafAt base .atomic false 8 (base.g.readS 17)).pa (base.g.readS 17))) = .hbm := by decide +kernel

theorem witness_TransactionsEnd :
    let alone := fun (s : State) =>
      let x := s.g.laneTx 5
      let w := s.g.txWord 5
      s.defer = false ∧ s.rrMode = 0 ∧ s.performed s.g = true ∧ s.wheels = [] ∧ s.hostCopies = [] ∧ s.g.txst.length = 32 ∧ s.g.tx.length = 32 ∧ s.fallback = none ∧ s.dies.all (fun d => d.token.isNone) = true ∧
      Form.runs {} s = true ∧ s.exm = BitVec.ofNat 32 (2 ^ 5) ∧ s.g.txLanes = s.exm ∧ w.getLsbD 2 = false ∧ w.getLsbD 16 = false ∧ x.retry = false ∧ x.atTend = false ∧ x.atTabt = false ∧
      s.g.save = [] ∧ s.g.other.live = false ∧ s.g.commits = [] ∧ x.reads.all (fun e => e.kind == 0) = true
    let stands := fun (s : State) => (s.g.laneTx 5).reads.all fun e => e.kind == 0 && decide (s.mem.readNat e.pa e.size = e.data.toNat)
    (alone inTx ∧ stands inTx = true) ∧ (alone (inTx 1 9) ∧ stands (inTx 1 9) = false) ∧
    (base.g.txIn base.exm = 0 ∧ (List.range 32).all (fun k => !(base.g.laneTx k).atTend) = true ∧ base.performed base.g = true ∧ Form.runs {} base = true) := by decide +kernel

theorem witness_LoggedAccesses :
    let s := inTx (ws := [])
    s.defer = false ∧ s.rrMode = 0 ∧ s.cur.hints.ord = none ∧ s.failed = [] ∧ s.poison = [] ∧ s.bad = [] ∧ s.wheels = [] ∧ s.hostCopies = [] ∧ s.stores = [] ∧ s.msgs = [] ∧ s.modAcks = [] ∧ s.g.tx.length = 32 ∧ s.exm = BitVec.ofNat 32 (2 ^ 5) ∧ s.l1 = [] ∧ s.g.openLanes = s.exm ∧
    (s.g.txWord 5).getLsbD 1 = false ∧ (s.g.laneTx 5).reads.length < 16 ∧ (s.g.laneTx 5).writes = [] ∧
    placeOf (localOf ((leafAt s .store false 4 0x3000).pa 0x3000)) = .hbm ∧ placeOf (localOf ((leafAt s .load false 4 0x3000).pa 0x3000)) = .hbm ∧
    (passes s .store false 4 0x3000 = true ∧ routeAt s .store false 4 0x3000 = .plain ∧ (mvForm false 4 0 17 2 3).runs s = true ∧ passes s .store false 8 0x3000 = true ∧ (mvForm false 4 0 17 3 3).runs s = true) ∧
    (passes s .load false 4 0x3000 = true ∧ routeAt s .load false 4 0x3000 = .plain ∧ (mvForm true 4 0 17 2 3).runs s = true ∧
      (s.g.laneTx 5).reads.all (fun e => decide (e.pa + e.size ≤ (leafAt s .load false 4 0x3000).pa 0x3000) || decide ((leafAt s .load false 4 0x3000).pa 0x3000 + 4 ≤ e.pa)) = true) := by decide +kernel

/-- The control word of a copy of n bytes between scratchpads, and cards of the group. -/
def copyCtl (n : Nat) : W64 := BitVec.ofNat 64 (n + 2 ^ 37 + 2 ^ 39)
def job (st : CardState) (n : Nat := 128) : Card :=
  { seq := 9, cslot := 4, kind := .job, wg := 1, gidx := 0, launch := 0, asid := 0, root := 0, sup := true, dst := 0x80, src := 0, ctl := copyCtl n, stat := 0x40, state := st }
def cards (cs : List Card) (s : State := base) : State :=
  { s with cores := [{ Core.fresh with vbase := 0x8000, cards := cs, queue := cs.map fun c => c.seq }] }
def guarding (st : GuardState) (wg : Nat) (s : State := base) : State :=
  s.updCore 0 fun k => { k with guards := k.guards.set 5 { state := st, wg := wg } }

/-- The launch of a party: four workgroups of one group each in an instance. -/
def partyLaunch : Launch := { handle := 7, fields := [(5, 32), (2, 4)], wgb := 1, clb := 2 }
def party (s : State := base) : State := { s with launches := [partyLaunch], wgs := [{ wg1 with launch := 7 }] }

theorem witness_PostingForms :
    let s := deferred
    let full := cards ((List.range 64).map fun k => { job .running with seq := k, cslot := k }) s
    let reads := fun (f : List RegName) => { srcs := f, dsts := [rs 40], noTx := true : Form }.runs s = true
    let posted := { s with g := { s.g with s := ((s.g.s.set 24 0x80).set 25 0).set 26 (copyCtl 64) } }
    let c := { job .waiting with dst := 0x80, src := 0, ctl := copyCtl 64, stat := 0, seq := 0, cslot := 0 }
    s.defer = true ∧ s.performedAt 1 s.g = true ∧ s.g.lateFault = none ∧ s.cores[s.g.core]? = some { Core.fresh with vbase := 0x8000 } ∧ full.cores[0]? = some (full.core 0) ∧ 64 ≤ (full.core 0).cards.length ∧
    (∀ d ∈ (full.core 0).cards, d.state ≠ .waiting) ∧
    (((guarding .pending 2 s).core 0).guards.getD 5 {}).wg ≠ s.g.wg ∧ (((guarding .pending 1 s).core 0).guards.getD 5 {}).state = .pending ∧
    reads ((List.range 4).map fun j => rs (24 + j)) ∧ reads [rs 24] ∧ reads [rs 24, rs 25] ∧
    (posted.g.readS 26 = copyCtl 64 ∧ c.badWords = false ∧ isOk (posted.checkCard { c with foot := derivedFoot c }) = true) ∧ { c with idx := 1 }.badWords = true ∧
    ((s.g.readS 7).toNat % 16 ≠ 0 ∧ (s.g.readS 12).toNat % 16 = 0 ∧ s.extent .scratch < (s.g.readS 12).toNat + 128 ∧ (s.g.readS 9).toNat % 16 = 0 ∧ (s.g.readS 9).toNat + 128 ≤ s.extent .scratch ∧ s.chipBusy .load .scratch 128 [(s.g.readS 9).toNat] = false) ∧
    (isOk (party s).party = true ∧ isTrap s.party = true ∧ s.g.readS 24 = 0 ∧ (s.g.readS 24).extractLsb' 60 4 = 0 ∧ (0x1000000000000000 : W64).extractLsb' 60 4 ≠ 0 ∧ (4 : W64).extractLsb' 0 3 = 4) := by decide +kernel

/-- A matrix request of the group held in its cluster. -/
def matReq (fn : Nat) (granted : Bool := false) (due : Nat := 0) : MatReq :=
  { id := 5, core := 0, wg := 1, gidx := 0, slot := 0, pc := 0x1000, launch := 0, prio := 0, fn := fn, sub := 2, tile := 1, granted := granted, due := due }
def matrix (rs : List MatReq) (busy : Option Nat := none) (s : State := base) : State :=
  { s with nextId := 9, clusters := [{ Cluster.fresh with resv := rs, subs := Cluster.fresh.subs.set 2 { busy := busy } }] }

theorem witness_WaitsAndGuards :
    let s := deferred
    let held := cards [job .running] s
    let waiting := matrix [matReq 24] none s
    let find := fun (u : State) (h : W64) => (u.core 0).cards.find? fun c => c.cslot == (h.extractLsb' 0 6).toNat && c.seq == (h.extractLsb' 32 32).toNat
    s.cores[0]? = some (s.core 0) ∧ held.cores[0]? = some (held.core 0) ∧ 5 < (s.core 0).guards.length ∧
    { srcs := [rs 1], dsts := [rs 40], noTx := true : Form }.runs s = true ∧ { srcs := [rs 40, rs 1], noTx := true : Form }.runs s = true ∧ { noTx := true : Form }.runs s = true ∧
    { srcs := [rs 40], noTx := true : Form }.runs s = true ∧
    ((s.cluster 0).resv = [] ∧ (waiting.cluster 0).resv.filter (fun r => r.wg == s.g.wg && r.gidx == s.g.gidx) ≠ [] ∧ waiting.g.matWait = [] ∧ (∀ r ∈ (waiting.cluster 0).resv, r.id < waiting.nextId)) ∧
    ((find held 0x900000004).isSome = true ∧ find s 0x900000004 = none ∧ s.extent .scratch < 8 * ((0x901000004 : W64).extractLsb' 12 17).toNat + 8 ∧
      8 * ((0x900001004 : W64).extractLsb' 12 17).toNat + 8 ≤ s.extent .scratch ∧ s.chipBusy .load .scratch 8 [8] = false) ∧
    ((s.g.readS 7).toNat % 4 ≠ 0 ∧ (s.g.readS 1).toNat % 4 = 0 ∧ s.g.save.length < 64 ∧ 64 ≤ (full s).g.save.length) ∧
    (((s.core 0).guards.getD 5 {}).state = .free ∧ (((guarding .pending 1 s).core 0).guards.getD 5 {}) = { state := .pending, wg := s.g.wg }) := by decide +kernel

/-- A group of a launch, alone in its workgroup. -/
def soloist : State :=
  let keys := (List.range 32).map fun l => BitVec.ofNat 32 (31 - l)
  let s := upd fun g => { g with launch := 7, v := g.v.set 4 keys }
  { s with launches := [partyLaunch], wgs := [{ wg1 with launch := 7 }], groups := [{ trapContext 0 with wg := 0 }] }

theorem witness_LanesMove :
    (let s := exted 0 8
     s.cur.hints.ext = some { sel := 0, cls := 0, reg := 8 } ∧ (8 % 4 = 0 ∧ 8 % 2 = 0) ∧ s.exm ≠ 0 ∧
     { srcs := [rv 4, rs 1], dsts := [rv 8, rv 9] ++ [rv 10] ++ [rs 40], z := true, ext := [0], extNeeded := true, extDst := true, noTx := true : Form }.runs s = true ∧
     { srcs := [rv 4, rs 1], dsts := [rv 8, rv 9] ++ [] ++ [rs 40], z := true, ext := [0], extNeeded := true, extDst := true, noTx := true : Form }.runs s = true ∧
     (let t := exted 0 8 (masked 0)
      t.exm = 0 ∧ { srcs := [rv 4, rs 1], dsts := [rv 8, rv 9] ++ [] ++ [rs 40], z := true, ext := [0], extNeeded := true, extDst := true, noTx := true : Form }.runs t = true)) ∧
    (let s := soloist
     { srcs := [rv 4, rs 2, rs 3], noTx := true : Form }.runs s = true ∧ s.groups.all (fun g => g.wg != s.g.wg) = true ∧ s.g.launch ≠ 0 ∧ s.g.slot < 64 ∧
     s.g.status = .running ∧ s.g.save = [] ∧ s.g.other.live = false ∧ s.exm = s.g.lanes ∧ s.exm ≠ 0 ∧ s.g.gidx = 0 ∧ s.g.core < 128 ∧ s.g.early = [] ∧ s.g.inflight = []) := by decide +kernel

theorem witness_TilesAndRequests :
    let s := { upd (fun g => { g with ac := g.ac.set 1 (0x21 : W64) }) deferred with ctl := State.reset.ctl }
    let d : Desc := BitVec.ofNat 128 (2 ^ 119 + 2 ^ 108 + 15 * 2 ^ 99 + 32 * 2 ^ 57)
    let m : Desc := BitVec.ofNat 128 (2 ^ 108 + 15 * 2 ^ 99 + 64 * 2 ^ 57)
    let runs := fun (f : Form) => { f with noTx := true : Form }.runs s = true
    s.g.early = [] ∧ { srcs := [rs 40, rs 41], dsts := [rt 2], noTx := true : Form }.runs s = true ∧ { srcs := [rt 2], dsts := [rs 40, rs 41], noTx := true : Form }.runs s = true ∧
    { srcs := [rs 40], dsts := [ra 2], noTx := true : Form }.runs s = true ∧ { srcs := [ra 2], dsts := [rs 40], noTx := true : Form }.runs s = true ∧
    s.defer = true ∧ s.clusters.all (fun c => c.sg.isEmpty && c.xbar.isEmpty) = true ∧ s.clusters[0]? = some Cluster.fresh ∧ Cluster.fresh.poisoned.elem 1 = false ∧
    ((s.g.ac.getD 2 0).getLsbD 5 = false ∧ (s.g.ac.getD 1 0).getLsbD 5 = true ∧ ((s.g.ac.getD 1 0).extractLsb' 0 5).toNat = 1 ∧ (s.ctl.tilemask.getD 0 0).getLsbD 1 = true) ∧
    s.cur.live = true ∧ s.wheels = [] ∧ (preChecks 64 0xC0000000 = true ∧ s.missing s.g.core s.g.slot s.g.inB s.g.asid .store [0xC0000000] ≠ []) ∧
    (let t := { s with misses := [{ core := 0, slot := 0, inB := false, asid := 0, root := 0, va := 0xC0000000, fetch := false, done := true }, { core := 0, slot := 0, inB := false, asid := 0, root := 0, va := 0x2000, fetch := false, done := true }] }
     t.missing 0 0 false 0 .store [0xC0000000] = [] ∧ t.missing 0 0 false 0 .store [0x2000] = [] ∧ t.check t.who .store false 64 0xC0000000 = .fails 3 ∧ passes t .store false 64 0x2000 = true) ∧
    ((matFmt d.fmt (s.g.fmtFor d)).isSome = true ∧ d.kind = 0 ∧ d.space = 0 ∧ d.bmp = 0 ∧ d.vecs = 2 ∧ d.len = 16 ∧ d.stride = 32 ∧ d.inc = 0 ∧ loopOk d d { num := bf16 } { num := bf16 } = true ∧ matFmt 0 0 = none) ∧
    (m.fmt = 0 ∧ m.len = 16 ∧ m.vecs = 2) ∧ isOk (s.checkRegions (d.regions { num := bf16 } 0)) = true ∧ isOk (s.checkRegions [{ space := 0, off := 250, len := 16 }]) = false ∧
    runs { srcs := [rs 0, ra 1] } ∧ runs { srcs := [rs 0, rt 2] } ∧ runs { srcs := [rs 0, rt 2, ra 1] } ∧ runs { srcs := [rs 0, rt 2, ra 1], rnd := true, sat := true } ∧
    (let t := exted 4 1 s
     t.cur.hints.ext = some { sel := 0, cls := 4, reg := 1 } ∧ { srcs := [rs 0, rs 4, rt 2, rt 3], ext := [4], extNeeded := true, noTx := true : Form }.runs t = true) ∧
    (let t := matrix ((List.range 20).map fun k => { matReq 24 with id := k }) none s
     ¬((t.cluster 0).resv.filter fun r => r.core == 0).length < 4) := by decide +kernel

theorem witness_MatrixPasses :
    ([(tileIndex 1 0 0, (5 : W32)), (tileIndex 1 0 3, 7)].map fun x => x.1).Pairwise (· < ·) ∧
    (let w := matrix [matReq 24]
     let idle : SubArray := { busy := none }
     let b := matrix [matReq 24 true 4000] (some 5)
     let sub := fun (s : State) => (s.cluster 0).subs[2]?
     sub w = some idle ∧ w.clusters[0]? = some (w.cluster 0) ∧ sub b = some { idle with busy := some 5 } ∧ base.winner 0 2 = none ∧ w.winner 0 2 = some (matReq 24) ∧ (matReq 24).sub = 2 ∧
     matReq 24 ∈ (w.cluster 0).resv ∧ (w.cluster 0).resv.all (fun q => decide (q.id = 5 → q = matReq 24)) = true ∧
     (b.cluster 0).resv.find? (fun q => q.id == 5) = some (matReq 24 true 4000) ∧ (matReq 24 true 4000).granted = true ∧ (matReq 24 true 4000).due ≤ b.clock ∧ (matReq 24 true 4000).stamp = none ∧
     (matReq 24).steps ≤ (matReq 24).done + 1 ∧ (0 + 1 < { matReq 23 with steps := 3 }.steps)) := by decide +kernel

/-! ### Witnesses: supervisor forms and events -/

/-- A stopped group in slot 3 whose save area lies nowhere. -/
def halted : Group := { grp with slot := 3, status := .stopped, dsave := 0x0100000000000000 }
/-- The same with no allocated register, whose context is short. -/
def bare : Group := { halted with s := [], v := [] }
def beside (gs : List Group) (s : State := base) : State := { s with groups := gs ++ [trapContext 0] }
/-- Words in a die's Cave. -/
def mail (tail head : Nat) (s : State := base) : State := { s with mem := (s.mem.writeNat 0x68000944000 8 tail).writeNat 0x68000944008 8 head }

theorem witness_SupervisorForms :
    (user).g.sup = false ∧ base.calm = true ∧ base.wheels = [] ∧ base.groups.all (fun g => !g.at_ base.g.core base.g.slot) = true ∧ base.performed base.g = true ∧ base.g.lateFault = none ∧ base.l1 = [] ∧
    { srcs := [rs 1, rs 3], sup := true : Form }.runs base = true ∧ { srcs := [rs 4, rs 5, rs 3], sup := true : Form }.runs base = true ∧
    ((base.g.readS 7).toNat % 64 ≠ 0 ∧ (base.g.readS 1).toNat % 64 = 0) ∧ (base.groupAt 0 ((base.g.readS 10).extractLsb' 0 6).toNat).isNone = true ∧ base.g.status = .running ∧
    (let s := beside [halted]
     s.groupAt 0 ((s.g.readS 4).extractLsb' 0 6).toNat = some halted ∧ halted.status = .stopped ∧ (0x2000 : W64).toNat % 65536 + halted.imageSize ≤ 65536 ∧ s.wheels = [] ∧ halted.slot ≠ s.g.slot ∧
     s.check s.who .store false 1 0xC0000000 = .fails 3 ∧ passes s .store false 1 0x2000 = true ∧ routeAt s .store false 1 0x2000 = .plain ∧ passes s .load false 1 0x2000 = true ∧
     halted.imageSize = halted.image.length ∧ canonical halted.dsave = false ∧ isOk (s.area s.who .store 0x2000 halted.imageSize) = true) ∧
    (let s := beside [bare]
     let f := leafAt s .store false 1 0x2000
     let g := leafAt s .load false 1 0x2000
     s.groupAt 0 ((s.g.readS 4).extractLsb' 0 6).toNat = some bare ∧ bare.imageSize = bare.image.length ∧
     (List.range bare.imageSize).all (fun x => s.route f.pte (f.pa 0x2000 + x) == .plain && s.route g.pte (g.pa 0x2000 + x) == .plain) = true) ∧
    (((base.g.readS 0).extractLsb' 0 9).toNat = base.module ∧ ((base.g.readS 4).extractLsb' 0 9).toNat ≠ base.module ∧ passes base .load false 64 0x2000 = true ∧ 256 ≤ (base.mem.readNat 0x68000944000 8 + 2 ^ 64 - base.mem.readNat 0x68000944008 8) % 2 ^ 64 + 256 ∧
      256 ≤ ((mail 300 44).mem.readNat 0x68000944000 8 + 2 ^ 64 - (mail 300 44).mem.readNat 0x68000944008 8) % 2 ^ 64 ∧ (mail 299 44).mem.readNat 0x68000944000 8 = 299) ∧
    (base.g.readS 4).getLsbD 0 = true ∧
    (let g := halted
     g.fmt.length = 8 ∧ g.wid.length = 32 ∧ g.txst.length = 32 ∧ g.p.length ≤ 8 ∧ g.t.length ≤ 8 ∧ g.ac.length ≤ 8 ∧ g.bm.length ≤ 8 ∧ g.v.all (fun x => x.length == 32) = true ∧
     g.a.depth < 65536 ∧ g.b.depth < 65536) := by decide +kernel

def line0 : Nat := 0x40002000
def copy (core : Nat) (t : Tag) (dirty : W64 := 0) (stale : Option (List Byte) := none) : L1Line :=
  { core := core, line := line0, tag := t, valid := BitVec.allOnes 64, dirty := dirty, stale := stale }
def ownedBy (o : Nat) : State := { base with dir := [{ line := line0, state := .modified o }], l1 := [copy o .full 3] }

theorem witness_DirectoryEvents :
    base.defer = false ∧ base.msgs = [] ∧ base.stores = [] ∧ base.hostCopies = [] ∧ base.cacheable line0 = true ∧ (base.dirOf line0).isNone = true ∧ base.l1Of 0 line0 = none ∧
    (let s := { base with dir := [{ line := line0, state := .shared, rinds := [{ tag := .bf16, mask := 1 }] }], l1 := [copy 0 .bf16], l2 := [{ line := line0, version := 7 }] }
     s.cacheable line0 = true ∧ s.l1Of 0 line0 = some (copy 0 .bf16) ∧ (copy 0 .bf16).tag ≠ .full ∧ (s.dirOf line0).any (fun d => decide (d.state = .modified 0)) = false) ∧
    (let s := ownedBy 0
     s.cacheable line0 = true ∧ (s.dirOf line0).any (fun d => decide (d.state = .modified 0)) = true ∧ s.l1Of 0 line0 = some (copy 0 .full 3)) ∧
    (let s := { base with l2 := [{ line := line0, version := 7 }] }
     (s.dirOf line0).isNone = true ∧ (s.versionOf line0).isSome = true) ∧
    line0 / 64 = (line0 + 64 - 1) / 64 := by decide +kernel

def message (k : MsgKind) : DirMsg := { core := 0, line := line0, kind := k, tag := .full, all := false }
def awaited (k : MsgKind) : State := { base with msgs := [message k], l1 := [copy 0 .full 0 (some [])] }
def posted (host : Bool) (st : FabState := .pending) (deadline : Nat := 0) (isPosted : Bool := true) : FabReq :=
  { id := 1, ident := base.g.ident, core := 0, inB := false, pc := 0, host := host, posted := isPosted, pa := line0 + 4, writes := [(line0 + 4, [1, 2])], vaddr := 0x2004, mask := 1,
    deadline := deadline, status := st }
/-- The wheel of `line0` with a vat of two entries. -/
def vatted (st : WheelState) (s : State := base) : State :=
  { s with wheels := [{ wheel := line0, state := st, vat := [{ data := 77, off := 0x10, op := 1, fmt := 0 }, { data := 9, off := 0x20, op := 0, fmt := 0 }] }] }
def addTo (addr : Nat) : AtomReq := { lane := 0, addr := addr, size := 4, op := 0, operand := 5 }
def taking (s : State) : State :=
  { s with clusters := [{ Cluster.fresh with intake := [{ ident := base.g.ident, core := 0, wheel := line0, reqs := [addTo (line0 + 16)] }] }] }

theorem witness_MemorySystemEvents :
    ([MsgKind.invalidate, .update].all fun k =>
      decide (((awaited k).msgs.find? fun x => x.core == 0 && x.line == line0) = some (message k) ∧ (awaited k).l1Of 0 line0 = some (copy 0 .full 0 (some [])) ∧ (message k).tag = .full ∧ (message k).kind = k ∧
        ((awaited k).msgs.takeWhile fun x => !(x.core == 0 && x.line == line0)) = [])) = true ∧
    (base.fabric = [] ∧ ({ base with fabric := [posted false] }.fabric.find? fun r => r.posted && r.pa / 64 * 64 == line0) = some (posted false)) ∧
    (let r := posted false
     r.atoms = [] ∧ r.strong = false ∧ r.sent = true ∧ r.host = false ∧ (r.spans.any fun y => r.meets y.1 y.2) = true) ∧
    (let e : SgEntry := { ident := base.g.ident, core := 0, space := 1, wg := 1, inst := none, reqs := [addTo 16], ret := false }
     let s := { base with clusters := [{ Cluster.fresh with sg := [e] }] }
     let r : Inflight := { mem := true, reg := rv 4, mask := 1, val := .lanes (List.replicate 32 9), await := some (7, 0) }
     let u := { upd (fun g => { g with inflight := [r] }) with clusters := [{ Cluster.fresh with sg := [{ e with id := 7, ret := true }] }] }
     (base.allGroups.all fun g => g.save.all fun x => !x.sorting) = true ∧ (u.allGroups.all fun g => g.save.all fun x => !x.sorting) = true ∧
     (u.groupAt 0 0).map (fun g => g.inflight) = some [r] ∧ (base.cluster 0).sg = [] ∧ s.clusters[0]? = some { Cluster.fresh with sg := [e] } ∧ s.wgAt 1 = some wg1) ∧
    (let s := taking (vatted .vatted)
     let u := taking (vatted .residentS)
     s.clusters[0]? = some (s.cluster 0) ∧ (s.cluster 0).intake.length = 1 ∧ (s.wheelAt line0).map (fun w => w.state) = some .vatted ∧
     ((unitEntries [addTo (line0 + 16)]).any fun es => decide ((appendUnit ((s.wheelAt line0).map fun w => w.vat).get! es).length ≤ 64)) = true ∧
     (u.wheelAt line0).map (fun w => w.state) = some .residentS ∧ (line0 + 16) / 64 = (line0 + 16 + 4 - 1) / 64) ∧
    (base.wheelAt line0 = none ∧ ((vatted .vatted).wheelAt line0).map (fun w => w.state) = some .vatted ∧ ((vatted .pressing).wheelAt line0).map (fun w => (w.state, w.after, w.forced)) = some (.pressing, none, false) ∧
      line0 % 2048 = 0 ∧ line0 / 2 ^ 43 = base.module ∧ base.hostCopies = [] ∧ base.stores = []) ∧
    ((0 : Nat) < 8 ∧ 0xFFFF8 + 8 ≤ 0x100000) ∧
    (base.groupAt 0 0 = some base.g ∧ base.wgAt base.g.wg = some wg1 ∧ (base.instOf wg1).map (fun i => i.size) = some 256 ∧ 248 + 8 ≤ 256) ∧
    (let r : Inflight := { mem := true, reg := rs 4, mask := 1, val := .word 9 }
     let s := upd fun g => { g with inflight := [r] }
     (s.groupAt 0 0).map (fun g => g.inflight) = some [r] ∧ s.fabric = [] ∧ (4 : Nat) ≠ 0 ∧ 4 < s.g.s.length) ∧
    (let r : Inflight := { mem := false, reg := rv 4, mask := 1, val := .lanes (List.replicate 32 9) }
     let s := upd fun g => { g with inflight := [r] }
     (s.groupAt 0 0).map (fun g => g.inflight) = some [r] ∧ 4 < s.g.v.length) ∧
    (base.rootFor 0 0).isSome = true ∧ (base.rootFor 0 0).any (fun root => decide (base.walkRoot 0 0 root 0x2000 = .leaf (leafAt base .load false 4 0x2000))) = true ∧
    canonical 0x2000 = true ∧ (base.tlbHit (.second 0) 0 0x2000).isNone = true ∧ base.misses = [] ∧
    (let m : Miss := { core := 0, slot := 0, inB := false, asid := 0, root := base.g.root, va := 0x2000, fetch := false }
     let s := { base with misses := [m] }
     m.waits 0 0 = true ∧ (s.walks 0).elem (0, 0) = true) := by decide +kernel

theorem witness_FabricAndErrorEvents :
    let far := 2 ^ 43 + line0
    base.hostCopies = [] ∧ base.poison = [] ∧ base.stores = [] ∧ base.msgs = [] ∧ base.modAcks = [] ∧ base.owed = [] ∧ base.failed = [] ∧ base.route 128 line0 = .vat ∧
    (let s := { deferred with clusters := List.replicate 32 Cluster.fresh }
     owningCluster line0 < s.clusters.length ∧ s.route 128 line0 = .vat ∧ line0 / 256 = (line0 + 256 - 1) / 256) ∧
    base.dies.length = 4 ∧ moduleOf far ≠ base.module ∧ moduleOf line0 = base.module ∧ base.route 0 line0 = .plain ∧ (vatted .vatted).route 0 line0 = .vat ∧
    line0 / 64 = (line0 + 64 - 1) / 64 ∧ (List.replicate 2048 (0 : Byte)).length = 2048 ∧
    (([(true, false), (false, false), (true, true), (false, true)] : List (Bool × Bool)).all fun x =>
      let s : State := { base with fabric := [posted x.1 .pending 0 x.2] }
      decide ((s.fabric.find? fun (r : FabReq) => r.id == 1 && decide (r.status = .pending)) = some (posted x.1 .pending 0 x.2) ∧ (s.groupAt 0 0).isSome = true)) = true ∧
    (let r := { posted false with ident := engineIdent 0, pc := 9 }
     r.atoms = [] ∧ r.pc.toNat < 2 ^ 32 ∧ ((cards [job .running]).core 0).cards.map (fun c => c.seq) = [9] ∧ (posted false).ident ≠ engineIdent 0 ∧
     (base.groupAt 0 0).map Group.ident = some (posted false).ident) ∧
    (let r := { posted false with ident := 20000, launch := 7 }
     r.ident ≠ engineIdent r.core ∧ (base.allGroups.all fun g => g.ident != r.ident) = true ∧ ((party).launchOf 7).isSome = true) ∧
    (posted false).deadline ≤ base.tstamp.toNat ∧ base.tstamp.toNat < (posted false .pending 9).deadline ∧ base.fabric = [] ∧
    (let e : EccEntry := { loc := 5, count := 1, first := 0 }
     let s := { base with dies := base.dies.map fun (d : Die) => { d with ecc := [e] }, ctl := State.reset.ctl }
     let u := { s with ctl := { s.ctl with eccthr := 2 } }
     (s.die 0).ecc.find? (fun (x : EccEntry) => x.loc == 5) = some e ∧ s.tstamp.toNat ≤ e.first + s.ctl.eccwin.toNat * 1000000000 ∧ e.count + 1 < s.ctl.eccthr.toNat ∧ u.ctl.eccthr.toNat ≤ e.count + 1 ∧
     let full : Die := { retired := (List.range 16).map fun k => (2 ^ 53 + 64 * k, true) }
     (s.die 0).ecc.find? (fun (x : EccEntry) => x.loc == 6) = none ∧ 1 < s.ctl.eccthr.toNat ∧ (s.die 0).ecc.length < 4096 ∧
     (s.die 0).canRetire 5 = true ∧ full.canRetire (2 ^ 53 + 1024) = false ∧ full.retired.elem (2 ^ 53 + 1024, true) = false ∧
     placeOf (localOf line0) = .hbm ∧ (State.reset.wgs = [] ∧ State.reset.insts = []) ∧
     (vatted .vatted).wheels.length = 1 ∧ base.module < 512 ∧ (base.fabric.any fun r => r.posted && r.host) = false) := by decide +kernel

/-- R86: eight bytes of the scratchpad spoiled: a load of one of them traps, a store of the whole word ends it. -/
theorem test_spoiled_word :
    (let s := base.spoil (.wg base.g.wg) 0x103
     let t := s.repair (.wg base.g.wg) 0x100 8
     s.spoiled (.wg base.g.wg) 0x100 4 = true ∧ s.spoiled (.wg base.g.wg) 0xFC 4 = false ∧ t.spoiled (.wg base.g.wg) 0x100 8 = false ∧ t.bad = [] ∧
     (match s.checkOwn 0 0x104 4 with
      | .error (.trap t) => t.code == codeEcc
      | _ => false) = true) := by decide +kernel

/-- A parked entry of the group. -/
def parked (c : ParkCause) (deadline : Nat := 0) : SaveEntry :=
  { state := .parked c, pc := 0x1100, mask := 2, depth := 0, frame := 0, seq := 3, deadline := deadline, next := 0x1104 }
def parking (c : ParkCause) (deadline : Nat := 0) (s : State := base) : State := upd (fun g => { g with save := [parked c deadline] }) s

/-- The states that the witnesses build on have no spoiled byte and no message on its way (premises of the statements on `ret`, barriers, `ecmd`,
`ewait`, engines and logged accesses). -/
theorem witness_nothing_spoiled : base.bad = [] ∧ base.msgs = [] ∧ (upd fun g => g).bad = [] ∧ State.reset.bad = [] := by decide +kernel

theorem witness_WaitsThatEnd :
    (([(ParkCause.mwait, 0), (.mwait, 9000), (.backoff, 0), (.backoff, 9000), (.barWait 64 false, 0), (.barWait 64 true, 0), (.eyield 5, 0), (.eyield 0x900008004, 0)] : List (ParkCause × Nat)).all fun x =>
      decide ((parking x.1 x.2).groupAt 0 0 = some (parking x.1 x.2).g ∧ (((parking x.1 x.2).g.save).filter fun e => e.seq == 3) = [parked x.1 x.2])) = true ∧
    ((base.core 0).frozen.isSome = false ∧ (parked .mwait).deadline ≤ base.clock ∧ base.clock < (parked .mwait 9000).deadline ∧ base.wgAt base.g.wg = some wg1 ∧
      wg1.cells.readNat 64 16 / 2 ^ 32 % 2 ^ 16 = 0) ∧
    (let w := { wg1 with cells := Cells.writeNat [] 64 16 (2 ^ 32) }
     w.cells.readNat 64 16 / 2 ^ 32 % 2 ^ 16 ≠ 0 ∧ w.cells.readNat 64 16 % 2 = 0) ∧
    ((base.core 0).cards.any (fun c => c.handle == 5) = false ∧ ((cards [job .running]).core 0).cards.any (fun c => c.handle == 0x900008004) = true) ∧
    ((base.cluster 0).resv = [] ∧ ((matrix [matReq 24]).cluster 0).resv.any (fun r => decide (r.wg = 1 ∧ r.gidx = 0 ∧ r.id < (parked (.eyield 0) 9).deadline)) = true) ∧
    (let s := upd fun g => { g with fenceWait := [(false, 3)], tlbiWait := [true] }
     s.groupAt 0 0 = some s.g ∧ s.g.core = 0 ∧ s.g.slot = 0 ∧ s.g.fenceWait.find? (fun f => f.1 == false) = some (false, 3) ∧ s.g.fenceWait.all (fun f => f.1 != true) = true ∧ s.performedAt 3 s.g = true ∧ s.stores = [] ∧
     s.translatedDone = true ∧ ({ s with fabric := [posted false] } : State).translatedDone = false ∧ s.g.lateFault = none ∧ s.g.tlbiWait = [true] ∧ base.g.tlbiWait = []) := by decide +kernel

def event3 : TrapEvent := { slot := 3, inB := false, code := 9, pc := 0x1040 }
/-- Core 0 with events, and the group of slot 3 beside the running one. -/
def eventful (es : List TrapEvent) (f : Group → Group) (serving : Option Nat := none) : State :=
  beside [f { halted with status := .running }] { base with cores := [{ Core.fresh with vbase := 0x8000, events := es, serving := serving }] }

theorem witness_TrapContextEvents :
    let stopped := fun (g : Group) => { g with status := .stopped }
    let stopping := fun (g : Group) => { g with status := .stopping }
    let asked := fun (g : Group) => { g with saveAsked := true }
    let at_ := fun (s : State) => s.groupAt 0 3
    (∀ f ∈ [stopped, stopping, asked, id], ∀ es ∈ [[], [event3]], (eventful es f).cores[0]? = some ((eventful es f).core 0) ∧ (at_ (eventful es f)).isSome = true ∧ ((eventful es f).groupAt 0 64).isSome = true) ∧
    ((eventful [event3] stopped).core 0).serving = none ∧ ((eventful [event3] stopped).core 0).frozenPosted = false ∧ ((eventful [event3] stopped).core 0).events = [event3] ∧ event3.slot = 3 ∧ (at_ (eventful [event3] stopped)).map (fun g => g.status) = some .stopped ∧
    ((eventful [event3] stopped (some 2)).core 0).serving.isSome = true ∧
    (at_ (eventful [event3] stopping)).map (fun g => (g.status, g.inflight, g.commits)) = some (.stopping, [], []) ∧
    (at_ (eventful [] asked)).any (fun g => decide (g.status = .running ∧ g.saveAsked = true ∧ (eventful [] asked).saveAllowed g = true ∧ g.txLanes = 0)) = true ∧
    (at_ (eventful [] id)).any (fun g => decide (g.status = .running ∧ g.saveAsked = false)) = true ∧
    256 ≤ ((mail 300 44).mem.readNat 0x68000944000 8 + 2 ^ 64 - (mail 300 44).mem.readNat 0x68000944008 8) % 2 ^ 64 ∧
    ((mail 299 44).mem.readNat 0x68000944000 8 + 2 ^ 64 - (mail 299 44).mem.readNat 0x68000944008 8) % 2 ^ 64 < 256 ∧
    (let s := base.updCore 0 fun k => { k with frozen := some 30 }
     0 < s.cores.length ∧ (s.core 0).frozen = some 30 ∧ s.tstamp.toNat < 30 ∧ 30 ≤ { s with tstamp := 30 }.tstamp.toNat) := by decide +kernel

/-! ### Witnesses: transactions, distributors, engines, the host and firmware -/

def commit : Commit := { lanes := 32, region := 1, ordered := false, need := [], held := [2] }
/-- Lane 5 alone at its `tend`, with word w and a commit (or none). -/
def ending5 (w : W32) (d : W64) (ks : List Commit) (f : LaneTx → LaneTx := id) : State :=
  upd (fun g => { g with commits := ks }) (inTx w d (f := fun x => f { x with atTend := true }))

theorem witness_TransactionEvents :
    (let s := upd (fun g => { g with slab := false, a := { g.a with wait := some .txCommitWait } })
     s.groupAt 0 0 = some s.g ∧ (s.allGroups.filter fun h => h.core == 0 && h.slab).length < 16 ∧ s.g.slab = false ∧ s.g.a.wait = some .txCommitWait ∧
     s.fallback = none ∧ { s with fallbackWait := [(0, 0, 7), (0, 0, 5)] }.fallbackWait.head? = some (0, 0, 7) ∧ (0, 0, 5) ∈ { s with fallbackWait := [(0, 0, 7), (0, 0, 5)] }.fallbackWait) ∧
    (let gs := (List.range 16).map fun k => { grp with slot := k + 1, slab := true }
     ¬((beside gs).allGroups.filter fun h => h.core == 0 && h.slab).length < 16) ∧
    (let k := { commit with need := [1, 2], held := [] }
     let s := ending5 1 0 [k]
     s.groupAt 0 0 = some s.g ∧ 1 < s.dies.length ∧ s.g.commits = [k] ∧ (s.die 1).token = none ∧ s.fallback = none ∧
     (({ s with dies := s.dies.map fun (d : Die) => { d with token := some (0, 3) } } : State).die 1).token.isSome = true) := by decide +kernel

/-- Lane 5 of the current path is alone, open, and about to meet what `end_` says of its `tend`. -/
def aloneInTx (s : State) (atTend : Bool) : Bool :=
  decide (s.rrMode = 0 ∧ s.wheels = [] ∧ s.hostCopies = [] ∧ s.g.slot < 64 ∧ s.g.txst.length = 32 ∧ s.g.tx.length = 32 ∧ s.exm = BitVec.ofNat 32 (2 ^ 5) ∧ s.g.txLanes = s.exm ∧ s.g.save = [] ∧
    s.g.other.live = false ∧ s.cur.live = true ∧ s.g.status = .running ∧ (s.g.txWord 5).getLsbD 2 = false ∧ (s.g.laneTx 5).retry = false ∧ (s.g.laneTx 5).atTabt = false ∧
    (s.g.laneTx 5).atTend = atTend)
def readsStand (s : State) : Bool := (s.g.laneTx 5).reads.all fun e => e.kind == 0 && decide (s.mem.readNat e.pa e.size = e.data.toNat)

theorem witness_TransactionEvents_commits :
    (let c := ending5 1 0 [commit]
     aloneInTx c true = true ∧ (c.g.txWord 5).getLsbD 16 = false ∧ readsStand c = true ∧ c.g.commits = [commit] ∧ commit.lanes = c.exm ∧ commit.region = (c.g.laneTx 5).region ∧
       commit.need = [] ∧ commit.ordered = false) ∧
    (let o := ending5 0x10003 0 [] fun x => { x with token := 0x40003000, iter := 0 }
     aloneInTx o true = true ∧ (o.g.txWord 5).getLsbD 16 = true ∧ readsStand o = true ∧ o.fallback = none ∧ o.dies.all (fun d => d.token.isNone) = true ∧ o.g.commits = [] ∧
       o.mem.readNat (o.g.laneTx 5).token.toNat 8 = (o.g.laneTx 5).iter.toNat) ∧
    (let late := { inTx with clock := 70000 }
     let wrong := { inTx 1 9 with clock := 70000 }
     aloneInTx inTx false = true ∧ inTx.g.commits = [] ∧ (inTx.core 0).frozen = none ∧ inTx.clock < (inTx.g.laneTx 5).since + 65536 ∧
      aloneInTx late false = true ∧ (late.g.laneTx 5).since + 65536 ≤ late.clock ∧ readsStand late = true ∧ aloneInTx wrong false = true ∧ readsStand wrong = false ∧
      (wrong.g.laneTx 5).reads.all (fun e => e.kind == 0) = true) := by decide +kernel

/-- A launch of single groups with units waiting on die 0 (or elsewhere), and cores for it. -/
def waiting (on : Nat) (us : List Nat) : Launch :=
  { handle := 7, entry := 0x1000, fields := [(5, 32), (31, 8)], wgb := 1, regs := [8, 16, 8, 8, 8, 8], unplaced := (List.replicate 4 []).set on us,
    toResume := List.replicate 4 [], passed := List.replicate 4 none }
def launching (l : Launch) (counts : List Nat := [0, 0, 0, 0]) : State :=
  { base with launches := [l], cores := List.replicate 64 Core.fresh, clusters := List.replicate 16 Cluster.fresh, dies := base.dies.map fun (d : Die) => { d with counts := counts } }
/-- The last group of launch 7, draining. -/
def leaving (f : Launch → Launch := id) : State :=
  { beside [{ halted with launch := 7, wg := 2, status := .draining }] with launches := [f { waiting 0 [] with unplaced := [] }], wgs := [wg1, { wg1 with key := 2, launch := 7, inst := none }] }

theorem witness_DistributorEvents :
    (let l := waiting 0 [4, 5, 6]
     let s := launching l
     let none_ := { s with cores := List.replicate 64 { Core.fresh with frozen := some 5 } }
     let fits := fun c => s.fitsCore c 1 l 0
     s.launches = [l] ∧ l.complete = false ∧ l.killed = false ∧ l.faulted = false ∧ l.clb = 0 ∧ l.prio < 3 ∧ l.unplaced[0]? = some [4, 5, 6] ∧ l.toResume.getD 0 [] = [] ∧
     (coresOf 0).all (fun c => !none_.fitsCore c 1 l 0) = true ∧ fits 1 = true ∧
     (coresOf 0).all (fun d => !fits d || decide ((s.freeSlots d).length < (s.freeSlots 1).length ∨ ((s.freeSlots d).length = (s.freeSlots 1).length ∧ 1 ≤ d))) = true) := by decide +kernel

theorem witness_DistributorEvents_steals :
    (let l := waiting 0 [4, 5, 6]
     let s := launching l [3, 0, 0, 0]
     let r := { s with dies := s.dies.set 1 { s.die 1 with stealing := some 0, stolen := [(7, [5, 6])] } }
     s.wantsSteal 1 = true ∧ s.stealFrom 1 = some 0 ∧ s.stealFrom 1 ≠ some 2 ∧ s.wantsSteal 0 = false ∧ s.byPriority = [l] ∧ (s.die 1).stealing = none ∧
     (r.die 1).stolen = [(l.handle, [5, 6])] ∧ l.unplaced[1]? = some [] ∧ (r.die 1).stealing = some 0 ∧ s.dies.length = 4 ∧ s.dies.all (fun d => d.counts.length == 4) = true ∧
     (let n := (s.launches.map fun l => (l.unplaced.getD 0 []).length).sum
      let far := { s with dies := s.dies.map fun (d : Die) => { d with reported := 90 } }
      ¬((s.die 0).reported + 64 ≤ n ∨ n + 64 ≤ (s.die 0).reported ∨ (s.die 0).reportedAt + 2000 ≤ s.tstamp.toNat) ∧ n + 64 ≤ (far.die 0).reported)) := by decide +kernel

theorem witness_DistributorEvents_drains :
    (let s := leaving
     let g := { halted with launch := 7, wg := 2, status := .draining }
     let w := { wg1 with key := 2, launch := 7, inst := none }
     s.rrMode = 0 ∧ s.groups ≠ [] ∧ s.allGroups.filter (Group.at_ 0 3) = [g] ∧ g.launch = 7 ∧ s.wgAt g.wg = some w ∧ (s.launchOf g.launch).map (fun l => (l.handle, l.complete, l.done, l.unplaced)) = some (7, false, 0, []) ∧
     g.lateFault = none ∧ w.launch = 7 ∧ w.key = g.wg ∧ s.drained g = true ∧ s.allGroups.any (fun x => x.wg == g.wg && x.slot != 64 && x.launch != 0 && !x.at_ 0 3) = false ∧
     (s.dies.all fun d => d.stolen.isEmpty) = true ∧ (s.wgs.all fun x => x.key == g.wg || x.launch != 7) = true ∧
     (let t := leaving fun l => { l with done := 0x2000, root := grp.root }
      t.translate 0 0 grp.root .store 0x2000 = .leaf (leafAt t .store false 4 0x2000)) ∧
     (let u := { s with groups := { g with slot := 4 } :: s.groups }
      u.allGroups.any (fun x => x.wg == g.wg && x.slot != 64 && x.launch != 0 && !x.at_ 0 3 && decide (x.status ≠ .saved)) = true ∧ u.drained g = true) ∧ base.groups.any (fun g => decide (g.status ≠ .draining)) = true) := by decide +kernel

/-- The four cards of a rotation of 512 bytes at the heads of the queues of cluster 0. -/
def turning (len : Nat := 512) : State :=
  let card := fun (k n : Nat) => { job .ready with kind := .rotate 0, wg := k + 1, stat := 0x1000, src := BitVec.ofNat 64 (2 ^ 16 * 64 + n / 512 * 2 ^ 32) }
  { base with
    cores := (List.range 4).map fun k => { Core.fresh with cards := [card k (if k = 3 then len else 512)], queue := [9] }
    wgs := (List.range 4).map fun k => { wg1 with key := k + 1, core := k, spad := 0x2000 } }

theorem witness_EngineEvents :
    (([CardState.ready, .running, .suspended].all fun st =>
      let c := job st
      let s := cards [c]
      decide (s.cores[0]? = some (s.core 0) ∧ (s.core 0).cards = [c] ∧ (s.core 0).queue = [c.seq] ∧ s.wgAt c.wg = some wg1 ∧ wg1.key = c.wg ∧ wg1.saved = false ∧ (s.wgs.filter fun x => x.key == 1) = [wg1] ∧
        c.kind = .job ∧ c.ctl.getLsbD 43 = false)) = true) ∧
    (let c := job .running
     c.op = 0 ∧ c.ssp = 1 ∧ c.dsp = 1 ∧ c.declared = false ∧ c.launch = 0 ∧ c.dst.toNat % 64 = 0 ∧ c.len % 64 = 0 ∧ c.dst.toNat + c.len ≤ 2 ^ 20 ∧ c.src.toNat + c.len ≤ 2 ^ 20 ∧ 64 * c.next < c.len ∧
     c.lost = false ∧ base.msgs = [] ∧ (base.fabric.all fun r => r.ident != engineIdent 0) = true ∧ c.arrived = c.next ∧ base.bad = [] ∧
     c.len ≤ 64 * { c with next := 2 }.next ∧ ((cards [c]).clusters.all fun x => x.intake.isEmpty) = true) ∧
    ([GuardState.pending, .isTrue, .isFalse].all fun st => decide (((guarding st 1 (cards [{ job .ready with guard := some 5 }])).core 0).guards.getD 5 {} = { state := st, wg := 1 })) = true ∧
    (let c := job .suspended
     let q : PageRequest := { event := { event3 with card := some 9 }, wg := 1, gidx := 0, pages := [0xC0000000], entries := [2] }
     let s := (cards [c]).updCore 0 fun k => { k with pages := [q] }
     s.cores[0]? = some (s.core 0) ∧ (s.core 0).serving = none ∧ (s.core 0).frozenPosted = false ∧ (s.core 0).pages = [q] ∧ q.event.card = some c.seq ∧ q.entries = [2] ∧ q.refused = false) ∧
    ([1, 2, 3].all fun n => { base with mem := base.mem.writeNat (0x68000000000 + 0x1000 + 64 * 2 + 16) 8 n }.mem.readNat (0x68000000000 + 0x1000 + 64 * 2 + 16) 8 == n) = true ∧
    base.partyCards 0 = none ∧
    (let same := turning
     let odd := turning 1024
     let cs := fun (s : State) => (s.partyCards 0).getD []
     (cs same).length = 4 ∧ (cs same).all (fun x => decide (x.2.kind = .rotate 0)) = true ∧ (cs same).Pairwise (fun x y => x.2.wg ≠ y.2.wg) ∧ (cs same).all (fun x => rotLen x.2.src == 512) = true ∧
     (cs same).all (fun x => decide (x.2.stat + 8 ≤ tileDst x.2.src ∨ tileDst x.2.src + 512 ≤ x.2.stat)) = true ∧
     (cs odd).length = 4 ∧ ((cs odd).map fun x => rotLen x.2.src) = [512, 512, 512, 1024] ∧ (cs odd).all (fun x => (odd.core x.1).cards.all fun y => y.edges.isEmpty) = true) := by decide +kernel

def booted (st : W64 := 5) (s : State := base) : State := { s with ctl := { State.reset.ctl with bootstat := st } }

theorem witness_HostRequests :
    base.wheels = [] ∧ base.hostBusy = false ∧ base.hostLines = [] ∧ base.hostCopies = [] ∧ base.rrMode = 0 ∧ (base.fabric.any fun r => r.posted && r.host) = false ∧ (8 : Nat) ≠ 0 ∧ (0 : Nat) / 4096 = (0 + 8 - 1) / 4096 ∧
    4 ≤ ((booted).ctl.bootstat.extractLsb' 0 4).toNat ∧ ((booted 3).ctl.bootstat.extractLsb' 0 4).toNat < 4 ∧ 0x3FFFF8 + 8 ≤ 2 ^ 22 ∧ 0x3FFFF8 / 4096 = (0x3FFFF8 + 8 - 1) / 4096 ∧
    (0x14000000000 < (booted).ctl.hbmwin.toNat + 0x14000000000 + 8 ∧ 0x14000000000 + 8 ≤ 2 ^ 41) ∧ (booted).ctl.hbmwin.toNat + 0x13FFFFFFFF8 + 8 ≤ 0x14000000000 ∧ (3 : Nat) % 8 ≠ 0 := by decide +kernel

theorem witness_ControlRegisterEvents :
    (0x40000000 - 4 < 2 ^ 30 ∧ (0x804 : Nat) % 8 ≠ 0 ∧ (5 : W64).toNat % 16 ≠ 0 ∧ (base.fabric.any fun r => r.posted && r.host) = false) ∧
    (base.dies[3]? = some Die.fresh ∧ Die.fresh.caveWin.length = 16 ∧ base.wheels = []) ∧
    (let s := { base with launches := [waiting 0 [4, 5], { waiting 0 [] with handle := 8, parent := 7 }, { waiting 0 [] with handle := 9, complete := true }] }
     s.g.launch = 0 ∧ ((s.launchOf 7).any fun l => !l.complete) = true ∧ ((s.launchOf 8).any fun l => !l.complete && l.parent == 7) = true ∧ (s.launchOf 9).all (fun l => l.complete) = true ∧ s.launchOf 11 = none) ∧
    base.ctl.dbgctl.getLsbD 0 = false ∧ { base with ctl := { base.ctl with dbgctl := 1 } }.ctl.dbgctl.getLsbD 0 = true ∧ (7 : W32) ≠ 0 := by decide +kernel

def gate (moved : Nat) (handle : Nat := 0) : State :=
  { base with tstamp := 2000000, ctl := { base.ctl with rrctl := BitVec.ofNat 64 (2 + handle * 2 ^ 32) },
              dies := List.replicate 4 { Die.fresh with recLines := [{ waiting := some { core := 0, slot := 0, path := 0, pc := 0x1000, mask := 1 }, moved := moved }] } }

theorem witness_ReplayAndSamplingEvents :
    (let s := gate 0
     let w : GateWait := { core := 0, slot := 0, path := 0, pc := 0x1000, mask := 1 }
     let r : RecLine := { waiting := some w }
     base.hostCopies = [] ∧ s.dies[1]? = some { Die.fresh with recLines := [r] } ∧ (0 : Nat) + 1000000 ≤ s.tstamp.toNat ∧ s.rrMode = 2 ∧ r.opened = false ∧ ((s.groupAt 0 0).any fun g => g.launch == s.rrHandle) = true ∧
     (gate 1500000).tstamp.toNat < 1500000 + 1000000 ∧ ({ } : RecLine).waiting = none) ∧
    (let on := { base with ctl := { base.ctl with smpctl := BitVec.ofNat 64 (1 + 2 * 8), smpsz := 4096 } }
     let interval := (on.ctl.smpctl.extractLsb' 1 5).toNat
     on.cores[0]? = some (on.core 0) ∧ on.ctl.smpctl.getLsbD 0 = true ∧ interval = 8 ∧ (on.core 0).smpDue ≤ on.clock ∧ (on.core 0).smpPos + 32 ≤ on.ctl.smpsz.toNat ∧ on.sampled 0 = some on.g ∧
     base.ctl.smpctl.getLsbD 0 = false) := by decide +kernel

theorem witness_FirmwareEvents :
    base.ctl.fwstat.getLsbD 2 = false ∧ (1 : W64).getLsbD 0 = true ∧ { base.ctl with fwstat := 4 }.fwstat.getLsbD 2 = true ∧ base.ctl.attctl.getLsbD 1 = false ∧
    { base.ctl with attctl := 2 }.attctl.getLsbD 1 = true ∧ { base.ctl with nonceCopy := List.replicate 32 0 }.nonceCopy.length = 32 := by decide +kernel

theorem witness_PowerAndBootEvents :
    base.dies.length = 4 ∧ (base.fabric.any fun r => r.posted && r.host) = false ∧
    ((booted 0x1001).ctl.bootstat.getLsbD 12 = true ∧ (booted 1).ctl.joined = false ∧ ((List.range 6).all fun k => ((booted (BitVec.ofNat 64 k)).ctl.bootstat.extractLsb' 0 4).toNat == k) = true) ∧
    Memory.wf base.mem = true ∧ 0 < base.cores.length ∧ base.groups ≠ [] ∧ State.reset.groupAt 0 0 = none ∧ State.reset.groups ≠ [] := by decide +kernel

/-! ### Witnesses: the machine as a whole -/

theorem witness_StepRunsDecoded :
    (let s := { base with agenda := [.issue 0 0 false] }
     s.settled.agenda = [.issue 0 0 false] ∧ (let u := ({ s.settled with agenda := [] }).onPath 0 0 false
       let t := { s.settled with agenda := [] }
       t.givesWay 0 0 false = false ∧ u.g.at_ 0 0 = true ∧ u.mayIssue u.g false = true ∧ u.g.stopAsked = false ∧ u.cur.readyAt ≤ u.clock ∧ isOk u.fetch = true ∧
       isTrap (slot (fun c => { c with pc := 0xC0000000 }) u).fetch = true ∧ u.onPath 0 9 false = u ∧ u.g.at_ 0 9 = false)) ∧
    (let t := slot fun c => { c with readyAt := 9000 }
     t.clock < t.cur.readyAt ∧ isHint 0x34600422 = false ∧ isHint 0x00421064 = true) ∧
    (let s := beside [{ grp with slot := 4, wg := 1 }] (slot fun c => { c with giveWay := 9000 })
     s.givesWay 0 0 false = true) ∧
    (let u := upd (fun g => { g with slot := 64 }) { base with resident := true }
     u.g.at_ 0 64 = true ∧ u.resident = true ∧ u.mayIssue u.g false = true) ∧
    (let s := { upd (fun g => { g with stopAsked := true }) with agenda := [.issue 0 0 false] }
     (({ s.settled with agenda := [] }).onPath 0 0 false).g.stopAsked = true ∧ (({ s.settled with agenda := [] }).onPath 0 0 false).g.at_ 0 0 = true) ∧
    (let s := { base with agenda := [.event .pwrctlActive] }
     s.settled.agenda = [.event .pwrctlActive] ∧ Instr.pwrctlActive.isWord = false) ∧
    base.settled.agenda = [] ∧ (base.check base.who .fetch false 4 0xC0000000).row = 3 ∧ passes base .fetch false 4 base.cur.pc = true ∧
    base.defer = false ∧ base.icached 0 0x40001000 = false ∧ base.moduleFailed 0x40001000 = false ∧ base.poisonedLine (0x40001000 / 128 * 128) 128 = none ∧
    0x40001000 % 4 = 0 ∧ moduleOf 0x40001000 = base.module ∧ base.wheelAt (wheelOf 0x40001000) = none ∧ base.hostCopies = [] ∧
    ({ base with failed := [1] } : State).moduleFailed (2 ^ 43 + 0x40001000) = true ∧ ({ base with poison := [{ line := 0x40001040 }] } : State).poisonedLine 0x40001000 128 = some 0x40001040 ∧
    ((base.fillLine 0 0x40001000).core 0).icache.find? (fun i => i.pa == 0x40001000) ≠ none := by decide +kernel

theorem witness_DecodeEncode : (Instr.vsub 3 { sel := 0, reg := 1 } { sel := 0, reg := 2 }).isWord = true ∧ (Instr.vsub 3 { sel := 0, reg := 1 } { sel := 0, reg := 2 }).wellFormed = true := by decide

theorem witness_MemoryStaysCanonical : ∃ t, Memory.wf State.reset.mem = true ∧ step State.reset = .next t := ⟨_, by decide, rfl⟩

/-! ### Single steps: results that the manual works out, or worked by hand from its rules -/

/-- What a reading of the next state gives, when there is one. -/
def after {α : Type} (i : Instr) (s : State) (f : State → α) : Option α :=
  match exec i s with
  | .next t => some (f t)
  | _ => none
/-- The module with some uniform registers and vector registers set. -/
def given (ss : List (Nat × W64)) (vs : List (Nat × List W32) := []) (s : State := base) : State :=
  upd (fun g => { g with s := ss.foldl (fun r x => r.set x.1 x.2) g.s, v := vs.foldl (fun r x => r.set x.1 x.2) g.v }) s
def uniformAfter (i : Instr) (n : Nat) (s : State) : Option W64 := after i s fun t => t.g.readS n
def laneAfter (i : Instr) (n l : Nat) (s : State) : Option W32 := after i s fun t => t.g.lane n l
def pcAfter (i : Instr) (s : State) : Option W64 := after i s fun t => t.cur.pc
/-- The cause and the address of the event that a trap hands to the trap context: CODE and xaddr. -/
def trapAfter (i : Instr) (s : State) : Option (Nat × W64) := after i s fun t => (((t.core 0).xcause.extractLsb' 0 6).toNat, (t.core 0).xaddr)
def src (r : Nat) : VSrc := { sel := 0, reg := r }
def all (x : W32) : List W32 := List.replicate 32 x

/-- Chapter 14, the example of `sbfx`. -/
theorem test_sbfx : uniformAfter (.sbfx 40 24 25 false) 40 (given [(24, 0xABCD1234), (25, 0x0810)]) = some 0xCD ∧
    uniformAfter (.sbfx 40 24 25 false) 40 (given [(24, 0xABCD1234), (25, 0x0808)]) = some 0x12 := by decide +kernel
/-- Chapter 14, the example of `sbfi.32`. -/
theorem test_sbfi : uniformAfter (.sbfi 40 24 25 true) 40 (given [(24, 0xFF), (25, 0x0810), (40, 0x12345678)]) = some 0x12FF5678 ∧
    uniformAfter (.sbfi 40 24 25 true) 40 (given [(24, 0xFF), (25, 0x0410), (40, 0x12345678)]) = some 0x123F5678 := by decide +kernel
/-- R270: sums wrap modulo 2^64, by hand. -/
theorem test_sadd_wraps : uniformAfter (.sadd 40 24 25 false) 40 (given [(24, 0xFFFFFFFFFFFFFFFF), (25, 2)]) = some 1 := by decide +kernel
theorem test_smulh : uniformAfter (.smulh 40 24 25 false) 40 (given [(24, 0xFFFFFFFFFFFFFFFF), (25, 5)]) = some 0xFFFFFFFFFFFFFFFF ∧
    uniformAfter (.smulhu 40 24 25 false) 40 (given [(24, 0xFFFFFFFFFFFFFFFF), (25, 5)]) = some 4 := by decide +kernel
/-- s0 reads as zero and discards what is written to it. -/
theorem test_s0 : uniformAfter (.saddi 0 1 4) 0 base = some 0 := by decide +kernel
/-- Chapter 12: `hint.imm #0x48D15` and imm10 0x278 give 0x12345678. -/
theorem test_hint_imm : (after (.hintImm 0x48D15) base fun t => laneAfter (.vmovi 40 0x278) 40 3 t) = some (some 0x12345678) := by decide +kernel
/-- Chapter 14: `sli s5, #-4`. -/
theorem test_sli : uniformAfter (.sli 40 0xFFFFC) 40 base = some 0xFFFFFFFFFFFFFFFC := by decide +kernel
theorem test_sshi_sra : uniformAfter (.sshi 40 24 false 2 7) 40 (given [(24, 0xFFFFFFFFFFFFFF00)]) = some 0xFFFFFFFFFFFFFFFE := by decide +kernel
/-- R278: products, carries, clamps and byte products. -/
theorem test_vmad : laneAfter (.vmad 6 (src 4) (src 5)) 6 9 (given [] [(4, all 0x10000), (5, all 0x10001), (6, all 7)]) = some 0x10007 := by decide +kernel
theorem test_vaddc : laneAfter (.vaddc 6 (src 4) (src 5)) 6 0 (given [] [(4, all 0xFFFFFFFF), (5, all 1)]) = some 1 := by decide +kernel
theorem test_vadd_sat : laneAfter (.vadd 6 (src 4) (src 5)) 6 0 (modded { sat := true } (given [] [(4, all 0x7FFFFFFF), (5, all 1)])) = some 0x7FFFFFFF := by decide +kernel
theorem test_vabsd : laneAfter (.vabsd 6 (src 4) (src 5)) 6 0 (given [] [(4, all 0x7FFFFFFF), (5, all 0x80000000)]) = some 0xFFFFFFFF := by decide +kernel
theorem test_vdot4 : laneAfter (.vdot4 6 (src 4) (src 5)) 6 0 (given [] [(4, all 0xFF010203), (5, all 0x02030405), (6, all 10)]) = some 34 ∧
    laneAfter (.vdot4u 6 (src 4) (src 5)) 6 0 (given [] [(4, all 0xFF010203), (5, all 0x02030405), (6, all 10)]) = some 546 := by decide +kernel
/-- A lane outside the mask keeps its value, and is cleared under `.z`. -/
theorem test_mask : laneAfter (.vmov 6 (src 4)) 6 1 (masked 1 (given [] [(4, all 5), (6, all 7)])) = some 7 ∧
    laneAfter (.vmov 6 (src 4)) 6 1 (modded { zero := true } (masked 1 (given [] [(4, all 5), (6, all 7)]))) = some 0 := by decide +kernel
/-- A destination that is also a source gives its old value: lanes are read before any is written (R276). -/
theorem test_vperm_self : laneAfter (.vperm 4 (src 4) (src 5)) 4 1 (given [] [(4, (List.range 32).map fun l => BitVec.ofNat 32 (l + 10)), (5, (List.range 32).map fun l => BitVec.ofNat 32 (31 - l))]) =
    some 40 := by decide +kernel
theorem test_vscanx : laneAfter (.vscanx 6 (src 4) 0) 6 5 (masked 0x3B (given [] [(4, all 3)])) = some 12 := by decide +kernel
theorem test_vcompact : laneAfter (.vcompact 6 (src 4)) 6 4 (masked 0x30 (given [] [(4, (List.range 32).map fun l => BitVec.ofNat 32 l), (6, all 9)])) = some 9 ∧
    laneAfter (.vexpand 6 (src 4)) 6 5 (masked 0x30 (given [] [(4, (List.range 32).map fun l => BitVec.ofNat 32 (l + 50))])) = some 51 := by decide +kernel
/-- Chapter 15, the example of `vprune` and `vbmap`. -/
def weights : List W32 :=
  [0x3F800000, 0x40000000, 0x40400000, 0x40800000, 0x40A00000, 0x40C00000, 0x40E00000, 0x41000000, 0x41100000, 0x41200000, 0x41300000, 0x41400000, 0x415F8000, 0x41600000, 0x41700000, 0x41800000]
    ++ List.replicate 16 0
def gradients : List W32 := (((all 0x3F800000).set 3 0).set 7 0xC0000000).set 10 0x3E800000
theorem test_vprune : (after (.vprune 6 (src 4) (src 5)) (exted 1 24 (given [(24, 4)] [(4, weights), (5, gradients)]))
    fun t => (lanesOf (BitVec.allOnes 32)).filter fun l => t.g.lane 6 l != 0) = some [7, 12, 14, 15] := by decide +kernel
theorem test_vbmap : laneAfter (.vbmap 6 (src 4) (src 5)) 6 0
    (given [] [(4, (List.range 32).map fun l => if l ∈ [7, 12, 14, 15] then 0x3F800000 else 0), (5, all 0)]) = some 0xD080 := by decide +kernel
/-- Chapter 15, the example of `vcvt.e4m3.f32`; chapter 2, its worked conversions. -/
theorem test_vcvt : laneAfter (.vcvt 6 (src 4) false 2) 6 0 (given [] [(4, all 0x43960000)]) = some 0x79 := by decide +kernel
theorem test_round_e4m3 : (roundFmt (decodeFmt 0x43EB0000 fp32) e4m3 0, roundFmt (decodeFmt 0x43EB0000 fp32) { e4m3 with sat := true } 0, roundFmt (decodeFmt 0x43EB0000 fp32) e4m3 1,
    roundFmt (decodeFmt 0x43E80000 fp32) e4m3 0) = (0x7F, 0x7E, 0x7E, 0x7E) := by decide +kernel
theorem test_round_bf16 : (roundFmt (decodeFmt 0x3F808000 fp32) bf16 0, roundFmt (decodeFmt 0x3F808000 fp32) bf16 2, roundFmt (decodeFmt 0x33000000 fp32) fp16 0, roundFmt (decodeFmt 0x33000000 fp32) fp16 2,
    roundFmt (decodeFmt 0x47700000 fp32) e5m2 0) = (0x3F80, 0x3F81, 0, 1, 0x7C) := by decide +kernel
/-- Chapter 15, the example of `vqblk`, and its values back. -/
def blockValues : List W32 := [0x41400000, 0xC0400000, 0x3FC00000, 0x3F000000, 0x3E99999A] ++ List.replicate 27 0
theorem test_vqblk : (after (.vqblk 6 (src 4)) (exted 1 24 (given [(24, 5)] [(4, blockValues)])) fun t => [0, 1, 2, 16, 17].map fun l => t.g.lane 6 l) =
    some [0x000113B7, 0, 0, 0x0000FE80, 0x0000FF7F] := by decide +kernel
theorem test_vdqblk : (after (.vdqblk 6 (src 4)) (exted 1 24 (given [(24, 5)] [(4, ((all 0).set 0 0x000113B7).set 16 0xFE80)])) fun t => [0, 1, 2, 3, 16].map fun l => t.g.lane 6 l) =
    some [0x41400000, 0xC0400000, 0x3FC00000, 0x3F000000, 0] := by decide +kernel
/-- R282: one rounding in `vfma` (2^24 · 1 + 1 ties to the even 2^24), and chapter 6's tie. -/
theorem test_vfma_ties : laneAfter (.vfma 6 (src 4) (src 5)) 6 0 (given [] [(4, all 0x4B800000), (5, all 0x3F800000), (6, all 0x3F800000)]) = some 0x4B800000 := by decide +kernel
/-- R283: `vfrint` of −0.3 under RNE is −0. -/
theorem test_vfrint : laneAfter (.vfrint 6 (src 4)) 6 0 (given [] [(4, all 0xBE99999A)]) = some 0x80000000 := by decide +kernel
theorem test_vfredmax_empty : uniformAfter (.vfredmax 40 (src 4)) 40 (masked 0 base) = some 0xFF800000 := by decide +kernel

/-- R256: a branch is counted from the instruction's own address, in words; the offset of `bs` is signed. -/
theorem test_branches : pcAfter (.br 4) base = some 0x1010 ∧ pcAfter (.bs 4 2 0xFFFD) (given [(4, 0)]) = some 0x1004 ∧ pcAfter (.bs 4 2 0xFFFD) (given [(4, 0xFFFFFFFFFFFFFFFF)]) = some 0xFF4 := by decide +kernel
/-- `rfe` of user code raises IIN (CODE 1): the trap context runs at the vector base + 64 · CODE. -/
theorem test_undecodable_traps : (after (.rfe) (user) fun t => ((t.groupAt 0 64).map fun g => g.a.pc)) = some (some 0x8040) := by decide +kernel
theorem test_tx_illegal : (trapAfter (.tbegVal 0 0) inTx).map (fun x => x.1) = some codeTx := by decide +kernel

/-- R296 to R302: four bytes in little-endian order, loaded with zero or sign extension by the form; a misaligned address traps with it. -/
theorem test_store_load : (after (.sst 24 1 3 0 8) (given [(24, 0x1122334455667788)]) fun t => (t.mem.readBytes 0x40002008 8, uniformAfter (.sld 40 1 2 0 8) 40 t)) =
    some ([0x88, 0x77, 0x66, 0x55, 0x44, 0x33, 0x22, 0x11], some 0x55667788) := by decide +kernel
theorem test_load_misaligned : trapAfter (.sld 40 7 3 0 0) base = some (codeMisalign, 0x2001) := by decide +kernel
/-- R305: lanes of one `vred` are performed in ascending order, and the word is their sum. -/
theorem test_vred_add : (after (.vred 4 5 1 0 0) (given [] [(4, all 3), (5, all 16)]) fun t => t.mem.readNat 0x40002010 4) = some 96 := by decide +kernel
/-- R114 to R118, chapter 6: units 1, 2 and 7 of the example merge to 3.0, 5 stays, and the word at 8 is replaced; the merged read gives the example's words. -/
def vatUnits : List (List VatEntry) :=
  let e := fun (o op f d : Nat) => [({ data := BitVec.ofNat 32 d, off := o, op := op, fmt := f } : VatEntry)]
  [e 0 1 2 0x3F800000, e 0 1 2 0x3F800000, e 4 3 1 0xFFFFFFFD, e 8 0 0 0x40400000, e 8 1 2 0x3F000000, e 8 0 0 0x41200000, e 0 1 2 0x3F800000]
theorem test_vat_compaction : (vatUnits.foldl appendUnit []).map (fun e => (e.data, e.off, e.op, e.fmt)) =
    [(0x40400000, 0, 1, 2), (0xFFFFFFFD, 4, 3, 1), (0x41200000, 8, 0, 0)] := by decide +kernel
theorem test_vat_press : (let m := (vatUnits.foldl appendUnit []).foldl (applyEntry 0) (((Cells.writeNat [] 0 4 0x4B800000).writeNat 4 4 5).writeNat 8 4 0x3F800000)
    [m.readNat 0 4, m.readNat 4 4, m.readNat 8 4]) = [0x4B800002, 5, 0x41200000] := by decide +kernel
/-- Chapter 1, the example of source numbers: core 17 of die 0 on module 3. -/
theorem test_source_number : { base with module := 3 }.coreSource 17 = 6161 := by decide +kernel
/-- R325, chapter 17's example: 2.0 times 1.0 where a row's element meets a weight, and +0 where none does. -/
theorem test_step_of_products :
    (let one := decodeFmt 0x38 e4m3
     let two := decodeFmt 0x40 e4m3
     let row := fun (ks : List Nat) => (List.range 32).map fun k => if k ∈ ks then some two else none
     let col := fun (k : Nat) => (List.range 32).map fun j => if j = k then some one else none
     let t := accumulate [] 4 [row (List.range 16), row [20], row [3]] [col 0, col 3]
     (List.range 3).map fun m => [tileRead t (tileIndex 4 m 0), tileRead t (tileIndex 4 m 1)]) = [[0x40000000, 0x40000000], [0, 0], [0, 0x40000000]] := by decide +kernel
/-- A program's first instruction after reset, put there by the loader: `saddi s5, s0, #7`. -/
theorem test_step_after_reset :
    (match step (State.reset.withFetchWord 32 0x20500007) with
     | .next t => some (t.g.readS 5, t.cur.pc)
     | _ => none) = some (7, 0x1004) := by decide +kernel
/-- Chapter 1, the two events of one nanosecond: slice 5 of C2 and core 17 of C0, both on module 3. -/
theorem test_event_order : (let s : State := { base with module := 3 }
    (s.sourceNumber 2 (.slice 5), s.sourceNumber 0 (.core 17), decide (eventKey 9 (s.sourceNumber 0 (.core 17)) < eventKey 9 (s.sourceNumber 2 (.slice 5))))) = (7205, 6161, true) := by decide +kernel
/-- R9: the four paths between diagonal dies. -/
theorem test_die_paths : [diePath 0 3, diePath 3 0, diePath 1 2, diePath 2 1, diePath 0 1, diePath 3 1] = [[1, 3], [2, 0], [0, 2], [3, 1], [1], [1]] := by decide +kernel
/-- R82 and R83, the worked address 0x52_0063_4568 of module 5. -/
theorem test_hbm_place : (homeDie 0x285200634568, homeSlice 0x285200634568, hbmStack 0x5200634568, hbmChannel 0x5200634568, hbmPos 0x5200634568) =
    (2, 11, 11, 144, 0x5200 * 2048 + 0x568) := by decide +kernel
/-- R73, the word load of the worked buffer takes one pass. -/
theorem test_bank_cycles : bankCycles ((List.range 32).map fun l => 0x1000 + (0x5C0 + 4 * l) % 0x600) = 1 := by decide +kernel
/-- R127: a merged read of a wheel whose vat has an error poisons what the entries could touch; a plain load then finds it. -/
theorem test_vat_error : (after (.mergedRead 0x2000 8) { base with wheels := [{ wheel := 0x2000, state := .vatted, bad := [0x2040] }] } fun t =>
    (t.poison.map fun x => x.line, t.wheels.map fun w => w.bad)) = some ([0x2040], [[]]) := by decide +kernel
/-! ### Witnesses: further clauses -/

/-- Lanes 5 and 7 in transactions, lane 5 alone active. -/
def inTxTwo (d : W64 := 0) : State := upd (fun g => { g with txst := g.txst.set 7 1, tx := g.tx.set 7 (g.laneTx 5) }) (inTx 1 d)

theorem witness_TrapsAreDelivered_lanes :
    ([inTxTwo, inTxTwo 9].all fun s => decide (s.g.slot < 64 ∧ s.g.txIn s.exm &&& s.g.openLanes ≠ 0 ∧ laneOn s.g.openLanes 7 = true ∧ laneOn s.exm 7 = false ∧
      s.g.txst.length = 32 ∧ s.g.tx.length = 32 ∧ s.g.core < s.cores.length ∧ (s.core 0).serving = none ∧ (s.core 0).events = [] ∧ (s.core 0).frozenPosted = false ∧ s.defer = false)) = true ∧
    inTxTwo.laneValid (inTxTwo.g.laneTx 5) = true ∧ (inTxTwo 9).laneValid ((inTxTwo 9).g.laneTx 5) = false ∧ 1 ≤ (inTxTwo 9).g.freeEntries ∧
    (inTxTwo.prepareLane (inTxTwo.g.laneTx 5)).g = inTxTwo.g := by decide +kernel

/-- `ending` with the stopped group in a launch, and another of its groups. -/
def endingLaunch (a : Nat) : State :=
  { ending a with groups := [{ grp with slot := 3, status := .stopped, launch := 7 }, { grp with slot := 4, launch := 7, gidx := 1 }], launches := [partyLaunch] }

theorem witness_ReturnFromTrap_actions :
    ([1, 2].all fun a => let s := endingLaunch a
      decide (s.g.slot = 64 ∧ Form.runs { sup := true } s = true ∧ (s.core 0).events = [] ∧ (s.allGroups.all fun h => !h.save.any SaveEntry.sorting) = true ∧
        ((s.core 0).xcause.extractLsb' 18 6).toNat = 3 ∧ ((s.core 0).xcause.extractLsb' 30 2).toNat = a ∧ (s.groups.find? (Group.at_ 0 3)).map (fun g => (g.launch, g.status)) = some (7, .stopped) ∧
        s.launchOf 7 = some partyLaunch)) = true ∧
    partyLaunch.complete = false ∧ partyLaunch.killed = false ∧ partyLaunch.faulted = false ∧ ((ending 3).core 0).served = none := by decide +kernel

/-- The link records of every lane at depth 1, to n different places. -/
def linked (n : Nat) : State :=
  let s := slot fun c => { c with depth := 1, cover := [(3, true), (2, false)] }
  (List.range 32).foldl (fun s l => s.chipWrite (.slice (s.position l)) (s.extent (.slice 0) - 16) (linkRecord (0x1000 + 8 * BitVec.ofNat 64 (l % n)) 0)) s

theorem witness_Splits_returns :
    let paths := fun (s : State) =>
      let links := (lanesOf s.exm).map fun l => (l, s.linkOf l)
      (dedup (links.map fun x => x.2)).map fun k => ({ pc := k.1, mask := maskOf ((links.filter fun x => x.2 == k).map fun x => x.1), depth := 0, tag := k.2 } : Path)
    let crowded := full (upd (fun g => { g with b := { g.b with live := true } }) (linked 3))
    ([linked 1, linked 2, crowded].all fun s => decide (s.cur.live = true ∧ Form.runs {} s = true ∧ s.cur.depth = 1 ∧ s.exm ≠ 0 ∧ 16 ≤ s.extent (.slice 0) ∧ s.bad = [])) = true ∧
    ((paths (linked 1)).length, (paths (linked 2)).length, (paths crowded).length) = (1, 2, 3) ∧ ((linked 1).g.placePaths 0 (paths (linked 1))).isSome = true ∧
    ((linked 2).g.placePaths 0 (paths (linked 2))).isSome = true ∧ crowded.g.placePaths 0 (paths crowded) = none := by decide +kernel

theorem witness_GlobalLoads_formats :
    let runs := fun (s : State) => { mvForm true 4 0 1 2 1 with sub := true : Form }.runs s
    let none_ := fun (s : State) => upd (fun g => { g with fmt := List.replicate 8 0 }) s
    ([1, 2, 3, 4, 5, 6].all fun k => let s := modded { sub := k }
      decide (s.cur.hints.mods.sub = k ∧ runs s = true ∧ s.calm = true ∧ (k < 5 ∨ descValid (s.g.fmtReg (k - 3)) = true ∧ (s.g.fmtReg (k - 3)).getLsbD 14 = false ∧ (s.g.fmtReg (k - 3)).extractLsb' 1 3 ≠ 0#3))) = true ∧
    ([5, 6].all fun k => let s := none_ (modded { sub := k })
      decide (runs s = true ∧ 5 ≤ s.cur.hints.mods.sub ∧ descValid (s.g.fmtReg (k - 3)) = false)) = true ∧
    (lanesOf base.exm).all (fun l => passes base .load false 4 (0x2000 + BitVec.ofNat 64 (4 * l)) && routeAt base .load false 4 (0x2000 + BitVec.ofNat 64 (4 * l)) == .plain) = true ∧
    routeAt base .load false 4 0x40000100 = .window := by decide +kernel

/-- R46: the chain of tables of the witnesses, by level. -/
def chain (n : Nat) : Nat := if n = 4 then 0x1000 else if n = 3 then 0x2000 else if n = 2 then 0x3000 else 0x4000
/-- The tables with one more entry of level 2. -/
def tabled (e : Nat) : State := { base with mem := base.mem.writeNat 0x3030 8 e }

theorem witness_AccessChecks_walks :
    let entry := fun (s : State) (va n : Nat) => BitVec.ofNat 64 (s.mem.readNat (chain n + 8 * (va / 2 ^ (12 + 9 * n) % 512)) 8)
    let good := fun (s : State) (va n : Nat) => let e : W64 := entry s va n
      decide (e.getLsbD 0 = true ∧ e.getLsbD 1 = false ∧ e.extractLsb' 2 10 = 0#10 ∧ e.extractLsb' 52 12 = 0#12 ∧ (e.extractLsb' 12 40).toNat * 4096 = chain (n - 1))
    base.tlbs = [] ∧ base.walkCache = [] ∧ base.wheels = [] ∧ chain 4 = base.g.root ∧ base.g.root / 2 ^ 43 = base.module ∧
    ([0x2000, 0xC0000000, 0x180000000].all fun va => good (tabled 0x40000082) va 4 && good (tabled 0x40000082) va 3) = true ∧
    ((entry base 0x2000 2).getLsbD 0, (entry base 0x2000 2).getLsbD 1, (entry base 0xC0000000 2).getLsbD 0, (entry (tabled (0x40000000 + 11)) 0x180000000 2).getLsbD 3) = (true, true, false, true) ∧
    base.translate 0 0 base.g.root .load 0x2000 = .leaf { pte := entry base 0x2000 2, level := 2 } ∧ base.translate 0 0 base.g.root .load 0xC0000000 = .absent ∧
    (tabled (0x40000000 + 11)).translate 0 0 base.g.root .load 0x180000000 = .bad ∧ base.translate 0 0 (2 ^ 43) .load 0x2000 = .bad := by decide +kernel

theorem witness_AccessChecks_rows :
    let f : BitVec 128 := BitVec.ofNat 128 (0x180002000 + 3 * 2 ^ 64 + 2 ^ 110 + 2 ^ 111 + 2 ^ 115)
    let s := { tabled (0x40000000 + 0x23F) with dies := base.dies.map fun (d : Die) => { d with filters := [f] } }
    let row := fun (s : State) k sup va => (s.check { s.who with sup := sup } k false 4 va).row
    ((leafAt s .store false 4 0x180002000).pte.getLsbD 9, s.who.watched, s.who.wskip) = (true, true, false) ∧
    (row s .load true 0x180002000, row s .store true 0x180002000, row s .load true 0x180002004) = (6, 7, 7) ∧
    (row base .load false 0x140000000, row base .atomic false 0x140000000, row (tabled (0x40000000 + 11)) .load true 0x180000000) = (5, 5, 4) ∧
    (row (tabled (0x40000000 + 0x27)) .reduction true 0x180000000, row (tabled (0x40000000 + 0x27)) .atomic true 0x180000000) = (5, 5) := by decide +kernel

/-- Lanes of an atomic at an absent page: the reduced check fails. -/
theorem witness_GlobalAtomics_fails :
    ([Kind.reduction, .atomic].all fun k => isTrap (base.checkLanes base.who k false 4 ((lanesOf base.exm).map fun l => (l, base.g.readS 5 + (base.g.lane 1 l).signExtend 64)))) = true ∧
    isTrap (base.checkLanes base.who .atomic false 16 [(0, base.g.readS 7)]) = true := by decide +kernel

theorem witness_CacheAndWheelForms_ranges :
    let s := fun (va n : W64) => upd fun g => { g with s := (g.s.set 24 va).set 25 n }
    let parts := fun (va : W64) (n : Nat) => (pageParts va n).map fun x => (x.1.toNat, x.2)
    parts 0x1FFF0 0x10020 = [(0x1FFF0, 16), (0x20000, 0x10000), (0x30000, 16)] ∧ parts 0x13FFFFFF0 32 = [(0x13FFFFFF0, 16), (0x140000000, 16)] ∧
    ({ srcs := [rs 24, rs 25], noTx := true : Form }.runs (s 0x1FFF0 0x10020) = true ∧ (s 0x1FFF0 0x10020).calm = true ∧ (user (s 0x13FFFFFF0 32)).calm = true) ∧
    ((leafAt base .load false 1 0x1FFF0).pte.getLsbD 5 = true ∧ base.translate 0 0 base.g.root .load 0x1FFF0 = .leaf (leafAt base .load false 1 0x1FFF0)) ∧
    base.translate 0 0 base.g.root .load 0x13FFFFFF0 = .leaf (leafAt base .load false 1 0x13FFFFFF0) ∧ (leafAt base .load false 1 0x13FFFFFF0).pte.getLsbD 5 = true ∧ base.translate 0 0 base.g.root .load 0x140000000 = .leaf (leafAt base .load false 1 0x140000000) ∧
    (leafAt base .load false 1 0x140000000).pte.getLsbD 5 = false ∧
    routeAt base .load false 1 0x20040 = .plain ∧ Memory.wf base.mem = true := by decide +kernel

theorem witness_WaitsAndGuards_bounds :
    let s := upd (fun g => { g with matFailed := some 5 }) deferred
    let t := upd (fun g => { g with matWait := [(false, 5)] }) s
    (s.cluster 0).resv = [] ∧ (t.g.matWait.find? fun x => x.1 == t.g.inB) = some (false, 5) := by decide +kernel

/-- A memory tile of 2 rows of 5 elements at 16, every 64 bytes, its planes at 192. -/
def memTile (fmt : Nat) (space : Nat := 0) : BitVec 128 := BitVec.ofNat 128 (space * 2 ^ 124 + fmt * 2 ^ 119 + 2 ^ 108 + 4 * 2 ^ 99 + 16 * 2 ^ 77 + 64 * 2 ^ 57 + 192 * 2 ^ 15)
theorem witness_TilesAndRequests_passes :
    let s := { matrix [] with clusters := [{ Cluster.fresh with tiles := [(tileIndex 1 0 0, 5), (tileIndex 1 1 4, 7)] }] }
    let r := fun (fn fmt : Nat) (db : W32) => { matReq fn with tb := memTile fmt, db := db }
    s.defer = false ∧ (s.wgAt 1).isSome = true ∧ ((s.wgAt 1).bind s.instOf).isSome = true ∧ ((s.cluster 0).tiles.map fun x => x.1).Pairwise (· < ·) ∧
    ([(0 : Nat), 1].all fun sp => let d : Desc := memTile 1 sp
      decide (d.space = sp ∧ d.vecs = 2 ∧ d.len = 5 ∧ d.base = 16 ∧ d.stride = 64 ∧ d.aux = 192 ∧ Memory.wf (s.matCells 1 sp) = true)) = true ∧
    ((r 27 1 0).fb.bs, (r 27 16 0x53B9).fb.bs, (r 27 16 0xC095).fb.me) = (false, true, true) ∧ rowBytes (r 27 16 0x53B9).fb 16 * Desc.blocks (memTile 16) ≤ 64 := by decide +kernel

theorem witness_MemorySystemEvents_premises :
    (base.cluster (clusterOf 0)).xbar = [] ∧ base.fabric.any (FabReq.awaits (base.identAt 0 0)) = false ∧ Memory.wf (vatted .pressing).mem = true ∧ Memory.wf base.mem = true ∧
    ((posted false).ident = base.g.ident ∧ base.identAt 0 0 = base.g.ident) ∧
    (let s : State := { base with fabric := [posted false] }
     (s.fabric.takeWhile fun x => x.id != 1) = [] ∧ (s.fabric.all fun x => x.sent) = true) := by decide +kernel

theorem witness_FabricAndErrorEvents_requests :
    let w := 0x68000000100
    let lines := [line0 + 64, line0 + 128]
    base.bad = [] ∧ base.route 0 w = .window ∧ base.wheelAt (w / 2048 * 2048) = none ∧ moduleOf w = base.module ∧ (7 : Nat) ∉ base.failed ∧ 7 ∈ ({ base with failed := [7] } : State).failed ∧
    (base.route 0 line0 = .plain ∧ (base.wheelAt line0).isNone = true) ∧ (base.route 128 line0 = .vat ∧ (vatted .vatted).route 0 line0 = .vat ∧ ((vatted .vatted).wheelAt line0).all (fun w => w.bad.isEmpty) = true) ∧
    ((line0 + 100) / 256 = (line0 + 100 + 60 - 1) / 256 ∧ linesOf (line0 + 100) 60 = lines ∧ base.owed = [] ∧ base.defer = false) ∧
    (base.die (homeDie line0)).wheelDir = [] ∧ ([64, 256, 2048].map fun n => if n ≤ 64 then 64 else if n ≤ 256 then 256 else 2048) = [64, 256, 2048] := by decide +kernel

theorem witness_FabricAndErrorEvents_errors :
    let l1At := 2 ^ 54 + 64 * 0x800
    let l2At := 2 ^ 55 + 64 * 13
    (errAt l1At = .l1 0 false 128 0 ∧ errAt l2At = .l2 0 0 0 13 ∧ errLine (l1At + 5) = l1At ∧ (base.die 0).canRetire l1At = true ∧ (base.die 0).canRetire l2At = true) ∧
    (let c := copy 0 .full
     let s : State := { base with l1 := [{ c with line := 64 * 128 }] }
     (s.l1.filter fun y => y.core == 0 && l1Set y.line == 128)[0]? = some { c with line := 64 * 128 } ∧ s.dirOf (64 * 128) = none) ∧
    (let full : Die := { retired := (List.range 8).map fun k => (2 ^ 52 + 64 * k, true) }
     full.canRetire (2 ^ 52 + 1024) = false ∧ full.retired.elem (2 ^ 52 + 1024, true) = false ∧
     (full.retired.filter fun x => x.2 && decide (2 ^ 52 ≤ x.1 ∧ x.1 < 2 ^ 52 + 2 ^ 23)).length = 8) ∧
    (base.module < 512 ∧ base.dies.length = 4 ∧ (base.fabric.any fun r => r.posted && r.host) = false ∧ 0x940000 ≤ 0x941008 ∧ 0x941008 < 0x2000000) ∧
    (([(.cave, 0x68000000000)] : List (BadStore × Nat)).all fun x => (base.bad.all fun b => b.store != x.1) && decide (x.2 + 8 ≤ 0x68000941008)) = true ∧
    (vatted .vatted).wheels.length = 1 ∧ homeDie line0 < 4 := by decide +kernel

def event0 : TrapEvent := { slot := 3, inB := false, code := 0, pc := 0x1040 }
/-- The group of slot 3 asked to stop, with its one path parked. -/
def parkedStop : State := eventful [] fun g => { g with status := .running, stopAsked := true, a := { g.a with live := false }, b := { g.b with live := false }, save := [parked .mwait] }

theorem witness_TrapContextEvents_asked :
    (([GroupStatus.running, .held].all fun st =>
      let s := eventful [event0] fun g => { g with status := st }
      decide ((s.core 0).serving = none ∧ (s.core 0).events = [event0] ∧ event0.card = none ∧ (s.groupAt 0 3).map (fun g => g.status) = some st ∧ (s.core 0).frozenPosted = false)) = true) ∧
    ((parkedStop.groupAt 0 3).any fun g => decide (g.status = .running ∧ g.saveAsked = false ∧ g.stopAsked = true ∧ g.a.live = false ∧ g.b.live = false ∧ g.inflight = [] ∧ g.commits = [])) = true ∧
    ((parkedStop.core 0).serving, (parkedStop.core 0).events, (parkedStop.core 0).frozenPosted) = (none, [], false) ∧
    ((eventful [event3] fun g => { g with status := .stopped }).groupAt 0 3).any (fun g => decide (g.status ≠ .running ∧ g.status ≠ .held)) = true ∧
    ({ base with failed := [3] } : State).failed.elem ((3 * 2 ^ 11 : Nat) / 2 ^ 11 % 2 ^ 9) = true ∧ base.failed.elem 3 = false := by decide +kernel

theorem witness_TransactionEvents_fallback :
    let s : State := { base with fallbackWait := [(0, 0, 5), (0, 0, 3), (1, 2, 0)] }
    s.fallback = none ∧ s.fallbackWait.head? = some (0, 0, 5) ∧ (0, 0, 3) ∈ s.fallbackWait ∧ (s.fallbackWait.all fun x => x.1 != 0 || x.2.1 != 0 || decide (3 ≤ x.2.2)) = true ∧
    s.fallbackWait.head? ≠ some (1, 2, 0) := by decide +kernel

theorem witness_DistributorEvents_reports :
    (let l := { waiting 0 [4, 5, 6] with passed := [some (8, 100), some (8, 100), none, none] }
     let late := fun (die : Nat) => (l.passed.getD die none).any fun m => l.holds die m.1 && decide (m.2 ≤ (launching l).clock)
     [0, 1, 2, 3].map late = [true, false, false, false] ∧ (launching l).clock < 9000) ∧
    (let s : State := { launching (waiting 0 [4, 5, 6]) with reports := [(1, 0, 5), (1, 0, 6), (2, 0, 7)] }
     let oldest := fun src => s.reports.find? fun r => r.1 == src && r.2.1 == 0
     oldest 1 = some (1, 0, 5) ∧ oldest 2 = some (2, 0, 7) ∧ oldest 1 ≠ some (1, 0, 6) ∧ s.dies.length = 4 ∧ s.dies.all (fun d => d.counts.length == 4) = true ∧
     (s.die 0).reportedAt + 1880 ≤ s.clock ∧ s.clock < ({ s.die 0 with reportedAt := 4000 } : Die).reportedAt + 1880) ∧
    (let busy : State := { leaving with modAcks := [(1, 0x40002000)] }
     let g := { halted with launch := 7, wg := 2, status := .draining }
     leaving.quiet = true ∧ busy.quiet = false ∧ busy.drained g = true ∧ (leaving.allGroups.filter fun x => x.ident == g.ident).length = 1) := by decide +kernel

theorem witness_EngineEvents_turns :
    let s : State := turning
    let cs := (s.partyCards 0).getD []
    let at_ := fun (n : Nat) => { s with cores := s.cores.map fun (k : Core) => { k with cards := k.cards.map fun (c : Card) => { c with next := n } } : State }
    (s.wgs.all fun w => Memory.wf w.cells) = true ∧ s.bad = [] ∧ (cs.map fun x => 512 * x.2.next) = [0, 0, 0, 0] ∧
    (cs.all fun x => decide (x.1 < s.cores.length ∧ s.cardOf x.1 x.2.seq = some x.2)) = true ∧ (cs.map fun x => x.1).Nodup ∧
    (((at_ 1).partyCards 0).getD []).map (fun x => decide (rotLen x.2.src ≤ 512 * x.2.next)) = [true, true, true, true] := by decide +kernel

theorem witness_ControlRegisterEvents_writes :
    (let s : State := { base with hostLines := [line0] }
     base.hostBusy = false ∧ base.hostLines = [] ∧ base.afterPosted.ctl = base.ctl ∧ s.hostLines ≠ []) ∧
    ((0x804 : Nat) % 4 = 0 ∧ (0x800 : Nat) % 8 = 0 ∧ ([0x810, 0x1000, 0x3008, 0x3028, 0x3038, 0x4010, 0x4040, 0x4100] : List Nat).elem 0x800 = false) ∧
    (2 ^ 30 ≤ (0x6C000000808 : Nat) ∧ 0x6C000000000 ≤ localOf 0x6C000000808 ∧ localOf 0x6C000000808 < 0x6C040000000 ∧ 2 ^ 30 ≤ (0x50000000 : Nat) ∧ localOf 0x50000000 < 0x6C000000000) ∧
    ({ base with fabric := [{ posted true with ident := hostIdent }] } : State).fabric.any (fun r => r.posted && r.host) = true := by decide +kernel

/-- A launch, its child and its grandchild. -/
def family : State :=
  { base with launches := [waiting 0 [4, 5], { waiting 0 [] with handle := 8, parent := 7 }, { waiting 0 [3] with handle := 9, parent := 8 }] }
theorem witness_ControlRegisterEvents_kills :
    let childOf := fun (k a : Nat) => (family.launchOf k).any fun l => l.parent == a
    ([7, 8, 9].all fun k => (family.launchOf k).any fun l => !l.complete) = true ∧ (childOf 8 7, childOf 9 8) = (true, true) ∧ (family.launchOf 11).isNone = true ∧
    (let s : State := { family with groups := [trapContext 0, { grp with slot := 3, launch := 7 }] }
     (s.allGroups.any fun g => g.launch == 7 && g.slot != 64) = true) := by decide +kernel

def recEntry (line : Nat) (flags : Nat) : BitVec 128 := BitVec.ofNat 128 (line + flags * 2 ^ 64)
/-- One enabled recorded line on die 0, cached in two L1s, and one that is not enabled. -/
def recorded : State :=
  { base with dies := base.dies.mapIdx fun i d => if i = 0 then { d with hashNum := 2, recLines := [{ entry := recEntry line0 3, pos := 5, used := 1, opened := true }, { entry := recEntry (line0 + 64) 0, pos := 7 }] } else d
              dir := [{ line := line0, state := .modified 0 }], l1 := [copy 0 .full 3, copy 2 .bf16] }
theorem witness_ReplayAndSamplingEvents_logs :
    recorded.hostCopies = [] ∧ Memory.wf recorded.mem = true ∧ (recorded.die 0).hashNum = 2 ∧
    ((recorded.die 0).recLines.map fun r => (r.entry.getLsbD 64, r.entry.getLsbD 65, (r.entry.extractLsb' 6 46).toNat * 64)) = [(true, true, line0), (false, false, line0 + 64)] ∧
    (recorded.dirOf line0).isSome = true ∧ (recorded.l1Of 0 line0).isSome = true ∧ (recorded.l1Of 2 line0).isSome = true := by decide +kernel

theorem witness_ReplayAndSamplingEvents_samples :
    let on := fun (s : State) => { s with ctl := { s.ctl with smpctl := BitVec.ofNat 64 (1 + 2 * 8), smpsz := 4096, smpbuf := 0x40002000 }, clusters := List.replicate 32 Cluster.fresh }
    let due := fun (s : State) => decide ((s.ctl.smpctl.extractLsb' 1 5).toNat = 8 ∧ (s.core 0).smpDue ≤ s.clock ∧ (s.core 0).smpPos + 32 ≤ s.ctl.smpsz.toNat ∧ s.ctl.smpctl.getLsbD 0 = true)
    let paths := fun (h : Group) => h.a.live || h.b.live || !h.save.isEmpty
    let two := on (beside [halted])
    let none_ := on (upd fun g => { g with a := {} })
    let vat := deferred (on (vatted .vatted))
    (due two && due none_ && due vat) = true ∧ two.hostCopies = [] ∧ two.stores = [] ∧
    ((two.core 0).smpLast, (two.groupAt 0 1).isNone, (two.groupAt 0 2).isNone, (two.groupAt 0 3).any paths) = (63, true, true, true) ∧
    ((List.range 64).all fun i => (none_.groupAt 0 i).all fun h => !paths h) = true ∧ ((List.range 32).all fun i => two.route 0 (0x40002000 + i) != .vat) = true ∧
    (vat.route 0 0x40002000 = .vat ∧ 0x40002000 % 64 ≤ 32 ∧ vat.defer = true ∧ owningCluster (wheelOf 0x40002000) < vat.clusters.length) := by decide +kernel

theorem witness_PowerAndBootEvents_lines :
    (ownedBy 0).heldLines = [line0] ∧ base.heldLines = [] ∧ Memory.wf (ownedBy 0).mem = true ∧
    (booted 1).minSvn = 0 ∧ (booted 3).minSvn = 0 := by decide +kernel
/-- An image whose version is below the least that is allowed, whatever its version is. -/
theorem witness_PowerAndBootEvents_versions :
    (∃ n, let s : State := { booted 1 with minSvn := n }
      s.minSvn ≠ 0 ∧ ¬s.minSvn ≤ s.svnOf false) ∧
    (∃ n, let s : State := { booted 3 with minSvn := n }
      s.minSvn ≠ 0 ∧ ¬s.minSvn ≤ s.svnOf true) :=
  ⟨⟨(booted 1).svnOf false + 1, Nat.succ_ne_zero _, Nat.not_succ_le_self _⟩, ⟨(booted 3).svnOf true + 1, Nat.succ_ne_zero _, Nat.not_succ_le_self _⟩⟩

theorem witness_StepRunsDecoded_retained :
    let s : State := { booted with ctl := { State.reset.ctl with pwrstat := 2 }, agenda := [.event (.engineJobStart 0)] }
    s.settled.agenda = [.event (.engineJobStart 0)] ∧ s.settled.retained = true ∧ Instr.onCore (.engineJobStart 0) = true ∧ (Instr.engineJobStart 0).isWord = false := by decide +kernel

end Sys2Proof.Tests
end

section
/-!
What reset leaves (Table 09-6, R380 and the rules of each unit). Cores, clusters and dies are copies of one fresh record each, and so are
their banks of registers, so a read in range gives the copied value.
-/
namespace Sys2Proof.Machine
open Sys2Proof

/-- In range, a bank of copies of one value reads as that value, whatever stands for a read beyond it. -/
theorem getD_replicate_of_lt {α : Type} {n i : Nat} (h : i < n) (x d : α) : (List.replicate n x).getD i d = x := by
  rw [List.getD_eq_getElem?_getD, List.getElem?_replicate_of_lt h, Option.getD_some]

/-! ### The records of the state after reset -/

theorem State.reset_core {c : Nat} (h : c < 128) : State.reset.core c = Core.fresh := getD_replicate_of_lt h _ _

theorem State.reset_cluster {c : Nat} (h : c < 32) : State.reset.cluster c = Cluster.fresh := getD_replicate_of_lt h _ _

theorem State.reset_die {d : Nat} (h : d < 4) : State.reset.die d = Die.fresh := getD_replicate_of_lt h _ _

/-- A handle may name every accumulator tile (R345, Table 09-6). -/
theorem State.reset_tilemask {c : Nat} (h : c < 32) : State.reset.ctl.tilemask.getD c 0 = 0xFFFFFFFF := getD_replicate_of_lt h _ _

/-! ### The banks of a fresh record -/

theorem Die.fresh_clock {k : Nat} (h : k < 32) : Die.fresh.clocks.getD k 1 = 0 := getD_replicate_of_lt h _ _

theorem Die.fresh_caveWin {k : Nat} (h : k < 16) : Die.fresh.caveWin.getD k 1 = 0 := getD_replicate_of_lt h _ _

/-- Every guard slot is free (R223). -/
theorem Core.fresh_guards_free : (Core.fresh.guards.all fun x => decide (x.state = .free)) = true :=
  List.all_eq_true.2 fun x hx => by
    have hdefault : x = {} := List.eq_of_mem_replicate hx
    simp [hdefault]

/-! ### The obligation -/

/-- Settles O59: the lists and control registers are the literals of `State.reset`; clusters, dies and cores are fresh records. -/
theorem resetState : Obligations.ResetState := by
  unfold Obligations.ResetState
  refine ⟨?lists, ?control, fun c hc => ?cluster, fun d hd => ?die, fun c hc => ?core⟩
  case lists =>
    have hmem : Memory.wf State.reset.mem = true := by rw [State.reset_mem, Memory.wf_nil]
    exact ⟨rfl, rfl, rfl, rfl, rfl, rfl, rfl, rfl, rfl, rfl, rfl, rfl, rfl, hmem⟩
  case control => exact ⟨rfl, rfl, rfl, rfl, rfl, rfl, rfl, rfl, rfl, rfl, rfl, rfl, rfl, rfl, rfl⟩
  case cluster =>
    rw [State.reset_cluster hc]
    exact ⟨State.reset_tilemask hc, rfl, rfl, rfl, rfl⟩
  case die =>
    rw [State.reset_die hd]
    exact ⟨fun _ => Die.fresh_clock, fun _ => Die.fresh_caveWin, rfl, rfl, rfl⟩
  case core =>
    rw [State.reset_core hc]
    exact ⟨rfl, rfl, rfl, rfl, Core.fresh_guards_free⟩

end Sys2Proof.Machine
end

section
/-!
The checks of a global access (Table 03-7, R46 to R49, R58, R301, R374): what each check says of the bits of an address, an entry or a filter, the walk
level by level, and the traps of loads and stores with a lane that fails.
-/
namespace Sys2Proof.Machine
open Sys2Proof

/-! ### Fields of words -/

theorem field_eq_toNat_extractLsb' {n : Nat} (x : BitVec n) (lo len : Nat) : field x lo len = (x.extractLsb' lo len).toNat := by
  simp [field, natField, BitVec.extractLsb'_toNat, Nat.shiftRight_eq_div_pow]

theorem field_eq_iff {n : Nat} (x : BitVec n) (lo len v : Nat) (hv : v < 2 ^ len) : field x lo len = v ↔ x.extractLsb' lo len = BitVec.ofNat len v := by
  rw [field_eq_toNat_extractLsb', ← BitVec.toNat_inj, BitVec.toNat_ofNat, Nat.mod_eq_of_lt hv]

/-- R42: an address is canonical when its top eight bits are equal. -/
theorem canonical_iff (va : W64) : canonical va = true ↔ va.extractLsb' 56 8 = 0#8 ∨ va.extractLsb' 56 8 = 0xFF#8 := by
  have hbit : va.getLsbD 56 = decide (va.toNat / 2 ^ 56 % 2 = 1) := by
    rw [← BitVec.testBit_toNat, Nat.testBit_eq_decide_div_mod_eq]
  rw [← BitVec.toNat_inj, ← BitVec.toNat_inj, ← field_eq_toNat_extractLsb']
  simp only [canonical, hbit, field, natField, beq_iff_eq, BitVec.toNat_ofNat]
  have := va.isLt
  by_cases h : va.toNat / 2 ^ 56 % 2 = 1 <;> simp only [h, decide_true, decide_false, if_true, Bool.false_eq_true, if_false] <;> omega

theorem sext64_toNat (x : W32) : sext64 x.toNat 32 = x.signExtend 64 := by
  have hint : sextInt x.toNat 32 = x.toInt := by
    have := x.isLt
    rw [sextInt, BitVec.toInt_eq_toNat_cond, Nat.mod_eq_of_lt this, Int.emod_eq_of_lt (by omega) (by omega)]
    split <;> split <;> omega
  rw [sext64, hint, BitVec.signExtend]

/-! ### Checks 5 and 6 (Table 03-7, R301, R374) -/

/-- R301 and Tables 03-3 and 03-7: what the bits of a leaf permit. -/
theorem permitted_iff (w : Who) (k : Kind) (scalar : Bool) (size : Nat) (e : W64) :
    permitted w k scalar size e = true ↔
      (k = .load ∨ k = .atomic → e.getLsbD 2 = true) ∧ (k = .store ∨ k = .reduction ∨ k = .atomic → e.getLsbD 3 = true) ∧
      (k = .fetch → e.getLsbD 4 = true) ∧ (w.sup = false → e.getLsbD 5 = true) ∧
      (e.extractLsb' 52 2 = 1#2 → scalar = true ∧ w.sup = true ∧ (size = 4 ∨ size = 8)) := by
  have hmt : pteMt e = 1 ↔ e.extractLsb' 52 2 = 1#2 := field_eq_iff e 52 2 1 (by decide)
  have hsup : (w.sup || pteBit e 5) = true ↔ (w.sup = false → e.getLsbD 5 = true) := by
    cases w.sup <;> simp [pteBit]
  have hplace : (pteMt e != 1 || (scalar && w.sup && (size == 4 || size == 8))) = true ↔
      (e.extractLsb' 52 2 = 1#2 → scalar = true ∧ w.sup = true ∧ (size = 4 ∨ size = 8)) := by
    rw [← hmt]
    by_cases h : pteMt e = 1 <;> simp [h, and_assoc]
  unfold permitted
  rw [Bool.and_eq_true, Bool.and_eq_true, hsup, hplace]
  cases k <;> simp [pteBit, and_assoc]

/-- R374, Table 20-3: when a filter matches. -/
theorem filterHits_iff (x : BitVec 128) (asid : Nat) (k : Kind) (va size : Nat) :
    filterHits x asid k va size = true ↔
      x.getLsbD 110 = true ∧ (x.getLsbD 115 = true ∨ (x.extractLsb' 116 12).toNat = asid) ∧
      x.getLsbD (if k = .load then 111 else if k = .store then 112 else if k = .fetch then 114 else 113) = true ∧
      (x.extractLsb' 0 57).toNat < va + size ∧ va < (x.extractLsb' 0 57).toNat + (x.extractLsb' 64 25).toNat + 1 := by
  simp only [filterHits, field_eq_toNat_extractLsb', Bool.and_eq_true, Bool.or_eq_true, beq_iff_eq, decide_eq_true_eq, and_assoc, ← Nat.add_assoc]
  cases k <;> rfl

theorem watchHit_iff (s : State) (w : Who) (k : Kind) (va : W64) (size : Nat) (e : W64) :
    s.watchHit w k va size e = true ↔
      e.getLsbD 9 = true ∧ w.watched = true ∧ w.wskip = false ∧
        ∃ x ∈ (s.die (w.core / 32)).filters, filterHits x w.asid k (va.extractLsb' 0 57).toNat size = true := by
  simp [State.watchHit, pteBit, dieOf, and_assoc, BitVec.extractLsb'_toNat]

/-! ### The rows of Table 03-7 -/

section
variable {s : State} {w : Who} {k : Kind} {scalar : Bool} {size : Nat} {va : W64}

theorem State.check_misaligned (h : va.toNat % size ≠ 0) : s.check w k scalar size va = .fails 1 := by
  rw [State.check, if_pos (by simpa using h)]

theorem State.check_noncanonical (ha : va.toNat % size = 0) (hc : ¬canonical va = true) : s.check w k scalar size va = .fails 2 := by
  rw [State.check, if_neg (by simpa using ha), if_pos (by simpa using hc)]

theorem State.check_absent (ha : va.toNat % size = 0) (hc : canonical va = true) (ht : s.translate w.core w.asid w.root k va = .absent) :
    s.check w k scalar size va = .fails 3 := by
  rw [State.check, if_neg (by simpa using ha), if_neg (by simpa using hc), ht]

theorem State.check_bad (ha : va.toNat % size = 0) (hc : canonical va = true) (ht : s.translate w.core w.asid w.root k va = .bad) :
    s.check w k scalar size va = .fails 4 := by
  rw [State.check, if_neg (by simpa using ha), if_neg (by simpa using hc), ht]

/-- Checks 5 and 6 of a lane whose address translates. -/
theorem State.check_leaf {f : Leaf} (ha : va.toNat % size = 0) (hc : canonical va = true) (ht : s.translate w.core w.asid w.root k va = .leaf f) :
    s.check w k scalar size va =
      if permitted w k scalar size f.pte = true then (if s.watchHit w k va size f.pte = true then .fails 6 else .passes f) else .fails 5 := by
  rw [State.check, if_neg (by simpa using ha), if_neg (by simpa using hc), ht]
  cases h : permitted w k scalar size f.pte <;> simp [h]

theorem State.check_fails_lt {r : Nat} (h : s.check w k scalar size va = .fails r) : r < 7 := by
  unfold State.check at h
  repeat' split at h
  all_goals cases h
  all_goals decide

/-- A lane passes exactly when no row of Table 03-7 stops it. -/
theorem Checked.row_check_eq_seven :
    (s.check w k scalar size va).row = 7 ↔ ∃ f, s.check w k scalar size va = .passes f := by
  cases h : s.check w k scalar size va with
  | fails r => simp [Checked.row, Nat.ne_of_lt (State.check_fails_lt h)]
  | passes f => simp [Checked.row]

end

/-! ### The lanes' checks reduced to one outcome (R58) -/

theorem State.awaitWalks_of_not_defer {s : State} (h : s.defer = false) (core asid root : Nat) (k : Kind) (vas : List W64) (why : Stall) :
    s.awaitWalks core asid root k vas why = .ok () := by
  simp [State.awaitWalks, State.awaitWalksOf, h]

/-- The earliest row that any of the lanes reaches, 7 where every lane passes. -/
def State.worstRow (s : State) (w : Who) (k : Kind) (scalar : Bool) (size : Nat) (ls : List (Nat × W64)) : Nat :=
  (ls.map fun x => (s.check w k scalar size x.2).row).foldl min 7

theorem State.worstRow_eq_of_min? {s : State} {w : Who} {k : Kind} {scalar : Bool} {size m : Nat} {ls : List (Nat × W64)}
    (h : (ls.map fun x => (s.check w k scalar size x.2).row).min? = some m) (hm : m < 7) : s.worstRow w k scalar size ls = m := by
  rw [State.worstRow, List.foldl_min, h, Option.getD_some, Nat.min_eq_right (Nat.le_of_lt hm)]

theorem State.worstRow_eq_seven {s : State} {w : Who} {k : Kind} {scalar : Bool} {size : Nat} {ls : List (Nat × W64)}
    (h : ∀ x ∈ ls, (s.check w k scalar size x.2).row = 7) : s.worstRow w k scalar size ls = 7 := by
  rw [State.worstRow, List.map_congr_left h, List.foldl_min]
  cases hm : (ls.map fun _ => 7).min? with
  | none => rfl
  | some m =>
    obtain ⟨_, -, rfl⟩ := List.mem_map.1 (List.min?_eq_some_iff.1 hm).1
    rfl

/-- The place that a lane's access has, if it passes the checks. -/
def State.placedOf (s : State) (w : Who) (k : Kind) (scalar : Bool) (size : Nat) (x : Nat × W64) : Option Placed :=
  match s.check w k scalar size x.2 with
  | .passes f => some { lane := x.1, va := x.2, pa := f.pa x.2, leaf := f }
  | .fails _ => none

/-- The trap of the lanes that fail at a row, the earliest that any lane reached. -/
def State.rowTrap (s : State) (w : Who) (k : Kind) (scalar : Bool) (size : Nat) (ls : List (Nat × W64)) (m : Nat) : Trap :=
  let bad := ls.filter fun x => (s.check w k scalar size x.2).row == m
  { code := rowCode m, addr := (bad.head?.map fun x => x.2).getD 0, mask := some (maskOf (bad.map fun x => x.1)), info := k.info,
    vas := bad.map fun x => x.2 }

/-- Without deferred steps, the lanes' checks give every lane's place, or the trap of the earliest row. -/
theorem State.checkLanes_eq {s : State} (hd : s.defer = false) (w : Who) (k : Kind) (scalar : Bool) (size : Nat) (ls : List (Nat × W64)) :
    s.checkLanes w k scalar size ls = if s.worstRow w k scalar size ls = 7 then .ok (ls.filterMap (s.placedOf w k scalar size))
      else .error (.trap (s.rowTrap w k scalar size ls (s.worstRow w k scalar size ls))) := by
  have hworst : (ls.map fun x => (x.1, x.2, s.check w k scalar size x.2)).foldl (fun m r => min m r.2.2.row) 7 = s.worstRow w k scalar size ls := by
    simp [State.worstRow, List.foldl_map]
  unfold State.checkLanes State.rowTrap
  rw [State.awaitWalks_of_not_defer hd]
  simp only [bind, Except.bind, ite_self, hworst, List.filterMap_map, List.filter_map, List.map_map, List.head?_map, Option.map_map]
  rfl

/-- Where every lane passes, each has its place, in order. -/
theorem State.filterMap_placedOf {s : State} {w : Who} {k : Kind} {scalar : Bool} {size : Nat} {ls : List (Nat × W64)}
    (h : ∀ x ∈ ls, (s.check w k scalar size x.2).row = 7) : (ls.filterMap (s.placedOf w k scalar size)).map (fun p => (p.lane, p.va)) = ls := by
  induction ls with
  | nil => rfl
  | cons x xs ih =>
    obtain ⟨f, hf⟩ := Checked.row_check_eq_seven.1 (h x List.mem_cons_self)
    have hx : s.placedOf w k scalar size x = some { lane := x.1, va := x.2, pa := f.pa x.2, leaf := f } := by rw [State.placedOf, hf]
    rw [List.filterMap_cons_some hx, List.map_cons, ih fun y hy => h y (List.mem_cons_of_mem x hy)]

/-! ### Entries of page tables (R45, R46, R48, Tables 03-1 to 03-5) -/

theorem placeOf_eq_hbm_iff (l : Nat) : placeOf l = .hbm ↔ l < 0x14000000000 := by
  unfold placeOf
  repeat' split
  all_goals simp only [reduceCtorEq, true_iff, false_iff]
  all_goals omega

theorem placeOf_eq_window_iff (l d : Nat) :
    placeOf l = .window d ↔ 0x68000000000 ≤ l ∧ l < 0x68008000000 ∧ l % 0x2000000 < 0x100000 ∧ (l - 0x68000000000) / 0x2000000 = d := by
  unfold placeOf
  repeat' split
  all_goals simp only [reduceCtorEq, Place.window.injEq, false_iff]
  all_goals omega

theorem placeOf_eq_cave_iff (l d : Nat) :
    placeOf l = .cave d ↔ 0x68000000000 ≤ l ∧ l < 0x68008000000 ∧ 0x100000 ≤ l % 0x2000000 ∧ (l - 0x68000000000) / 0x2000000 = d := by
  unfold placeOf
  repeat' split
  all_goals simp only [reduceCtorEq, Place.cave.injEq, false_iff]
  all_goals omega

theorem placeOf_eq_control_iff (l : Nat) : placeOf l = .control ↔ 0x6C000000000 ≤ l ∧ l < 0x6C040000000 := by
  unfold placeOf
  repeat' split
  all_goals simp only [reduceCtorEq, true_iff, false_iff]
  all_goals omega

theorem placeOf_eq_host_iff (l : Nat) : placeOf l = .host ↔ 0x70000000000 ≤ l := by
  unfold placeOf
  repeat' split
  all_goals simp only [reduceCtorEq, true_iff, false_iff]
  all_goals omega

theorem placeOf_eq_reserved_iff (l : Nat) : placeOf l = .reserved ↔
    (0x14000000000 ≤ l ∧ l < 0x68000000000) ∨ (0x68008000000 ≤ l ∧ l < 0x6C000000000) ∨ (0x6C040000000 ≤ l ∧ l < 0x70000000000) := by
  unfold placeOf
  repeat' split
  all_goals simp only [reduceCtorEq, true_iff, false_iff]
  all_goals omega

/-- A table lies in the HBM of its module (R46). -/
def InHbm (modId pa : Nat) : Prop := pa / 2 ^ 43 = modId ∧ pa % 2 ^ 43 < 0x14000000000

theorem inHbm_iff (modId pa : Nat) : (moduleOf pa == modId && decide (placeOf (localOf pa) = .hbm)) = true ↔ InHbm modId pa := by
  simp [InHbm, moduleOf, localOf, placeOf_eq_hbm_iff]

/-- The physical address in an entry. -/
def entryPa (e : W64) : Nat := (e.extractLsb' 12 40).toNat * 4096

theorem ptePa_eq (e : W64) : ptePa e = entryPa e := by rw [ptePa, entryPa, field_eq_toNat_extractLsb']

/-- A leaf's page lies in one place that its bits allow (Tables 03-1 and 03-5, R45). -/
def WellPlaced (modId : Nat) (e : W64) (size : Nat) : Prop :=
  let l := entryPa e % 2 ^ 43
  let cave := (l - 0x68000000000) / 0x2000000 * 0x2000000 + 0x68000000000
  let mt := (e.extractLsb' 52 2).toNat
  let none_ := fun ks => ∀ b ∈ (ks : List Nat), e.getLsbD b = false
  (l + size ≤ 0x14000000000 ∧ mt ≠ 1 ∧ none_ [10]) ∨
  (0x68000000000 ≤ l ∧ l < 0x68008000000 ∧ l + size ≤ (if e.getLsbD 5 = true then cave + 0x100000 else cave + 0x2000000) ∧ mt ≠ 1 ∧ none_ [4, 7, 10]) ∨
  (0x6C000000000 ≤ l ∧ l + size ≤ 0x6C040000000 ∧ mt = 1 ∧ none_ [4, 5, 7, 10]) ∨
  (0x70000000000 ≤ l ∧ entryPa e / 2 ^ 43 = modId ∧ mt ≠ 1 ∧ none_ [4, 7])

theorem leafPlaced_iff (modId : Nat) (e : W64) {size : Nat} (h : 0 < size) : leafPlaced modId e size = true ↔ WellPlaced modId e size := by
  have hl := Nat.mod_lt (entryPa e) (show 0 < 2 ^ 43 by decide)
  unfold leafPlaced WellPlaced
  simp only [ptePa_eq, pteMt, field_eq_toNat_extractLsb', localOf, moduleOf, pteBit]
  generalize entryPa e % 2 ^ 43 = l at *
  generalize (e.extractLsb' 52 2).toNat = mt
  cases hp : placeOf l with
  | hbm =>
    have := (placeOf_eq_hbm_iff l).1 hp
    simp only [placeOf_eq_hbm_iff]
    grind
  | window d =>
    have := (placeOf_eq_window_iff l d).1 hp
    simp only [placeOf_eq_window_iff]
    grind
  | cave d =>
    have := (placeOf_eq_cave_iff l d).1 hp
    simp only [placeOf_eq_cave_iff]
    grind
  | control =>
    have := (placeOf_eq_control_iff l).1 hp
    simp only [placeOf_eq_control_iff]
    grind
  | host =>
    have := (placeOf_eq_host_iff l).1 hp
    simp only [placeOf_eq_host_iff]
    grind
  | reserved =>
    have := (placeOf_eq_reserved_iff l).1 hp
    grind

/-- The size of a leaf's page at a level (Table 03-2). -/
theorem pageSize_eq (n : Nat) : pageSize n = if n = 0 then 0x10000 else if n = 1 then 0x200000 else 0x40000000 := by
  unfold pageSize
  split <;> simp_all

theorem pageSize_pos (n : Nat) : 0 < pageSize n := by
  unfold pageSize
  split <;> decide

/-- A valid entry at a level is malformed (R48). -/
def EntryBad (modId n : Nat) (e : W64) : Prop :=
  let leaf := e.getLsbD 1 = true
  let size := if n = 0 then 0x10000 else if n = 1 then 0x200000 else 0x40000000
  e.extractLsb' 54 10 ≠ 0#10 ∨ 2 ≤ (e.extractLsb' 52 2).toNat ∨ (leaf ∧ 3 ≤ n) ∨ (¬leaf ∧ n = 0) ∨
    (¬leaf ∧ (e.extractLsb' 2 10 ≠ 0#10 ∨ e.extractLsb' 52 12 ≠ 0#12 ∨ ¬InHbm modId (entryPa e))) ∨
    (leaf ∧ (entryPa e % size ≠ 0 ∨ (e.getLsbD 3 = true ∧ e.getLsbD 2 = false) ∨ ¬WellPlaced modId e size))

theorem malformed_iff (modId : Nat) (e : W64) (n : Nat) : malformed modId e n = true ↔ EntryBad modId n e := by
  have hzero : ∀ lo len, field e lo len = 0 ↔ e.extractLsb' lo len = 0#len := fun lo len => field_eq_iff e lo len 0 (Nat.two_pow_pos len)
  have hplaced := leafPlaced_iff modId e (pageSize_pos n)
  have hin := inHbm_iff modId (entryPa e)
  unfold malformed EntryBad
  rw [← pageSize_eq]
  simp only [← hplaced, ← hin, ptePa_eq, pteMt, field_eq_toNat_extractLsb' e 52 2, pteBit, bne_iff_ne, Bool.or_eq_true, Bool.and_eq_true, Bool.not_eq_true', hzero, ne_eq]
  grind

/-! ### Walks (R46, R53, R57) -/

/-- The index of an address at a level (Table 03-2). -/
theorem levelIndex_eq {a n : Nat} (h : n ≤ 4) : levelIndex a n = if n = 0 then a / 2 ^ 16 % 32 else a / 2 ^ (12 + 9 * n) % 512 := by
  obtain rfl | rfl | rfl | rfl | rfl : n = 0 ∨ n = 1 ∨ n = 2 ∨ n = 3 ∨ n = 4 := by omega
  all_goals rfl

/-- The entry of a table at a level for an address, as memory holds it. -/
def State.entryAt (s : State) (table a n : Nat) : W64 :=
  BitVec.ofNat 64 (s.mem.readNat (table + 8 * (if n = 0 then a / 2 ^ 16 % 32 else a / 2 ^ (12 + 9 * n) % 512)) 8)

theorem State.tableEntry_of_no_wheels {s : State} (h : s.wheels = []) (pa : Nat) : s.tableEntry pa = BitVec.ofNat 64 (s.mem.readNat pa 8) := by
  simp [State.tableEntry, State.mergedRead, State.wheelAt, h, Cells.readNat]

/-- One level of a walk that no cache answers and no wheel changes. -/
theorem State.walkFrom_succ {s : State} (hc : s.walkCache = []) (hw : s.wheels = []) {n : Nat} (hn : n ≤ 4) (die asid a table : Nat) :
    s.walkFrom die asid a (n + 1) table =
      if (s.entryAt table a n).getLsbD 0 = false then .absent
      else if malformed s.module (s.entryAt table a n) n = true then .bad
      else if (s.entryAt table a n).getLsbD 1 = true then .leaf { pte := s.entryAt table a n, level := n }
      else s.walkFrom die asid a n (ptePa (s.entryAt table a n)) := by
  rw [State.walkFrom, hc, State.entryAt, ← levelIndex_eq hn, ← State.tableEntry_of_no_wheels hw]
  simp [pteBit]

/-- The entry of a chain of tables at a level is a valid pointer to the next table. -/
def State.PointsOn (s : State) (table : Nat → Nat) (a n : Nat) : Prop :=
  let e := s.entryAt (table n) a n
  e.getLsbD 0 = true ∧ ¬EntryBad s.module n e ∧ ¬e.getLsbD 1 = true ∧ table (n - 1) = entryPa e

/-- A walk comes down from one level to another when every entry between them points on. -/
theorem State.walkFrom_down {s : State} (hc : s.walkCache = []) (hw : s.wheels = []) {lv top : Nat} {table : Nat → Nat} {a : Nat} (die asid : Nat)
    (hlv : lv ≤ top) (htop : top ≤ 4) (hpoints : ∀ n, lv < n → n ≤ 4 → s.PointsOn table a n) :
    s.walkFrom die asid a (top + 1) (table top) = s.walkFrom die asid a (lv + 1) (table lv) := by
  induction hlv with
  | refl => rfl
  | @step n hn ih =>
    obtain ⟨hvalid, hgood, hpointer, hnext⟩ := hpoints (n + 1) (Nat.lt_succ_of_le hn) htop
    rw [← ih (Nat.le_of_succ_le htop), State.walkFrom_succ hc hw htop, if_neg (ne_false_of_eq_true hvalid), if_neg (mt (malformed_iff ..).1 hgood),
      if_neg hpointer, ptePa_eq, ← hnext, Nat.add_sub_cancel]

/-- Where no TLB holds an entry, a walk from the root answers. -/
theorem State.translate_of_no_tlbs {s : State} (h : s.tlbs = []) (core asid root : Nat) (k : Kind) (va : W64) :
    s.translate core asid root k va = s.walkRoot (dieOf core) asid root (va.toNat % 2 ^ 57) := by
  simp [State.translate, State.tlbHit, h]

theorem State.walkRoot_of_inHbm {s : State} {root : Nat} (h : InHbm s.module root) (die asid a : Nat) :
    s.walkRoot die asid root a = s.walkFrom die asid a 5 root := by
  rw [State.walkRoot, if_pos ((inHbm_iff s.module root).2 h)]

theorem State.walkRoot_of_not_inHbm {s : State} {root : Nat} (h : ¬InHbm s.module root) (die asid a : Nat) :
    s.walkRoot die asid root a = .bad := by
  rw [State.walkRoot, if_neg (mt (inHbm_iff s.module root).1 h)]

/-- Where every entry above a level points on, the entry at that level decides the translation. -/
theorem State.translate_at_level {s : State} {root lv : Nat} {table : Nat → Nat} {va : W64} (htlb : s.tlbs = []) (hc : s.walkCache = []) (hw : s.wheels = [])
    (hroot : table 4 = root) (hlv : lv ≤ 4) (hin : InHbm s.module root)
    (hpoints : ∀ n, lv < n → n ≤ 4 → s.PointsOn table (va.toNat % 2 ^ 57) n) (core asid : Nat) (k : Kind) :
    let e := s.entryAt (table lv) (va.toNat % 2 ^ 57) lv
    s.translate core asid root k va =
      if e.getLsbD 0 = false then .absent
      else if malformed s.module e lv = true then .bad
      else if e.getLsbD 1 = true then .leaf { pte := e, level := lv }
      else s.walkFrom (dieOf core) asid (va.toNat % 2 ^ 57) lv (ptePa e) := by
  rw [State.translate_of_no_tlbs htlb, State.walkRoot_of_inHbm hin, ← hroot, State.walkFrom_down hc hw _ _ hlv (Nat.le_refl 4) hpoints, State.walkFrom_succ hc hw hlv]

/-! ### What the checks look at, and what an instruction's beginning leaves of it -/

/-- A walk does not look at the issuing group. -/
theorem State.walkFrom_setGroup (s : State) (g : Group) (die asid a n table : Nat) :
    ({ s with g := g } : State).walkFrom die asid a n table = s.walkFrom die asid a n table := by
  induction n generalizing table with
  | zero => rfl
  | succ n ih =>
    simp only [State.walkFrom, ih]
    rfl

theorem State.translate_setGroup (s : State) (g : Group) (core asid root : Nat) (k : Kind) (va : W64) :
    ({ s with g := g } : State).translate core asid root k va = s.translate core asid root k va := by
  simp only [State.translate, State.walkRoot, State.walkFrom_setGroup]
  rfl

@[simp] theorem Form.begin_check (f : Form) (s : State) (w : Who) (k : Kind) (scalar : Bool) (size : Nat) (va : W64) :
    (f.begin_ s).check w k scalar size va = s.check w k scalar size va := by
  simp only [Form.begin_, State.check, State.translate_setGroup]
  rfl

@[simp] theorem Form.begin_defer (f : Form) (s : State) : (f.begin_ s).defer = s.defer := rfl

theorem Form.begin_checkLanes {f : Form} {s : State} (hd : s.defer = false) (w : Who) (k : Kind) (scalar : Bool) (size : Nat) (ls : List (Nat × W64)) :
    (f.begin_ s).checkLanes w k scalar size ls = s.checkLanes w k scalar size ls := by
  have hplaced : (f.begin_ s).placedOf w k scalar size = s.placedOf w k scalar size := by
    funext x
    simp only [State.placedOf, Form.begin_check]
  have hworst : (f.begin_ s).worstRow w k scalar size ls = s.worstRow w k scalar size ls := by simp only [State.worstRow, Form.begin_check]
  have htrap : (f.begin_ s).rowTrap w k scalar size ls = s.rowTrap w k scalar size ls := by
    funext m
    simp only [State.rowTrap, Form.begin_check]
  rw [State.checkLanes_eq (s := f.begin_ s) hd, State.checkLanes_eq hd, hplaced, hworst, htrap]

@[simp] theorem Form.begin_who (f : Form) (s : State) : (f.begin_ s).who = s.who := by
  cases hb : s.g.inB <;> simp [Form.begin_, State.who, State.cur, Group.cur, Group.setCur, hb, Form.cover]

/-! ### Calm states -/

/-- The assumptions of a calm state, one by one. -/
theorem State.calm_iff (s : State) : s.calm = true ↔ s.cur.live = true ∧ s.defer = false ∧ s.rrMode = 0 ∧ s.failed = [] ∧ s.poison = [] ∧ s.bad = [] ∧
    s.hostCopies = [] ∧ s.msgs = [] ∧ s.stores = [] ∧ s.fabric = [] ∧ s.g.txIn s.exm = 0 ∧ (s.ordered s.cur.hints).isOk = true := by
  simp [State.calm, and_assoc]

theorem State.defer_of_calm {s : State} (h : s.calm = true) : s.defer = false := by
  obtain ⟨-, hd, -⟩ := s.calm_iff.1 h
  exact hd

theorem State.myRequest_of_no_fabric {s : State} (h : s.fabric = []) : s.myRequest = none := by simp [State.myRequest, h]

@[simp] theorem Form.begin_inflight (f : Form) (s : State) : (f.begin_ s).g.inflight = s.g.inflight := by simp [Form.begin_]
@[simp] theorem Form.begin_lateFault (f : Form) (s : State) : (f.begin_ s).g.lateFault = s.g.lateFault := by simp [Form.begin_]
@[simp] theorem Form.begin_ident (f : Form) (s : State) : (f.begin_ s).g.ident = s.g.ident := by simp [Form.begin_, Group.ident]

/-- Which accesses of the group have been performed does not depend on the beginning of an instruction. -/
theorem Form.begin_performedAt (f : Form) (s : State) (scope : Nat) :
    (f.begin_ s).performedAt scope (f.begin_ s).g = s.performedAt scope s.g := by
  simp only [State.performedAt, Form.begin_inflight, Form.begin_ident]
  rfl

/-- Where no store and no request is on its way, a release waits for the group's earlier accesses alone. -/
theorem State.ordered_ok_iff {s : State} (hf : s.fabric = []) (hs : s.stores = []) (h : Hints) :
    s.ordered h = .ok () ↔ ∀ o, h.ord = some o → 2 ≤ o.order → s.performedAt o.scope s.g = true ∧ s.g.lateFault = none := by
  cases ho : h.ord with
  | none => simp [State.ordered, ho]
  | some o =>
    simp only [State.ordered, ho, State.released, State.myRequest_of_no_fabric hf, State.releasesAt, hs]
    cases hl : s.g.lateFault <;> cases hp : s.performedAt o.scope s.g <;> simp [hp]

/-- What the order of a calm state's instruction waits for has been performed when it begins. -/
theorem Form.begin_ordered {s : State} (h : s.calm = true) (f : Form) : (f.begin_ s).ordered s.cur.hints = .ok () := by
  obtain ⟨-, -, -, -, -, -, -, -, hs, hf, -, hok⟩ := s.calm_iff.1 h
  have hordered : s.ordered s.cur.hints = .ok () := by
    cases he : s.ordered s.cur.hints with
    | ok => rfl
    | error e => simp [he, Except.isOk, Except.toBool] at hok
  rw [State.ordered_ok_iff hf hs] at hordered
  rw [State.ordered_ok_iff (s := f.begin_ s) hf hs, Form.begin_lateFault]
  simpa only [Form.begin_performedAt] using hordered

/-! ### Traps of a form that runs -/

/-- An error of a form that runs is that of its own checks: a trap is taken by the state before the instruction. -/
theorem Form.run_traps {i : Instr} {f : Form} {s : State} {k : Hints → State → Res State} {t : Trap} (he : exec i s = f.run s k) (h : f.runs s = true)
    (hk : k s.cur.hints (f.begin_ s) = .error (.trap t)) : Traps i s t := by
  rw [Traps, he, Form.run_runs f s k h, hk]
  rfl

theorem Form.takesHints_of_runs {f : Form} {s : State} (h : f.runs s = true) : f.takesHints s.cur.hints = true := by
  simp only [Form.runs, Form.admits, Bool.and_eq_true] at h
  grind

/-- A form without subscription runs only under hints that name no format. -/
theorem Form.runs_sub_eq_zero {f : Form} {s : State} (hf : f.sub = false) (h : f.runs s = true) : s.cur.hints.mods.sub = 0 := by
  have htakes := Form.takesHints_of_runs h
  cases hm : s.cur.hints.mod with
  | none => rw [Hints.mods, hm]; rfl
  | some m =>
    simp only [Form.takesHints, hm, Form.takesMod, hf, Bool.or_false, Bool.and_eq_true, beq_iff_eq] at htakes
    rw [Hints.mods, hm, Option.getD_some]
    grind

/-- The active lanes with their addresses in modes 0, 1 and 3 (R297). -/
def State.lanesAt (s : State) (vaddr sbase size mode : Nat) : List (Nat × W64) :=
  (lanesOf s.exm).map fun l => (l,
    if mode = 1 then s.g.readS sbase + BitVec.ofNat 64 (l * 2 ^ size) else if mode = 3 then s.g.readS sbase
    else s.g.readS sbase + (s.g.lane vaddr l).signExtend 64)

/-- A form that runs reads no register early, so it accesses these. -/
theorem Form.begin_mvLanes {f : Form} {s : State} (h : f.runs s = true) (vaddr sbase size mode : Nat) :
    (f.begin_ s).mvLanes vaddr sbase size mode = s.lanesAt vaddr sbase size mode := by
  simp only [State.mvLanes, State.lanesAt, Group.mvAddr, Group.srcLane, Form.begin_srcS f s _ h, Form.begin_srcV f s _ h, Form.begin_exm, sext64_toNat, Group.lane]

theorem exec_vld (vdata vaddr sbase size mode : Nat) (s : State) :
    exec (.vld vdata vaddr sbase size mode) s = vectorLoad false vdata vaddr sbase size mode s := rfl
theorem exec_vst (vdata vaddr sbase size mode : Nat) (s : State) :
    exec (.vst vdata vaddr sbase size mode) s = vectorStore vdata vaddr sbase size mode s := rfl
theorem exec_sld (sd sbase size mode off : Nat) (s : State) : exec (.sld sd sbase size mode off) s = execSld sd sbase size mode off s := rfl
theorem exec_sst (sd sbase size mode off : Nat) (s : State) : exec (.sst sd sbase size mode off) s = execSst sd sbase size mode off s := rfl

/-- A load with a lane that fails a check traps before any lane is performed. -/
theorem traps_vld {s : State} (hcalm : s.calm = true) {vdata vaddr sbase size mode : Nat} {tr : Trap} (hexm : s.exm ≠ 0)
    (hruns : (mvForm true vdata vaddr sbase size mode).runs s = true)
    (hfails : s.checkLanes s.who .load false (2 ^ size) (s.lanesAt vaddr sbase size mode) = .error (.trap tr)) :
    Traps (.vld vdata vaddr sbase size mode) s tr := by
  let f : Form := mvForm true vdata vaddr sbase size mode
  have hruns : f.runs s = true := hruns
  have hlanes : (f.begin_ s).checkLanes s.who .load false (2 ^ size) (s.lanesAt vaddr sbase size mode) = .error (.trap tr) := by
    rw [Form.begin_checkLanes (State.defer_of_calm hcalm), hfails]
  refine Form.run_traps (f := f) (exec_vld ..) hruns ?_
  simp only [Form.runs_sub_eq_zero rfl hruns, State.subTag, Form.begin_exm, if_neg hexm, Form.begin_ordered hcalm, Form.begin_mvLanes hruns,
    Form.begin_who, hlanes, bind, Except.bind]

/-- A store with a lane that fails a check traps before any lane is performed. -/
theorem traps_vst {s : State} (hcalm : s.calm = true) {vdata vaddr sbase size mode : Nat} {tr : Trap} (hexm : s.exm ≠ 0)
    (hruns : (mvForm false vdata vaddr sbase size mode).runs s = true)
    (hfails : s.checkLanes s.who .store false (2 ^ size) (s.lanesAt vaddr sbase size mode) = .error (.trap tr)) :
    Traps (.vst vdata vaddr sbase size mode) s tr := by
  have hlanes : ((mvForm false vdata vaddr sbase size mode).begin_ s).checkLanes s.who .store false (2 ^ size) (s.lanesAt vaddr sbase size mode) =
      .error (.trap tr) := by
    rw [Form.begin_checkLanes (State.defer_of_calm hcalm), hfails]
  refine Form.run_traps (exec_vst ..) hruns ?_
  simp only [Form.begin_exm, if_neg hexm, Form.begin_ordered hcalm, Form.begin_mvLanes hruns, Form.begin_who, hlanes, bind, Except.bind]

/-- One path's access that fails a check. -/
theorem Form.begin_checkPath_fails {f : Form} {s : State} (hd : s.defer = false) {k : Kind} {scalar : Bool} {size r : Nat} {va : W64}
    (h : s.check s.who k scalar size va = .fails r) :
    (f.begin_ s).checkPath k scalar size va = .error (.trap { code := rowCode r, addr := va, info := k.info }) := by
  rw [State.checkPath, State.awaitWalks_of_not_defer (s := f.begin_ s) hd]
  simp only [Form.begin_who, Form.begin_check, h, bind, Except.bind, ite_self]

theorem traps_sld {s : State} (hcalm : s.calm = true) {sd sbase size mode off r : Nat}
    (hruns : (soForm true sd sbase size mode off s.cur.hints).runs s = true)
    (hfails : s.check s.who .load true (2 ^ size) (soAddr s.cur.hints (s.g.readS sbase) mode off) = .fails r) :
    Traps (.sld sd sbase size mode off) s { code := rowCode r, addr := soAddr s.cur.hints (s.g.readS sbase) mode off } := by
  refine Form.run_traps (exec_sld ..) hruns ?_
  have hpath := Form.begin_checkPath_fails (f := soForm true sd sbase size mode off s.cur.hints) (State.defer_of_calm hcalm) hfails
  simp only [Form.begin_ordered hcalm, Form.begin_srcS _ s _ hruns, hpath, bind, Except.bind]
  rfl

theorem traps_sst {s : State} (hcalm : s.calm = true) {sd sbase size mode off r : Nat}
    (hruns : (soForm false sd sbase size mode off s.cur.hints).runs s = true)
    (hfails : s.check s.who .store true (2 ^ size) (soAddr s.cur.hints (s.g.readS sbase) mode off) = .fails r) :
    Traps (.sst sd sbase size mode off) s { code := rowCode r, addr := soAddr s.cur.hints (s.g.readS sbase) mode off, info := 1 } := by
  refine Form.run_traps (exec_sst ..) hruns ?_
  have hpath := Form.begin_checkPath_fails (f := soForm false sd sbase size mode off s.cur.hints) (State.defer_of_calm hcalm) hfails
  simp only [Form.begin_ordered hcalm, Form.begin_srcS _ s _ hruns, hpath, bind, Except.bind]
  rfl

/-! ### The obligation -/

/-- Settles O26: each check by its own lemma, the walk by descent from the root, the traps from what the forms meet before any lane's access. -/
theorem accessChecks : Obligations.AccessChecks := by
  unfold Obligations.AccessChecks
  refine ⟨fun s w k scalar size va ls => ⟨fun ha => ?misaligned, fun ha hc => ?noncanonical, fun ha hc => ⟨fun ht => ?absent, fun ht => ?malformed, fun f ht => ?leaf⟩,
      fun hd hall => ?pass, fun m hd hmin hm => ?fail⟩,
    fun s core asid root lv k va table htlb hcache hwheels hroot hlv => ⟨fun hout => ?outside, fun hin hpoints => ?walk⟩,
    fun s sd vdata vaddr sbase size mode off tr hcalm hsize => ⟨fun hmode hexm => ⟨fun hruns hfails => ?vld, fun hruns hfails => ?vst⟩,
      fun hmode r => ⟨fun hruns hfails => ?sld, fun hruns hfails => ?sst⟩⟩⟩
  case misaligned => exact congrArg Checked.row (State.check_misaligned ha)
  case noncanonical => exact congrArg Checked.row (State.check_noncanonical ha (mt (canonical_iff va).1 hc))
  case absent => exact congrArg Checked.row (State.check_absent ha ((canonical_iff va).2 hc) ht)
  case malformed => exact congrArg Checked.row (State.check_bad ha ((canonical_iff va).2 hc) ht)
  case leaf =>
    have hcheck := State.check_leaf (scalar := scalar) ha ((canonical_iff va).2 hc) ht
    have hmay := permitted_iff w k scalar size f.pte
    have hwatch := watchHit_iff s w k va size f.pte
    simp only [filterHits_iff] at hwatch
    refine ⟨fun hnot => ?denied, fun hyes hhit => ?watched, fun hyes hmiss => ?passes⟩
    case denied => exact congrArg Checked.row (hcheck.trans (if_neg (mt hmay.1 hnot)))
    case watched => exact congrArg Checked.row (hcheck.trans ((if_pos (hmay.2 hyes)).trans (if_pos (hwatch.2 hhit))))
    case passes => exact hcheck.trans ((if_pos (hmay.2 hyes)).trans (if_neg (mt hwatch.1 hmiss)))
  case pass =>
    have hpass : ∀ x ∈ ls, (s.check w k scalar size x.2).row = 7 := by simpa using hall
    exact ⟨_, (State.checkLanes_eq hd ..).trans (if_pos (State.worstRow_eq_seven hpass)), State.filterMap_placedOf hpass⟩
  case fail =>
    have hworst := State.worstRow_eq_of_min? hmin hm
    rw [State.checkLanes_eq hd, hworst, if_neg (Nat.ne_of_lt hm)]
    rfl
  case outside => rw [State.translate_of_no_tlbs htlb, State.walkRoot_of_not_inHbm hout]
  case walk =>
    have hlevel := State.translate_at_level htlb hcache hwheels hroot hlv hin hpoints core asid k
    refine ⟨fun hv => ?_, fun hv hb => ?_, fun hv hb hl => ?_⟩
    · exact hlevel.trans (if_pos hv)
    · exact hlevel.trans ((if_neg (ne_false_of_eq_true hv)).trans (if_pos ((malformed_iff ..).2 hb)))
    · exact hlevel.trans ((if_neg (ne_false_of_eq_true hv)).trans ((if_neg (mt (malformed_iff ..).1 hb)).trans (if_pos hl)))
  case vld => exact traps_vld hcalm hexm hruns hfails
  case vst => exact traps_vst hcalm hexm hruns hfails
  case sld => exact traps_sld hcalm hruns hfails
  case sst => exact traps_sst hcalm hruns hfails

end Sys2Proof.Machine
end

section
/-!
The context image read back where a version clock wraps. A `ctxld` brings the lines of the image into their home slices (R79), each fill advances the
slice's version clock, and one that comes to 0 dooms every lane with a read entry by version homed there (R80, fourth point), the lanes of the stopped
group too: its transaction logs, which the image does not hold, are no longer those it stood with.
-/
namespace Sys2Proof.Machine
open Sys2Proof

/-- A stopped group in slot 0, one of whose lanes holds a read entry by version. -/
def versionReader : Group := { slot := 0, status := .stopped, tx := [{ reads := [{ kind := 1, size := 4, pa := 0, data := 5 }] }] }

/-- A page of supervisor and user memory at physical address 0. -/
def firstPage : Leaf := { pte := 0x3F, level := 2 }

/-- Supervisor code in slot 1 beside that group. Every version clock of die 0 stands at its greatest value, and of the 15 lines from address 0 the slice
holds all but the first, brought in under `ro` (R67). -/
def atWrap : State :=
  { g := { slot := 1, sup := true, a := { live := true } }, groups := [versionReader]
    l2 := (List.range 14).map fun k => { line := 64 * (k + 1), version := 0, ro := true }
    dies := [{ Die.fresh with clocks := List.replicate 32 (BitVec.allOnes 32) }]
    tlbs := [{ loc := .dtlb 0, asid := 0, base := 0, level := firstPage.level, pte := firstPage.pte }] }

/-- The transaction logs of the group in slot 0 of core 0 after an instruction. -/
def logsAfter (o : Out) : Option (List LaneTx) :=
  match o with
  | .next t => (t.groupAt 0 0).map fun g => g.tx
  | _ => none

/-- The forms of the obligation run here, in a calm state. -/
theorem atWrap_calm : atWrap.calm = true ∧ atWrap.performed atWrap.g = true ∧ { srcs := [rs 0, rs 0], sup := true : Form }.runs atWrap = true := by
  decide +kernel

/-- The image's address passes the checks, and all of it lies in cacheable memory of this module. -/
theorem atWrap_image : atWrap.check atWrap.who .load false 1 0 = .passes firstPage ∧
    ∀ x, x < versionReader.imageSize → atWrap.route firstPage.pte (firstPage.pa 0 + x) = .plain := by
  decide +kernel

/-- Reading the image dooms the lane. -/
theorem logsAfter_ctxld_atWrap : logsAfter (exec (.ctxld 0 0) atWrap) = some (doomSlice 0 0 versionReader).tx := by decide +kernel

theorem doomSlice_versionReader_tx : (doomSlice 0 0 versionReader).tx ≠ versionReader.tx := by decide

/-- An image read back leaves the transaction logs of its group. -/
theorem Group.loadImage_tx (clock : Nat) (bs : List Byte) (g : Group) : (Group.loadImage clock bs g).tx = g.tx := rfl

/-- Refutes O42: the group that `ctxld` leaves is not the image laid over the group as it stood, where a line brought in wraps its slice's version clock. -/
theorem not_supervisorForms : ¬ Obligations.SupervisorForms := by
  unfold Obligations.SupervisorForms
  rintro ⟨-, hforms, -⟩
  obtain ⟨hcalm, hperformed, hruns⟩ := atWrap_calm
  obtain ⟨hpasses, hplain⟩ := atWrap_image
  obtain ⟨hcontext, -⟩ := hforms atWrap 0 0 0 0 hcalm hperformed rfl (by simp [atWrap]) (by simp [atWrap]) rfl (by decide)
  obtain ⟨-, ⟨-, -, hstopped⟩, -⟩ := hcontext hruns
  obtain ⟨-, -, -, -, hload⟩ := hstopped rfl versionReader rfl (.inl rfl) (by decide)
  obtain ⟨t, hexec, -, -, -, hgroup⟩ := hload firstPage hpasses hplain rfl (by decide)
  have hgroup : t.groupAt 0 0 = _ := hgroup
  have hlogs : logsAfter (exec (.ctxld 0 0) atWrap) = some versionReader.tx := by
    rw [hexec, logsAfter, hgroup, Option.map_some, Group.loadImage_tx]
  exact doomSlice_versionReader_tx (Option.some.inj (logsAfter_ctxld_atWrap.symm.trans hlogs))

end Sys2Proof.Machine
end

section
/-!
Modulo buffers (R72, R73): the places of the lanes and the next pointer from the fields of the buffer, and the vector loads and stores of the core
scratchpad and of cluster memory in mode 2 (R298). An instruction acts on the state as it begins, and what it does is stated of the state before it: the
two agree but for the bookkeeping of the issuing path, at which no on-chip access looks.
-/
namespace Sys2Proof.Machine
open Sys2Proof

/-! ### The fields of a modulo register (Table 04-4) -/

theorem sextInt_toNat {n : Nat} (h : 0 < n) (x : BitVec n) : sextInt x.toNat n = x.toInt := by
  have hx := x.isLt
  have hhalf : 2 * 2 ^ (n - 1) = 2 ^ n := by rw [← Nat.pow_succ', Nat.succ_eq_add_one, Nat.sub_add_cancel h]
  rw [sextInt, BitVec.toInt_eq_toNat_cond, Nat.mod_eq_of_lt hx]
  norm_cast
  rw [Nat.mod_eq_of_lt hx]
  split <;> split <;> omega

theorem modBase_eq (b : W64) : modBase b = (b.extractLsb' 0 22).toNat := field_eq_toNat_extractLsb' ..

theorem modSize_eq (b : W64) : modSize b = (b.extractLsb' 22 19).toNat := field_eq_toNat_extractLsb' ..

theorem modInc_eq (b : W64) : modInc b = (b.extractLsb' 41 22).toInt := by
  rw [modInc, field_eq_toNat_extractLsb', sextInt_toNat (by decide)]

theorem modBase_lt (b : W64) : modBase b < 2 ^ 22 := Nat.mod_lt _ (by decide)

theorem modSize_lt (b : W64) : modSize b < 2 ^ 19 := Nat.mod_lt _ (by decide)

/-! ### ModAccess and the pointer after it (R73) -/

/-- The buffer is empty, too long, misplaced or beyond the extent, or the pointer is outside it. -/
abbrev ModOutside (extent : Nat) (ptr b : W64) : Prop :=
  modSize b = 0 ∨ 262144 < modSize b ∨ modBase b % 16 ≠ 0 ∨ extent < modBase b + modSize b * 16 ∨ ptr.toNat < modBase b ∨
    modBase b + modSize b * 16 ≤ ptr.toNat

theorem modAccess_eq (extent : Nat) (ptr b : W64) (es info : Nat) :
    modAccess extent ptr b es info =
      if ModOutside extent ptr b then .error (.trap { code := codeSpad, addr := ptr, info := info })
      else if ptr.toNat % es ≠ 0 then .error (.trap { code := codeMisalign, addr := ptr, info := info })
      else .ok fun l => BitVec.ofNat 64 (modBase b + (ptr.toNat - modBase b + l * es) % (modSize b * 16)) := by
  have hgroups : ModOutside extent ptr b ↔ (modSize b = 0 ∨ 262144 < modSize b ∨ modBase b % 16 ≠ 0) ∨ extent < modBase b + modSize b * 16 ∨
      (ptr.toNat < modBase b ∨ modBase b + modSize b * 16 ≤ ptr.toNat) := by simp only [ModOutside, or_assoc]
  simp only [modAccess]
  by_cases hfields : modSize b = 0 ∨ 262144 < modSize b ∨ modBase b % 16 ≠ 0
  · rw [if_pos hfields, if_pos (hgroups.2 (.inl hfields))]
  rw [if_neg hfields]
  by_cases hextent : extent < modBase b + modSize b * 16
  · rw [if_pos hextent, if_pos (hgroups.2 (.inr (.inl hextent)))]
  rw [if_neg hextent]
  by_cases hptr : ptr.toNat < modBase b ∨ modBase b + modSize b * 16 ≤ ptr.toNat
  · rw [if_pos hptr, if_pos (hgroups.2 (.inr (.inr hptr)))]
  rw [if_neg hptr, if_neg (mt hgroups.1 (not_or.2 ⟨hfields, not_or.2 ⟨hextent, hptr⟩⟩))]

/-- The next pointer is the increment added modulo the size, from the base. -/
theorem modNext_toNat (ptr : W64) {b : W64} (h : modSize b ≠ 0) :
    ((modNext ptr b).toNat : Int) = modBase b + ((ptr.toNat - modBase b : Nat) + modInc b) % (modSize b * 16 : Nat) := by
  have hbase := modBase_lt b
  have hsize := modSize_lt b
  have hpos : (0 : Int) < (modSize b * 16 : Nat) := by omega
  have hnonneg := Int.emod_nonneg ((ptr.toNat - modBase b : Nat) + modInc b) (Int.ne_of_gt hpos)
  have hlt := Int.emod_lt_of_pos ((ptr.toNat - modBase b : Nat) + modInc b) hpos
  rw [modNext, BitVec.toNat_ofNat, Nat.mod_eq_of_lt (by omega), Int.natCast_add, Int.toNat_of_nonneg hnonneg]

theorem modNext_bounds (ptr : W64) {b : W64} (h : modSize b ≠ 0) :
    modBase b ≤ (modNext ptr b).toNat ∧ (modNext ptr b).toNat < modBase b + modSize b * 16 := by
  have hnext := modNext_toNat ptr h
  have hpos : (0 : Int) < (modSize b * 16 : Nat) := by omega
  have hnonneg := Int.emod_nonneg ((ptr.toNat - modBase b : Nat) + modInc b) (Int.ne_of_gt hpos)
  have hlt := Int.emod_lt_of_pos ((ptr.toNat - modBase b : Nat) + modInc b) hpos
  omega

theorem modNext_emod (ptr : W64) {b : W64} (h : modSize b ≠ 0) :
    ((modNext ptr b).toNat : Int) % (modSize b * 16 : Nat) = (modBase b + ((ptr.toNat - modBase b : Nat) + modInc b)) % (modSize b * 16 : Nat) := by
  rw [modNext_toNat ptr h, Int.add_emod_emod]

/-! ### What an on-chip access reads of the state, and what a form's beginning leaves of it -/

theorem lanesOf_eq_nil_iff (m : W32) : lanesOf m = [] ↔ m = 0 := by
  constructor
  · intro h
    refine BitVec.eq_of_getLsbD_eq fun l hl => ?_
    simpa [laneOn] using List.filter_eq_nil_iff.1 h l (List.mem_range.2 hl)
  · rintro rfl
    rfl

theorem State.extent_still (s : State) (sp : Space) : s.still.extent sp = s.extent sp := by cases sp <;> rfl

theorem State.chipRead_still (s : State) (sp : Space) (off n : Nat) : s.still.chipRead sp off n = s.chipRead sp off n := by cases sp <;> rfl

@[simp] theorem Form.begin_extent (f : Form) (s : State) (sp : Space) : (f.begin_ s).extent sp = s.extent sp := by
  rw [← State.extent_still, Form.still_begin, State.extent_still]

@[simp] theorem Form.begin_chipRead (f : Form) (s : State) (sp : Space) (off n : Nat) : (f.begin_ s).chipRead sp off n = s.chipRead sp off n := by
  rw [← State.chipRead_still, Form.still_begin, State.chipRead_still]

@[simp] theorem Form.begin_bm (f : Form) (s : State) : (f.begin_ s).g.bm = s.g.bm := by simp [Form.begin_]

/-- A lane's element as the registers hold it (R296). -/
def Group.elemBytes (g : Group) (vdata size l : Nat) : List Byte :=
  ((List.range (elemRegs size)).flatMap fun k => toBytes 4 (g.lane (vdata + k) l).toNat).take (2 ^ size)

/-- A form that runs reads nothing early, so it stores that. -/
theorem Form.begin_laneData {f : Form} {s : State} (h : f.runs s = true) (vdata size l : Nat) :
    (f.begin_ s).g.laneData vdata size l = s.g.elemBytes vdata size l := by
  simp only [Group.laneData, Group.srcLane, Group.elemBytes, Group.lane, Form.begin_srcV f s _ h]

/-- A request of the path's instruction is its own when the instruction has begun. -/
theorem Form.begin_myRequest (f : Form) (s : State) : (f.begin_ s).myRequest = s.myRequest := by
  have hown : (f.begin_ s).ownRequest = s.ownRequest := by
    funext r
    simp only [State.ownRequest, Form.begin_ident]
    cases hb : s.g.inB <;> simp [Form.begin_, State.cur, Group.cur, Group.setCur, hb, Form.cover, Slot.runPc]
  rw [State.myRequest, hown]
  rfl

theorem State.releasesAt_ok_iff (s : State) (scope : Nat) : s.releasesAt scope = .ok () ↔
    ¬(3 ≤ scope ∧ s.stores.any (fun x => dieOf x.core == dieOf s.g.core) = true) ∧ s.performedAt scope s.g = true ∧ s.g.lateFault = none := by
  unfold State.releasesAt
  by_cases hstores : 3 ≤ scope ∧ s.stores.any (fun x => dieOf x.core == dieOf s.g.core) = true
  · rw [if_pos hstores]
    exact iff_of_false nofun fun h => h.1 hstores
  · rw [if_neg hstores, and_iff_right hstores]
    cases s.performedAt scope s.g <;> cases s.g.lateFault <;> simp

/-- What a release waits for does not depend on the beginning of an instruction. -/
theorem Form.begin_releasesAt_ok (f : Form) (s : State) (scope : Nat) : (f.begin_ s).releasesAt scope = .ok () ↔ s.releasesAt scope = .ok () := by
  have hcore : (f.begin_ s).g.core = s.g.core := by simp [Form.begin_]
  have hstores : (f.begin_ s).stores = s.stores := rfl
  simp only [State.releasesAt_ok_iff, Form.begin_performedAt, Form.begin_lateFault, hcore, hstores]

theorem Form.begin_ordered_of_ok {f : Form} {s : State} {h : Hints} (ho : s.ordered h = .ok ()) : (f.begin_ s).ordered h = .ok () := by
  unfold State.ordered State.released at ho ⊢
  rw [Form.begin_myRequest]
  cases hord : h.ord with
  | none => rfl
  | some o =>
    simp only [hord] at ho ⊢
    by_cases horder : 2 ≤ o.order
    · rw [if_pos horder] at ho ⊢
      by_cases hown : s.myRequest.isSome = true
      · rw [if_pos hown]
      · rw [if_neg hown] at ho ⊢
        exact (Form.begin_releasesAt_ok ..).2 ho
    · rw [if_neg horder]

/-- The lanes of an access in mode 2 and their places, or the trap of ModAccess. -/
theorem Form.begin_chipOffsets_modulo {f : Form} {s : State} (h : f.runs s = true) (sp : Space) (k : Kind) (b sbase size : Nat) :
    (f.begin_ s).chipOffsets sp k b sbase size 2 =
      (modAccess (s.extent sp) (s.g.readS sbase) (s.g.bm.getD b 0) (2 ^ size) k.info).map fun at_ => (lanesOf s.exm).map fun l => (l, at_ l) := by
  rw [State.chipOffsets, if_pos rfl, Form.begin_extent, Form.begin_srcS f s _ h, Form.begin_bm, Form.begin_exm]
  cases modAccess (s.extent sp) (s.g.readS sbase) (s.g.bm.getD b 0) (2 ^ size) k.info <;> rfl

theorem State.waitWhile_chipBusy {s : State} (h : s.defer = false) (k : Kind) (sp : Space) (size : Nat) (offs : List Nat) :
    waitWhile (s.chipBusy k sp size offs) = .ok () := by
  have hfree : s.chipBusy k sp size offs = false := by
    unfold State.chipBusy
    exact congrArg (· && _) h
  rw [hfree]
  rfl

theorem State.checkChip_of_no_bad {s : State} (h : s.bad = []) (info n : Nat) (ls : List (Nat × Space × Nat)) : s.checkChip info n ls = .ok () := by
  have hnone : (ls.filterMap fun x => (s.chipAt x.2.1 x.2.2).bind fun p => if s.spoiled p.1 p.2 n then some (x.1, p) else none) = [] := by
    simp [State.spoiled, h]
  rw [State.checkChip, hnone]

theorem State.feedHash_of_not_recording {s : State} (h : s.rrMode = 0) (fs : List HashFeed) : s.feedHash fs = s := by
  unfold State.feedHash
  split
  · rfl
  · rw [if_pos (.inl h)]

/-! ### What the results of an on-chip access change -/

/-- A vector result changes the vector registers and the results in flight, and nothing else. -/
theorem State.putV_frame (s : State) (var mem : Bool) (n : Nat) (mask : W32) (zero : Bool) (val : Nat → W32) :
    ∃ v xs, s.putV var mem n mask zero val = { s with g := { s.g with v := v, inflight := xs } } := by
  unfold State.putV Group.writeV Group.overtake
  repeat' split
  all_goals exact ⟨_, _, rfl⟩

theorem State.writeElems_frame (s : State) (vdata size : Nat) (mask : W32) (zero : Bool) (rs : List (Nat × List Byte)) :
    ∃ v xs, s.writeElems vdata size mask zero rs = { s with g := { s.g with v := v, inflight := xs } } := by
  unfold State.writeElems
  induction List.range (elemRegs size) generalizing s with
  | nil => exact ⟨_, _, rfl⟩
  | cons k ks ih =>
    rw [List.foldl_cons]
    obtain ⟨v, xs, hput⟩ := s.putV_frame true true (vdata + k) mask zero _
    rw [hput]
    exact ih _

/-- Writing elements leaves the issuing path, and what a pointer is read from. -/
theorem State.writeElems_keeps (s : State) (vdata size : Nat) (mask : W32) (zero : Bool) (rs : List (Nat × List Byte)) :
    (s.writeElems vdata size mask zero rs).cur = s.cur ∧ (s.writeElems vdata size mask zero rs).g.srcS = s.g.srcS ∧
      (s.writeElems vdata size mask zero rs).g.bm = s.g.bm := by
  obtain ⟨v, xs, hframe⟩ := s.writeElems_frame vdata size mask zero rs
  rw [hframe]
  exact ⟨rfl, rfl, rfl⟩

/-- Writing elements does not look at the issuing path's bookkeeping. -/
theorem State.still_writeElems (s : State) (vdata size : Nat) (mask : W32) (zero : Bool) (rs : List (Nat × List Byte)) :
    (s.writeElems vdata size mask zero rs).still = s.still.writeElems vdata size mask zero rs :=
  (List.foldl_hom State.still fun u _ => (u.still_putV ..).symm).symm

theorem State.chipWrite_frame (s : State) (sp : Space) (off : Nat) (bs : List Byte) :
    (s.chipWrite sp off bs).g = s.g ∧ (s.chipWrite sp off bs).rrMode = s.rrMode := by
  unfold State.chipWrite
  repeat' split
  all_goals exact ⟨rfl, rfl⟩

theorem State.still_chipWrite (s : State) (sp : Space) (off : Nat) (bs : List Byte) :
    (s.chipWrite sp off bs).still = s.still.chipWrite sp off bs := by
  have hwg : s.still.myWg = s.myWg := rfl
  have hinst : s.still.instOf = s.instOf := rfl
  have hcave : s.still.caveEntry (dieOf s.still.g.core) s.still.g.asid = s.caveEntry (dieOf s.g.core) s.g.asid := rfl
  cases sp with
  | scratch => rfl
  | slice pos =>
    simp only [State.chipWrite, hwg]
    cases s.myWg <;> rfl
  | cluster =>
    simp only [State.chipWrite, hwg, hinst]
    cases s.myWg.bind s.instOf <;> rfl
  | cave =>
    simp only [State.chipWrite, hcave]
    cases s.caveEntry (dieOf s.g.core) s.g.asid <;> rfl

/-- The stores of the lanes, in the order of a list. -/
def State.chipWrites (s : State) (sp : Space) (f : Nat → W64) (data : Nat → List Byte) (ls : List Nat) : State :=
  ls.foldl (fun u l => u.chipWrite sp (f l).toNat (data l)) s

theorem State.foldl_chipWrite_map (s : State) (sp : Space) (f : Nat → W64) (data : Nat → List Byte) (ls : List Nat) :
    (ls.map fun l => (l, f l, data l)).foldl (fun u x => u.chipWrite sp x.2.1.toNat x.2.2) s = s.chipWrites sp f data ls := List.foldl_map

theorem State.chipWrites_frame (s : State) (sp : Space) (f : Nat → W64) (data : Nat → List Byte) (ls : List Nat) :
    (s.chipWrites sp f data ls).g = s.g ∧ (s.chipWrites sp f data ls).rrMode = s.rrMode := by
  unfold State.chipWrites
  induction ls generalizing s with
  | nil => exact ⟨rfl, rfl⟩
  | cons l ls ih =>
    obtain ⟨hg, hrr⟩ := s.chipWrite_frame sp (f l).toNat (data l)
    obtain ⟨ihg, ihrr⟩ := ih (s.chipWrite sp (f l).toNat (data l))
    exact ⟨ihg.trans hg, ihrr.trans hrr⟩

theorem State.still_chipWrites (s : State) (sp : Space) (f : Nat → W64) (data : Nat → List Byte) (ls : List Nat) :
    (s.chipWrites sp f data ls).still = s.still.chipWrites sp f data ls :=
  (List.foldl_hom State.still fun u _ => (u.still_chipWrite ..).symm).symm

/-! ### Vector accesses in mode 2 (R298) -/

/-- What `Form.run` gives where it runs and its checks pass, as `Ends` says it. -/
theorem Ends.of_run {i : Instr} {f : Form} {s t u : State} {k : Hints → State → Res State} (he : exec i s = f.run s k) (h : f.runs s = true)
    (hk : k s.cur.hints (f.begin_ s) = .ok t) (hc : t.cur = (f.begin_ s).cur) (hu : t.still = u.still) : Ends i s u := by
  have hrun := Form.run_runs f s k h
  rw [hk] at hrun
  refine ⟨_, he.trans hrun, ?_, ?_, ?_, ?_⟩ <;> simp [hc, hu]

/-- The spaces that mode 2 reaches are the same for every lane. -/
theorem State.laneSpace_of_shared (s : State) {sp : Space} (h : sp = .scratch ∨ sp = .cluster) (l : Nat) : s.laneSpace sp l = sp := by
  obtain rfl | rfl := h <;> rfl

/-- What a vector access in mode 2 reads and writes, and the hints it takes: no transaction holds one (R159). -/
def modForm (load : Bool) (vdata b sbase size : Nat) : Form := { mvForm load vdata b sbase size 2 with noTx := true }

section
variable {i : Instr} {s : State} {sp : Space} {vdata b sbase size : Nat}

theorem ends_chipLoad_of_no_lane (he : exec i s = chipLoad sp vdata b sbase size 2 s) (hruns : (modForm true vdata b sbase size).runs s = true)
    (hexm : s.exm = 0) : Ends i s s := by
  refine Ends.of_run (f := modForm true vdata b sbase size) he hruns ?_ rfl (Form.still_begin ..)
  rw [Form.begin_exm, if_pos hexm]

theorem ends_chipStore_of_no_lane (he : exec i s = chipStore sp vdata b sbase size 2 s) (hruns : (modForm false vdata b sbase size).runs s = true)
    (hexm : s.exm = 0) : Ends i s s := by
  refine Ends.of_run (f := modForm false vdata b sbase size) he hruns ?_ rfl (Form.still_begin ..)
  rw [Form.begin_exm, if_pos hexm]

theorem traps_chipLoad_modulo (he : exec i s = chipLoad sp vdata b sbase size 2 s) (hruns : (modForm true vdata b sbase size).runs s = true)
    (ho : s.ordered s.cur.hints = .ok ()) (hexm : s.exm ≠ 0) {t : Trap}
    (hat : modAccess (s.extent sp) (s.g.readS sbase) (s.g.bm.getD b 0) (2 ^ size) Kind.load.info = .error (.trap t)) : Traps i s t := by
  refine Form.run_traps (f := modForm true vdata b sbase size) he hruns ?_
  rw [Form.begin_exm, if_neg hexm, Form.begin_ordered_of_ok ho]
  simp only [Nat.reduceEqDiff, if_false, Form.begin_chipOffsets_modulo hruns, hat, Except.map, bind, Except.bind]

theorem traps_chipStore_modulo (he : exec i s = chipStore sp vdata b sbase size 2 s) (hruns : (modForm false vdata b sbase size).runs s = true)
    (ho : s.ordered s.cur.hints = .ok ()) (hexm : s.exm ≠ 0) {t : Trap}
    (hat : modAccess (s.extent sp) (s.g.readS sbase) (s.g.bm.getD b 0) (2 ^ size) Kind.store.info = .error (.trap t)) : Traps i s t := by
  refine Form.run_traps (f := modForm false vdata b sbase size) he hruns ?_
  rw [Form.begin_exm, if_neg hexm, Form.begin_ordered_of_ok ho]
  simp only [Nat.reduceEqDiff, if_false, Form.begin_chipOffsets_modulo hruns, hat, Except.map, bind, Except.bind]

/-- Each active lane's element is loaded from its place, and the pointer moves on. -/
theorem ends_chipLoad_modulo (he : exec i s = chipLoad sp vdata b sbase size 2 s) (hruns : (modForm true vdata b sbase size).runs s = true)
    (ho : s.ordered s.cur.hints = .ok ()) (hexm : s.exm ≠ 0) (hsp : sp = .scratch ∨ sp = .cluster) (hd : s.defer = false) (hbad : s.bad = [])
    {f : Nat → W64} (hat : modAccess (s.extent sp) (s.g.readS sbase) (s.g.bm.getD b 0) (2 ^ size) Kind.load.info = .ok f) :
    Ends i s ((s.onTime.writeElems vdata size s.exm s.cur.hints.mods.zero
      ((lanesOf s.exm).map fun l => (l, s.chipRead sp (f l).toNat (2 ^ size)))).putS true true sbase (modNext (s.g.readS sbase) (s.g.bm.getD b 0))) := by
  let form := modForm true vdata b sbase size
  let u := (form.begin_ s).writeElems vdata size s.exm s.cur.hints.mods.zero ((lanesOf s.exm).map fun l => (l, s.chipRead sp (f l).toNat (2 ^ size)))
  have hdefer : (form.begin_ s).defer = false := hd
  obtain ⟨hcur, hsrc, hbm⟩ : u.cur = (form.begin_ s).cur ∧ u.g.srcS = (form.begin_ s).g.srcS ∧ u.g.bm = (form.begin_ s).g.bm := State.writeElems_keeps ..
  have hbump : u.bumpPointer b sbase 2 = u.putS true true sbase (modNext (s.g.readS sbase) (s.g.bm.getD b 0)) := by
    rw [State.bumpPointer, if_pos rfl, hsrc, hbm, Form.begin_srcS _ s _ hruns, Form.begin_bm]
  refine Ends.of_run (f := form) (t := u.bumpPointer b sbase 2) he hruns ?effect ?cur ?still
  case effect =>
    rw [Form.begin_exm, if_neg hexm, Form.begin_ordered_of_ok ho]
    simp only [Nat.reduceEqDiff, if_false, Form.begin_chipOffsets_modulo (f := form) hruns, hat, Except.map, bind, Except.bind,
      State.waitWhile_chipBusy hdefer, State.checkChip_of_no_bad (s := form.begin_ s) hbad, hdefer, Bool.false_and, Bool.false_eq_true,
      State.laneSpace_of_shared _ hsp, List.map_map, Form.begin_chipRead]
    rfl
  case cur => rw [hbump, State.putS_cur, hcur]
  case still =>
    rw [hbump, State.still_putS, State.still_putS, State.still_writeElems, State.still_writeElems, Form.still_begin]
    rfl

/-- Each active lane's element is stored at its place in ascending order, and the pointer moves on. -/
theorem ends_chipStore_modulo (he : exec i s = chipStore sp vdata b sbase size 2 s) (hruns : (modForm false vdata b sbase size).runs s = true)
    (ho : s.ordered s.cur.hints = .ok ()) (hexm : s.exm ≠ 0) (hsp : sp = .scratch ∨ sp = .cluster) (hd : s.defer = false) (hrr : s.rrMode = 0)
    {f : Nat → W64} (hat : modAccess (s.extent sp) (s.g.readS sbase) (s.g.bm.getD b 0) (2 ^ size) Kind.store.info = .ok f) :
    Ends i s ((s.chipWrites sp f (s.g.elemBytes vdata size) (lanesOf s.exm)).putS true true sbase (modNext (s.g.readS sbase) (s.g.bm.getD b 0))) := by
  let form := modForm false vdata b sbase size
  let u := (form.begin_ s).chipWrites sp f (s.g.elemBytes vdata size) (lanesOf s.exm)
  have hdefer : (form.begin_ s).defer = false := hd
  obtain ⟨hg, hrr'⟩ : u.g = (form.begin_ s).g ∧ u.rrMode = s.rrMode := State.chipWrites_frame ..
  have hbump : u.bumpPointer b sbase 2 = u.putS true true sbase (modNext (s.g.readS sbase) (s.g.bm.getD b 0)) := by
    rw [State.bumpPointer, if_pos rfl, hg, Form.begin_srcS _ s _ hruns, Form.begin_bm]
  refine Ends.of_run (f := form) (t := u.bumpPointer b sbase 2) he hruns ?effect ?cur ?still
  case effect =>
    rw [Form.begin_exm, if_neg hexm, Form.begin_ordered_of_ok ho]
    simp only [Nat.reduceEqDiff, if_false, Form.begin_chipOffsets_modulo (f := form) hruns, hat, Except.map, bind, Except.bind,
      State.waitWhile_chipBusy hdefer, hdefer, Bool.false_and, Bool.false_eq_true, State.laneSpace_of_shared _ hsp, List.map_map,
      Form.begin_laneData (f := form) hruns, Function.comp_def, State.foldl_chipWrite_map]
    rw [State.feedHash_of_not_recording (hrr'.trans hrr)]
  case cur =>
    rw [hbump, State.putS_cur]
    exact congrArg Group.cur hg
  case still => rw [hbump, State.still_putS, State.still_putS, State.still_chipWrites, State.still_chipWrites, Form.still_begin]

end

/-! ### The obligation -/

/-- Settles O22: ModAccess and the next pointer from the fields of the buffer, and each form in mode 2 as it runs. -/
theorem moduloBuffers : Obligations.ModuloBuffers := by
  unfold Obligations.ModuloBuffers
  refine ⟨fun extent es info l ptr b => ?buffer, fun s vdata b sbase size hd hrr ho _ => ?forms⟩
  case buffer =>
    intro base size inc bad at_
    have hbase : modBase b = base := modBase_eq b
    have hsize : modSize b * 16 = size := by rw [modSize_eq, Nat.mul_comm]
    have hinc : modInc b = inc := modInc_eq b
    have hbad : ModOutside extent ptr b ↔ bad := by
      simp only [ModOutside, bad, hbase, hsize]
      omega
    have haccess := modAccess_eq extent ptr b es info
    refine ⟨fun hb => ?outside, fun hb hp => ?misaligned, fun hb hp => ?access⟩
    case outside => rw [haccess, if_pos (hbad.2 hb)]; rfl
    case misaligned => rw [haccess, if_neg (mt hbad.1 hb), if_pos hp]; rfl
    case access =>
      have hne : modSize b ≠ 0 := fun h0 => hb (hbad.1 (.inl h0))
      obtain ⟨hlo, hhi⟩ := modNext_bounds ptr hne
      have hemod := modNext_emod ptr hne
      rw [haccess, if_neg (mt hbad.1 hb), if_neg (not_not_intro hp)]
      rw [hbase] at hlo
      rw [hbase, hsize] at hhi
      rw [hbase, hsize, hinc] at hemod
      refine ⟨?_, hlo, hhi, ?_⟩
      · rw [hbase, hsize]
        rfl
      · rw [hemod, Int.emod_emod]
  case forms =>
    intro ptr buf act data next acts
    have hempty : act = [] ↔ s.exm = 0 := lanesOf_eq_nil_iff s.exm
    have hload : ∀ i sp, sp = .scratch ∨ sp = .cluster → exec i s = chipLoad sp vdata b sbase size 2 s → acts true i sp :=
      fun i sp hsp he hruns => ⟨fun hact => ends_chipLoad_of_no_lane he hruns (hempty.1 hact),
        fun t hact hat => traps_chipLoad_modulo he hruns ho (mt hempty.2 hact) hat,
        fun f hact hat hbad => ends_chipLoad_modulo he hruns ho (mt hempty.2 hact) hsp hd (hbad.resolve_left Bool.noConfusion) hat⟩
    have hstore : ∀ i sp, sp = .scratch ∨ sp = .cluster → exec i s = chipStore sp vdata b sbase size 2 s → acts false i sp :=
      fun i sp hsp he hruns => ⟨fun hact => ends_chipStore_of_no_lane he hruns (hempty.1 hact),
        fun t hact hat => traps_chipStore_modulo he hruns ho (mt hempty.2 hact) hat,
        fun f hact hat _ => ends_chipStore_modulo he hruns ho (mt hempty.2 hact) hsp hd hrr hat⟩
    exact ⟨hload _ _ (.inl rfl) rfl, hstore _ _ (.inl rfl) rfl, hload _ _ (.inr rfl) rfl, hstore _ _ (.inr rfl) rfl⟩

end Sys2Proof.Machine
end

section
/-!
Laws of the directory, the home slices and the L1 copies (R66, R79 to R103). Where messages are delivered as they are sent, none is on its way and no
host line is cached (`State.Quiet`), what these do among themselves changes no register, no byte of memory and no message (`State.CopiesMove`): of the
whole module only the lines, copies and entries themselves, the slices' version clocks with the transactions that a wrapped one dooms, and what other
modules are told. A write is such a movement, its bytes put in memory, and the monitors that it wakes (`State.Wrote`).
-/
namespace Sys2Proof.Machine
open Sys2Proof

/-! ### Lists of records with one record for each key -/

/-- A record put in place of those that satisfy a test, or at the end where none does, is the first that satisfies it. -/
theorem find?_replace {α : Type} (p : α → Bool) {e : α} (he : p e = true) (xs : List α) :
    (if xs.any p then xs.map (fun x => if p x then e else x) else xs ++ [e]).find? p = some e := by
  induction xs with
  | nil => simp [he]
  | cons x xs ih =>
    by_cases hx : p x = true
    · simp [hx, he]
    · simp only [Bool.not_eq_true] at hx
      by_cases hany : xs.any p = true
      · simpa [hx, hany] using ih
      · simpa [hx, hany] using ih

theorem find?_setDir (e : DirEntry) (ds : List DirEntry) : (setDir e ds).find? (fun d => d.line == e.line) = some e :=
  find?_replace (fun d : DirEntry => d.line == e.line) (beq_self_eq_true _) ds

theorem find?_setL1 (c : L1Line) (cs : List L1Line) : (setL1 c cs).find? (fun d => d.core == c.core && d.line == c.line) = some c :=
  find?_replace (fun d : L1Line => d.core == c.core && d.line == c.line) (by simp) cs

/-- Without the records that satisfy a test, none is the first that satisfies it. -/
theorem find?_filter_not {α : Type} (p : α → Bool) (xs : List α) : (xs.filter fun x => !p x).find? p = none := by
  simp [List.find?_filter]

/-- A record left out is not the first to satisfy a test that only records kept satisfy. -/
theorem find?_filter_of_imp {α : Type} {p q : α → Bool} (h : ∀ x, q x = true → p x = true) (xs : List α) :
    (xs.filter p).find? q = xs.find? q := by
  rw [List.find?_filter]
  congr 1
  funext x
  cases hq : q x with
  | false => simp
  | true => simp [h x hq]

theorem State.line_of_dirOf {s : State} {line : Nat} {d : DirEntry} (h : s.dirOf line = some d) : d.line = line := by
  simpa using List.find?_some h

theorem State.place_of_l1Of {s : State} {core line : Nat} {c : L1Line} (h : s.l1Of core line = some c) : c.core = core ∧ c.line = line := by
  simpa using List.find?_some h

theorem State.line_of_find_l2 {s : State} {line : Nat} {l : L2Line} (h : (s.l2.find? fun l => l.line == line) = some l) : l.line = line := by
  simpa using List.find?_some h

/-! ### What the directory and the caches do among themselves -/

/-- The states agree in all but the lines of the slices, the version clocks with the transactions that a wrapped clock dooms (R80), the residence of
wheels in the slices (R112) and what other modules are told (R190). -/
def State.SlicesMove (s t : State) : Prop :=
  ∃ tx gs ds l2 ws fo ma, t = { s with
    g := { s.g with tx := tx }, groups := gs, dies := ds, l2 := l2, wheels := ws, fabOut := fo, modAcks := ma }

/-- The same, but for the directory and the L1 copies too: no register, no byte of memory and no message has changed. -/
def State.CopiesMove (s t : State) : Prop := ∃ dir l1, State.SlicesMove { s with dir := dir, l1 := l1 } t

/-- Messages are delivered as they are sent, none is on its way, and the device holds no line of the host. -/
structure State.Quiet (s : State) : Prop where
  defer : s.defer = false
  msgs : s.msgs = []
  hostCopies : s.hostCopies = []

section
variable {s t u : State}

theorem State.SlicesMove.refl (s : State) : s.SlicesMove s := ⟨_, _, _, _, _, _, _, rfl⟩

theorem State.SlicesMove.trans (h : s.SlicesMove t) (k : t.SlicesMove u) : s.SlicesMove u := by
  obtain ⟨_, _, _, _, _, _, _, rfl⟩ := h
  obtain ⟨_, _, _, _, _, _, _, rfl⟩ := k
  exact ⟨_, _, _, _, _, _, _, rfl⟩

theorem State.SlicesMove.dir (h : s.SlicesMove t) : t.dir = s.dir := by
  obtain ⟨_, _, _, _, _, _, _, rfl⟩ := h
  rfl

theorem State.SlicesMove.l1 (h : s.SlicesMove t) : t.l1 = s.l1 := by
  obtain ⟨_, _, _, _, _, _, _, rfl⟩ := h
  rfl

theorem State.SlicesMove.dirOf (h : s.SlicesMove t) : t.dirOf = s.dirOf := by
  funext line
  rw [State.dirOf, h.dir]
  rfl

theorem State.SlicesMove.l1Of (h : s.SlicesMove t) : t.l1Of = s.l1Of := by
  funext core line
  rw [State.l1Of, h.l1]
  rfl

theorem State.SlicesMove.copiesMove (h : s.SlicesMove t) : s.CopiesMove t := ⟨s.dir, s.l1, h⟩

theorem State.copiesMove_dir_l1 (s : State) (dir : List DirEntry) (l1 : List L1Line) : s.CopiesMove { s with dir := dir, l1 := l1 } :=
  ⟨dir, l1, .refl _⟩

theorem State.CopiesMove.refl (s : State) : s.CopiesMove s := (State.SlicesMove.refl s).copiesMove

theorem State.CopiesMove.trans (h : s.CopiesMove t) (k : t.CopiesMove u) : s.CopiesMove u := by
  obtain ⟨_, _, _, _, _, _, _, _, _, rfl⟩ := h
  obtain ⟨dir, l1, _, _, _, _, _, _, _, rfl⟩ := k
  exact ⟨dir, l1, _, _, _, _, _, _, _, rfl⟩

theorem State.CopiesMove.sameRegs (h : s.CopiesMove t) : s.g.sameRegs t.g := by
  obtain ⟨_, _, _, _, _, _, _, _, _, rfl⟩ := h
  exact ⟨rfl, rfl, rfl, rfl, rfl, rfl, rfl, rfl, rfl, rfl, rfl, rfl, rfl, rfl⟩

theorem State.CopiesMove.mem (h : s.CopiesMove t) : t.mem = s.mem := by
  obtain ⟨_, _, _, _, _, _, _, _, _, rfl⟩ := h
  rfl

theorem State.CopiesMove.quiet (h : s.CopiesMove t) (q : s.Quiet) : t.Quiet := by
  obtain ⟨_, _, _, _, _, _, _, _, _, rfl⟩ := h
  exact ⟨q.defer, q.msgs, q.hostCopies⟩

theorem State.Quiet.deliverAll (q : s.Quiet) (line : Nat) : s.deliverAll line = s := by
  rw [State.deliverAll, q.msgs]
  rfl

theorem State.Quiet.deliverDie (q : s.Quiet) (core line : Nat) : s.deliverDie core line = s := by
  rw [State.deliverDie, q.msgs]
  rfl

/-! ### Home slices (R79, R80, R190) -/

/-- Where no host line is cached, a line that leaves its slice takes nothing with it but a RESIDENT-S wheel's residence. -/
theorem State.Quiet.evictL2 (q : s.Quiet) (line : Nat) : s.SlicesMove (s.evictL2 line) := by
  unfold State.evictL2
  extract_lets u
  have hnone : (u.hostCopies.find? fun h => h.line == line) = none := by
    have hu : u.hostCopies = [] := q.hostCopies
    rw [hu, List.find?_nil]
  rw [hnone]
  exact ⟨_, _, _, _, _, _, _, rfl⟩

theorem State.Quiet.l2Room (q : s.Quiet) (line : Nat) (ro : Bool) : s.SlicesMove (s.l2Room line ro) := by
  unfold State.l2Room
  extract_lets ways same
  split
  · exact .refl s
  · split
    · exact .refl s
    · split
      · exact q.evictL2 _
      · exact .refl s

/-- What every `bumpAs` begins with: the slice's clock advanced, and the transactions doomed where it has wrapped (R80). -/
def State.tickSlice (s : State) (line : Nat) : State :=
  let v := (s.die (homeDie line)).clocks.getD (homeSlice line) 0 + 1
  let s := s.updDie (homeDie line) fun x => { x with clocks := x.clocks.set (homeSlice line) v }
  if v = 0 then s.mapGroups (doomSlice (homeDie line) (homeSlice line)) else s

theorem State.tickSlice_slicesMove (s : State) (line : Nat) : s.SlicesMove (s.tickSlice line) := by
  unfold State.tickSlice
  extract_lets v u
  split
  · exact ⟨_, _, _, _, _, _, _, rfl⟩
  · exact ⟨_, _, _, _, _, _, _, rfl⟩

theorem State.tickSlice_l2 (s : State) (line : Nat) : (s.tickSlice line).l2 = s.l2 := by
  unfold State.tickSlice
  extract_lets v u
  split <;> rfl

theorem State.Quiet.bumpAs (q : s.Quiet) (line cache : Nat) : s.SlicesMove (s.bumpAs line cache) := by
  unfold State.bumpAs
  extract_lets d k v u w
  have htick : s.SlicesMove w := s.tickSlice_slicesMove line
  split
  · split
    · exact htick.trans ⟨_, _, _, _, _, _, _, rfl⟩
    · exact htick.trans ⟨_, _, _, _, _, _, _, rfl⟩
  · have hroom := (htick.copiesMove.quiet q).l2Room line (cache == 1)
    exact htick.trans (hroom.trans ⟨_, _, _, _, _, _, _, rfl⟩)

theorem State.Quiet.fillAs (q : s.Quiet) (line cache : Nat) : s.SlicesMove (s.fillAs line cache) := by
  unfold State.fillAs
  split
  · exact ⟨_, _, _, _, _, _, _, rfl⟩
  · exact q.bumpAs line cache

theorem modifyAt_clocks {f : Die → Die} (h : ∀ d, (f d).clocks = d.clocks) (n x : Nat) (ds : List Die) :
    ((modifyAt f n ds).getD x {}).clocks = (ds.getD x {}).clocks := by
  rw [modifyAt_getD]
  split
  · exact h _
  · rfl

/-- What is told to other modules of a write leaves the slices' lines and clocks as they are. -/
theorem State.compareModules_eq (s : State) (line : Nat) (old new : List Byte) :
    ∃ ds fo ma, s.compareModules line old new = { s with dies := ds, fabOut := fo, modAcks := ma } ∧
      ∀ x, (ds.getD x {}).clocks = (s.die x).clocks := by
  unfold State.compareModules
  split
  · exact ⟨_, _, _, rfl, fun _ => rfl⟩
  · extract_lets hit u left gone
    have htold : ∃ fo ma, u = { s with fabOut := fo, modAcks := ma } := by
      unfold u
      split
      · split
        · exact ⟨_, _, rfl⟩
        · exact ⟨_, _, rfl⟩
      · split
        · exact ⟨_, _, rfl⟩
        · exact ⟨_, _, rfl⟩
    obtain ⟨fo, ma, htold⟩ := htold
    rw [htold]
    refine ⟨_, fo, ma, rfl, fun x => modifyAt_clocks ?_ _ x s.dies⟩
    exact fun d => rfl

theorem State.compareModules_slicesMove (s : State) (line : Nat) (old new : List Byte) : s.SlicesMove (s.compareModules line old new) := by
  obtain ⟨ds, fo, ma, hcompare, -⟩ := s.compareModules_eq line old new
  rw [hcompare]
  exact ⟨_, _, _, _, _, _, _, rfl⟩

/-! ### Lines in M (R101, R103) -/

/-- A core holds a line in M. -/
def State.Owns (s : State) (core line : Nat) : Prop := ∃ d, s.dirOf line = some d ∧ d.state = .modified core

theorem State.any_owner_iff (s : State) (core line : Nat) :
    ((s.dirOf line).any fun d => decide (d.state = .modified core)) = true ↔ s.Owns core line := by
  simp [State.Owns, Option.any_eq_true]

/-- The entry of a line shared by the cluster of one core, at full precision. -/
def sharedBy (o line : Nat) : DirEntry := { line := line, state := .shared, rinds := [{ tag := .full, mask := BitVec.ofNat 32 (2 ^ clusterOf o) }] }

theorem State.recall_downgrade_of_owns {o line : Nat} (h : s.Owns o line) :
    s.recall line true = { s.writeBack o line with dir := setDir (sharedBy o line) (s.writeBack o line).dir } := by
  obtain ⟨⟨_, _, _, _, _⟩, hd, rfl⟩ := h
  simp only [State.recall, hd, if_true, sharedBy]

theorem State.recall_drop_of_owns {o line : Nat} (h : s.Owns o line) : s.recall line false =
    { s.writeBack o line with dir := (s.writeBack o line).dir.filter (fun d => d.line != line)
                              l1 := (s.writeBack o line).l1.filter fun c => !(c.core == o && c.line == line) } := by
  obtain ⟨⟨_, _, _, _, _⟩, hd, rfl⟩ := h
  simp only [State.recall, hd, Bool.false_eq_true, if_false]

theorem State.recall_of_unowned {line : Nat} (h : ∀ o, ¬s.Owns o line) (downgrade : Bool) : s.recall line downgrade = s := by
  unfold State.recall
  split
  · next o _ _ _ hd => exact absurd ⟨_, hd, rfl⟩ (h o)
  · rfl

/-- A copy without its dirty bytes. -/
def L1Line.clean (c : L1Line) : L1Line := { c with dirty := 0, base := [], version := none }

theorem State.writeBack_of_none {core line : Nat} (h : s.l1Of core line = none) : s.writeBack core line = s := by
  simp only [State.writeBack, h]

theorem State.writeBack_of_clean {core line : Nat} {c : L1Line} (h : s.l1Of core line = some c) (hd : c.dirty = 0) : s.writeBack core line = s := by
  simp only [State.writeBack, h, if_pos hd]

theorem State.Quiet.writeBack_of_dirty (q : s.Quiet) {core line : Nat} {c : L1Line} (h : s.l1Of core line = some c) (hd : c.dirty ≠ 0) :
    State.SlicesMove { s with l1 := setL1 c.clean s.l1 } (s.writeBack core line) := by
  have q' : State.Quiet { s with l1 := setL1 c.clean s.l1 } := ⟨q.defer, q.msgs, q.hostCopies⟩
  simp only [State.writeBack, h, if_neg hd, State.bump]
  split
  · exact q'.bumpAs line 0
  · have hcompare := State.compareModules_slicesMove { s with l1 := setL1 c.clean s.l1 } line c.base
      (State.lineBytes { s with l1 := setL1 c.clean s.l1 } line)
    exact hcompare.trans ((hcompare.copiesMove.quiet q').bumpAs line 0)

theorem State.Quiet.writeBack (q : s.Quiet) (core line : Nat) : s.CopiesMove (s.writeBack core line) ∧ (s.writeBack core line).dir = s.dir := by
  cases hc : s.l1Of core line with
  | none => simpa only [State.writeBack_of_none hc, and_true] using .refl s
  | some c =>
    by_cases hd : c.dirty = 0
    · simpa only [State.writeBack_of_clean hc hd, and_true] using .refl s
    · have hback := q.writeBack_of_dirty hc hd
      exact ⟨⟨_, _, hback⟩, hback.dir⟩

theorem State.Quiet.dirty_writeBack (q : s.Quiet) {core line : Nat} {c : L1Line} (h : (s.writeBack core line).l1Of core line = some c) : c.dirty = 0 := by
  cases hc : s.l1Of core line with
  | none =>
    rw [State.writeBack_of_none hc, hc] at h
    cases h
  | some b =>
    by_cases hd : b.dirty = 0
    · rw [State.writeBack_of_clean hc hd, hc] at h
      cases h
      exact hd
    · obtain ⟨rfl, rfl⟩ := State.place_of_l1Of hc
      rw [(q.writeBack_of_dirty hc hd).l1Of] at h
      have hclean : State.l1Of { s with l1 := setL1 b.clean s.l1 } b.core b.line = some b.clean := find?_setL1 b.clean s.l1
      cases hclean.symm.trans h
      rfl

theorem State.Quiet.recall (q : s.Quiet) (line : Nat) (downgrade : Bool) : s.CopiesMove (s.recall line downgrade) := by
  by_cases h : ∃ o, s.Owns o line
  · obtain ⟨o, h⟩ := h
    obtain ⟨hback, -⟩ := q.writeBack o line
    cases downgrade with
    | true => exact State.recall_downgrade_of_owns h ▸ hback.trans (State.copiesMove_dir_l1 ..)
    | false => exact State.recall_drop_of_owns h ▸ hback.trans (State.copiesMove_dir_l1 ..)
  · rw [State.recall_of_unowned (not_exists.1 h)]
    exact .refl s

/-- A recall that does not downgrade takes a line in M from its owner and from the directory. -/
theorem State.recall_drops {o line : Nat} (h : s.Owns o line) :
    (s.recall line false).dirOf line = none ∧ (s.recall line false).l1Of o line = none := by
  rw [State.recall_drop_of_owns h]
  exact ⟨find?_filter_not (fun d : DirEntry => d.line == line) _, find?_filter_not (fun c : L1Line => c.core == o && c.line == line) _⟩

/-- It leaves the other lines' entries as they are. -/
theorem State.Quiet.dirOf_recall_ne (q : s.Quiet) {line x : Nat} (h : x ≠ line) : (s.recall line false).dirOf x = s.dirOf x := by
  by_cases ho : ∃ o, s.Owns o line
  · obtain ⟨o, ho⟩ := ho
    obtain ⟨-, hdir⟩ := q.writeBack o line
    rw [State.recall_drop_of_owns ho, hdir]
    exact find?_filter_of_imp (fun d hd => bne_iff_ne.2 (beq_iff_eq.1 hd ▸ h)) s.dir
  · rw [State.recall_of_unowned (not_exists.1 ho)]

/-- After it no core holds the line in M. -/
theorem State.not_owns_recall (s : State) (line o : Nat) : ¬(s.recall line false).Owns o line := by
  rintro ⟨d, hd, hstate⟩
  by_cases ho : ∃ o, s.Owns o line
  · obtain ⟨o, ho⟩ := ho
    rw [(State.recall_drops ho).1] at hd
    cases hd
  · rw [State.recall_of_unowned (not_exists.1 ho)] at hd
    exact ho ⟨o, d, hd, hstate⟩

/-- A recall that downgrades leaves the line shared, by the owner's cluster at full precision, and the owner's copy clean. -/
theorem State.Quiet.recall_downgrades (q : s.Quiet) {o line : Nat} (h : s.Owns o line) :
    (s.recall line true).dirOf line = some (sharedBy o line) ∧ ∀ c, (s.recall line true).l1Of o line = some c → c.dirty = 0 := by
  rw [State.recall_downgrade_of_owns h]
  exact ⟨find?_setDir (sharedBy o line) _, fun c hc => q.dirty_writeBack hc⟩

/-! ### Copies in the L1s (R66, R67) -/

theorem State.Quiet.evictL1 (q : s.Quiet) (c : L1Line) : s.CopiesMove (s.evictL1 c) := by
  unfold State.evictL1
  split
  · exact q.recall c.line false
  · exact s.copiesMove_dir_l1 ..

theorem State.Quiet.dirOf_evictL1_ne (q : s.Quiet) {c : L1Line} {x : Nat} (h : x ≠ c.line) : (s.evictL1 c).dirOf x = s.dirOf x := by
  unfold State.evictL1
  split
  · exact q.dirOf_recall_ne h
  · rfl

/-- Room for a copy is made by evicting no copy, or one of the core's of another line. -/
theorem State.l1Room_cases (s : State) (core line : Nat) : s.l1Room core line = s ∨ ∃ c, c.line ≠ line ∧ s.l1Room core line = s.evictL1 c := by
  unfold State.l1Room
  extract_lets n ways
  split
  · exact .inl rfl
  · next hroom =>
    split
    · exact .inl rfl
    · split
      · next c hc =>
        have hmem : c ∈ ways := by
          rcases Option.or_eq_some_iff.1 hc with hfind | ⟨-, hhead⟩
          · exact List.mem_of_find?_eq_some hfind
          · exact List.mem_of_mem_head? hhead
        refine .inr ⟨c, fun hline => hroom ?_, rfl⟩
        obtain ⟨hl1, hway⟩ := List.mem_filter.1 hmem
        simp only [Bool.and_eq_true] at hway
        simp only [Bool.or_eq_true]
        right
        exact List.find?_isSome.2 ⟨c, hl1, by simp [hway.1, hline]⟩
      · exact .inl rfl

theorem State.Quiet.l1Room (q : s.Quiet) (core line : Nat) : s.CopiesMove (s.l1Room core line) ∧ (s.l1Room core line).dirOf line = s.dirOf line := by
  rcases s.l1Room_cases core line with h | ⟨c, hline, h⟩
  · simpa only [h, and_true] using .refl s
  · rw [h]
    exact ⟨q.evictL1 c, q.dirOf_evictL1_ne (Ne.symm hline)⟩

/-- A core that holds a line has room for it. -/
theorem State.l1Room_of_held {core line : Nat} {c : L1Line} (h : s.l1Of core line = some c) : s.l1Room core line = s := by
  simp [State.l1Room, h]

/-- The copies with one put in place of what its core held of the line (R67). -/
theorem State.putL1_eq (s : State) (c : L1Line) (cache : Nat) : ∃ keep l1, s.putL1 c cache = { s.l1Room c.core c.line with l1 := l1 } ∧
    (l1.find? fun x => x.core == c.core && x.line == c.line) = some { c with keep := keep } := by
  unfold State.putL1
  extract_lets u was keep rest
  refine ⟨keep, _, rfl, ?_⟩
  have hrest : rest.find? (fun x => x.core == c.core && x.line == c.line) = none :=
    find?_filter_not (fun x : L1Line => x.core == c.core && x.line == c.line) _
  split
  · simp
  · simp [List.find?_append, hrest]

/-- Putting a copy in place moves copies, leaves the line's entry in the directory, and its core holds it. -/
theorem State.Quiet.putL1 (q : s.Quiet) (c : L1Line) (cache : Nat) : s.CopiesMove (s.putL1 c cache) ∧ (s.putL1 c cache).dirOf c.line = s.dirOf c.line ∧
    ∃ keep, (s.putL1 c cache).l1Of c.core c.line = some { c with keep := keep } := by
  obtain ⟨keep, _, hput, hfind⟩ := s.putL1_eq c cache
  obtain ⟨hroom, hdir⟩ := q.l1Room c.core c.line
  rw [hput]
  exact ⟨hroom.trans (State.copiesMove_dir_l1 ..), hdir, keep, hfind⟩

/-- A copy of a line that its core holds needs no room, so the directory stays. -/
theorem State.dir_putL1_of_held {b c : L1Line} (h : s.l1Of c.core c.line = some b) (cache : Nat) : (s.putL1 c cache).dir = s.dir := by
  obtain ⟨_, _, hput, -⟩ := s.putL1_eq c cache
  rw [hput, State.l1Room_of_held h]

/-! ### Room in the directory (R87) -/

theorem State.Quiet.invalidateLine (q : s.Quiet) (line : Nat) : s.CopiesMove (s.invalidateLine line) := by
  have hrecall := q.recall line false
  unfold State.invalidateLine State.dropCopies
  rw [(hrecall.quiet q).deliverAll]
  exact hrecall.trans (State.copiesMove_dir_l1 ..)

theorem State.Quiet.dirRoom (q : s.Quiet) (line : Nat) : s.CopiesMove (s.dirRoom line) := by
  unfold State.dirRoom
  extract_lets same
  split
  · exact .refl s
  · split
    · exact .refl s
    · split
      · exact q.invalidateLine _
      · exact .refl s

/-! ### A load at the directory (R94, R95, R101) -/

theorem laneOn_two_pow {n : Nat} (h : n < 32) : laneOn (BitVec.ofNat 32 (2 ^ n)) n = true := by
  rw [laneOn, ← BitVec.testBit_toNat, BitVec.toNat_ofNat, Nat.mod_eq_of_lt (Nat.pow_lt_pow_right (by decide) h), Nat.testBit_two_pow_self]

theorem laneOn_foldl_or {n : Nat} (rs : List Rind) {m : W32} (h : laneOn m n = true) : laneOn (rs.foldl (fun m r => m ||| r.mask) m) n = true := by
  induction rs generalizing m with
  | nil => exact h
  | cons r rs ih =>
    refine ih ?_
    rw [laneOn, BitVec.getLsbD_or, Bool.or_eq_true]
    exact .inl h

/-- A cluster that is added to the sharers stands in the rind of the format it asked for, or the line has collapsed (R95, R96). -/
theorem addSharer_holds (d : DirEntry) {cluster : Nat} (h : cluster < 32) (t : Tag) :
    ((addSharer d cluster t).rinds.any fun r => laneOn r.mask cluster && (r.tag == t || (addSharer d cluster t).col)) = true := by
  have hbit := laneOn_two_pow h
  have htag : ((if d.col then Tag.full else t) == t || d.col) = true := by cases d.col <;> simp
  unfold addSharer
  extract_lets bit tag
  split
  · next hrind =>
    obtain ⟨r, hr, hrtag⟩ := List.any_eq_true.1 hrind
    refine List.any_eq_true.2 ⟨_, List.mem_map.2 ⟨r, hr, rfl⟩, ?_⟩
    have hon : laneOn (r.mask ||| bit) cluster = true := by
      simp only [laneOn, BitVec.getLsbD_or, Bool.or_eq_true]
      exact .inr hbit
    rw [if_pos hrtag, hon, Bool.true_and, beq_iff_eq.1 hrtag]
    exact htag
  · split
    · exact List.any_eq_true.2 ⟨_, List.mem_append_right _ (List.mem_singleton.2 rfl), by rw [hbit, Bool.true_and]; exact htag⟩
    · exact List.any_eq_true.2 ⟨_, List.mem_singleton.2 rfl, by rw [laneOn_foldl_or _ hbit, Bool.or_true, Bool.and_true]⟩

theorem addSharer_line (d : DirEntry) (cluster : Nat) (t : Tag) : (addSharer d cluster t).line = d.line := by
  unfold addSharer
  extract_lets bit tag
  split
  · rfl
  · split <;> rfl

theorem addSharer_state (d : DirEntry) (cluster : Nat) (t : Tag) : (addSharer d cluster t).state = d.state := by
  unfold addSharer
  extract_lets bit tag
  split
  · rfl
  · split <;> rfl

/-- An owner that asks for the whole line keeps it in M, and its dirty bytes (R66). -/
theorem State.Quiet.dirLoad_own (q : s.Quiet) {core line : Nat} {c : L1Line} (h : s.Owns core line) (hc : s.l1Of core line = some c)
    (upd : Bool) (cache : Nat) :
    s.CopiesMove (s.dirLoad core line .full upd cache) ∧ (s.dirLoad core line .full upd cache).dir = s.dir ∧
      ∃ x, (s.dirLoad core line .full upd cache).l1Of core line = some x ∧ x.valid = BitVec.allOnes 64 ∧ x.dirty = c.dirty := by
  obtain ⟨rfl, rfl⟩ := State.place_of_l1Of hc
  obtain ⟨⟨_, _, _, _, _⟩, hd, rfl⟩ := h
  have hfill := q.fillAs c.line cache
  have hc' : (s.fillAs c.line cache).l1Of c.core c.line = some c := by rw [hfill.l1Of, hc]
  have hload : s.dirLoad c.core c.line .full upd cache = (s.fillAs c.line cache).putL1
      { c with valid := BitVec.allOnes 64, version := (s.fillAs c.line cache).versionOf c.line } cache := by
    simp [State.dirLoad, hd, q.deliverAll, hc']
  rw [hload]
  obtain ⟨hput, -, _, hnew⟩ := (hfill.copiesMove.quiet q).putL1
    { c with valid := BitVec.allOnes 64, version := (s.fillAs c.line cache).versionOf c.line } cache
  exact ⟨hfill.copiesMove.trans hput, (State.dir_putL1_of_held hc' cache).trans hfill.dir, _, hnew, rfl, rfl⟩

/-- Any other request leaves the core with a clean copy at its format, and its cluster among the sharers (R94, R95, R101). -/
theorem State.Quiet.dirLoad_reply (q : s.Quiet) {core line : Nat} {t : Tag} (h : ¬(s.Owns core line ∧ t = .full)) (hcore : core < 128) (upd : Bool) :
    s.CopiesMove (s.dirLoad core line t upd 0) ∧
      (∃ c, (s.dirLoad core line t upd 0).l1Of core line = some c ∧ c.tag = t ∧ c.valid = BitVec.allOnes 64 ∧ c.dirty = 0 ∧ c.stale = none) ∧
      ∃ d, (s.dirLoad core line t upd 0).dirOf line = some d ∧ d.state = .shared ∧
        (d.rinds.any fun r => laneOn r.mask (clusterOf core) && (r.tag == t || d.col)) = true := by
  have hrecall := q.recall line true
  have hfill := ((hrecall.quiet q).fillAs line 0).copiesMove
  have hroom := ((hrecall.trans hfill).quiet q).dirRoom line
  unfold State.dirLoad
  rw [q.deliverAll]
  extract_lets own u f r d₀ d v
  have hmove : s.CopiesMove v := ((hrecall.trans hfill).trans hroom).trans (State.copiesMove_dir_l1 ..)
  have hfull : ¬(own && t == .full) = true := by
    rw [Bool.and_eq_true, beq_iff_eq]
    refine fun ho => h ⟨?_, ho.2⟩
    have hown := ho.1
    unfold own at hown
    split at hown
    · next o _ _ _ hd => exact ⟨_, hd, by rw [beq_iff_eq.1 hown]⟩
    · cases hown
  have hline : d.line = line := by
    refine (addSharer_line ..).trans ?_
    unfold d₀
    cases hr : r.dirOf line with
    | none => rfl
    | some e => exact (State.line_of_dirOf hr : e.line = line)
  have hentry : v.dirOf line = some d := by
    have hset := find?_setDir d r.dir
    rwa [hline] at hset
  rw [if_neg hfull, if_neg (fun hc => absurd hc.1 (by decide))]
  obtain ⟨hput, hkept, _, hnew⟩ := (hmove.quiet q).putL1
    { core := core, line := line, tag := t, valid := BitVec.allOnes 64, dirty := 0, version := v.versionOf line } 0
  refine ⟨hmove.trans hput, ⟨_, hnew, rfl, rfl, rfl, rfl⟩, d, hkept.trans hentry, addSharer_state .., addSharer_holds _ ?_ t⟩
  unfold clusterOf
  omega

/-! ### Writes (R97, R98) -/

/-- The memory is `m`, and the vector and uniform registers of the issuing group are as before; nothing is on its way. -/
structure State.Wrote (s : State) (m : Cells) (t : State) : Prop where
  mem : t.mem = m
  v : t.g.v = s.g.v
  s : t.g.s = s.g.s
  quiet : t.Quiet

theorem State.CopiesMove.wrote {m : Cells} (h : s.CopiesMove t) (w : t.Wrote m u) : s.Wrote m u := by
  obtain ⟨hv, hs, -⟩ := h.sameRegs
  exact ⟨w.mem, w.v.trans hv, w.s.trans hs, w.quiet⟩

theorem State.Wrote.copiesMove {m : Cells} (w : s.Wrote m t) (h : t.CopiesMove u) : s.Wrote m u := by
  obtain ⟨hv, hs, -⟩ := h.sameRegs
  exact ⟨h.mem.trans w.mem, hv.trans w.v, hs.trans w.s, h.quiet w.quiet⟩

theorem Group.refill_regs (clock : Nat) (g : Group) : (g.refill clock).v = g.v ∧ (g.refill clock).s = g.s := by
  unfold Group.refill
  extract_lets h
  have hh : h.v = g.v ∧ h.s = g.s := by
    unfold h
    split
    · exact ⟨rfl, rfl⟩
    · split <;> exact ⟨rfl, rfl⟩
  split
  · exact hh
  · split <;> exact hh

theorem wakeMonitors_regs (line clock : Nat) (g : Group) : (wakeMonitors line clock g).v = g.v ∧ (wakeMonitors line clock g).s = g.s := by
  unfold wakeMonitors
  split
  · exact Group.refill_regs ..
  · exact ⟨rfl, rfl⟩

/-- Monitors that wake take slots of their groups, and no register changes (R206). -/
theorem State.wake_eq (s : State) (pa n : Nat) : ∃ g gs, s.wake pa n = { s with g := g, groups := gs } ∧ g.v = s.g.v ∧ g.s = s.g.s := by
  unfold State.wake
  induction linesOf pa n generalizing s with
  | nil => exact ⟨_, _, rfl, rfl, rfl⟩
  | cons line lines ih =>
    obtain ⟨g, gs, hwake, hv, hs⟩ := ih (s.mapGroups (wakeMonitors line s.clock))
    obtain ⟨hv', hs'⟩ := wakeMonitors_regs line s.clock s.g
    exact ⟨g, gs, hwake, hv.trans hv', hs.trans hs'⟩

/-- What ends a write: poison ends where it was, and monitors wake (R86, R206). -/
theorem State.unpoison_wake_eq (s : State) (pa n : Nat) :
    ∃ g gs p, (s.unpoison pa n).wake pa n = { s with g := g, groups := gs, poison := p } ∧ g.v = s.g.v ∧ g.s = s.g.s := by
  obtain ⟨g, gs, hwake, hregs⟩ := (s.unpoison pa n).wake_eq pa n
  exact ⟨g, gs, _, hwake, hregs⟩

theorem State.Wrote.unpoison_wake {m : Cells} (w : s.Wrote m t) (pa n : Nat) : s.Wrote m ((t.unpoison pa n).wake pa n) := by
  obtain ⟨g, gs, p, hend, hv, hs⟩ := t.unpoison_wake_eq pa n
  rw [hend]
  exact ⟨w.mem, hv.trans w.v, hs.trans w.s, w.quiet.defer, w.quiet.msgs, w.quiet.hostCopies⟩

@[simp] theorem State.dirOf_unpoison_wake (s : State) (pa n : Nat) : ((s.unpoison pa n).wake pa n).dirOf = s.dirOf := by
  obtain ⟨g, gs, p, hend, -⟩ := s.unpoison_wake_eq pa n
  rw [hend]
  rfl

@[simp] theorem State.l1Of_unpoison_wake (s : State) (pa n : Nat) : ((s.unpoison pa n).wake pa n).l1Of = s.l1Of := by
  obtain ⟨g, gs, p, hend, -⟩ := s.unpoison_wake_eq pa n
  rw [hend]
  rfl

@[simp] theorem State.versionOf_unpoison_wake (s : State) (pa n : Nat) : ((s.unpoison pa n).wake pa n).versionOf = s.versionOf := by
  obtain ⟨g, gs, p, hend, -⟩ := s.unpoison_wake_eq pa n
  rw [hend]
  rfl

theorem State.Quiet.lineWrite (q : s.Quiet) (pa : Nat) (bs : List Byte) : s.lineWrite pa bs = { s with mem := s.mem.writeBytes pa bs } := by
  simp [State.lineWrite, q.hostCopies]

theorem State.Quiet.wrote_lineWrite (q : s.Quiet) (pa : Nat) (bs : List Byte) : s.Wrote (s.mem.writeBytes pa bs) (s.lineWrite pa bs) := by
  rw [q.lineWrite]
  exact ⟨rfl, rfl, rfl, q.defer, q.msgs, q.hostCopies⟩

theorem State.Quiet.dirOf_lineWrite (q : s.Quiet) (pa : Nat) (bs : List Byte) : (s.lineWrite pa bs).dirOf = s.dirOf := by
  rw [q.lineWrite]
  rfl

theorem State.Quiet.send (q : s.Quiet) (writer : Option Nat) (line : Nat) (mask : W32) (tag : Tag) (all upd : Bool) (old new : List Byte) :
    ∃ l1, s.send writer line mask tag all upd old new = { s with l1 := l1 } := by
  simp only [State.send, q.defer, Bool.false_eq_true, if_false]
  split <;> exact ⟨_, rfl⟩

theorem State.compareWrite_of_none {writer : Option Nat} {line : Nat} {old new : List Byte} (h : s.dirOf line = none) :
    s.compareWrite writer line old new = s := by
  simp only [State.compareWrite, h]

theorem State.Quiet.sends (q : s.Quiet) (writer : Option Nat) (line : Nat) (all upd : Bool) (old new : List Byte) (rs : List Rind) :
    ∃ l1, rs.foldl (fun u r => u.send writer line r.mask r.tag all upd old new) s = { s with l1 := l1 } := by
  induction rs generalizing s with
  | nil => exact ⟨s.l1, rfl⟩
  | cons r rs ih =>
    obtain ⟨l1, hsend⟩ := q.send writer line r.mask r.tag all upd old new
    rw [List.foldl_cons, hsend]
    exact ih ⟨q.defer, q.msgs, q.hostCopies⟩

/-- The comparison of a write moves copies, and makes no core an owner of the line. -/
theorem State.Quiet.compareWrite (q : s.Quiet) (writer : Option Nat) (line : Nat) (old new : List Byte) :
    s.CopiesMove (s.compareWrite writer line old new) ∧ ∀ o, (s.compareWrite writer line old new).Owns o line → s.Owns o line := by
  cases hd : s.dirOf line with
  | none =>
    rw [State.compareWrite_of_none hd]
    exact ⟨.refl s, fun _ => id⟩
  | some d =>
    obtain ⟨l1, hsent⟩ := q.sends writer line d.col d.upd old new (d.rinds.filter fun r => disturbs r.tag old new)
    simp only [State.compareWrite, hd, hsent]
    split
    · exact ⟨s.copiesMove_dir_l1 s.dir l1, fun _ => id⟩
    · refine ⟨s.copiesMove_dir_l1 _ l1, fun o ⟨e, he, hstate⟩ => ?_⟩
      obtain rfl := State.line_of_dirOf hd
      cases (find?_setDir { d with rinds := d.rinds.filter fun r => !disturbs r.tag old new } s.dir).symm.trans he
      exact ⟨d, hd, hstate⟩

theorem State.Owns.of_dirOf {o line : Nat} (h : t.Owns o line) (hd : t.dirOf = s.dirOf) : s.Owns o line := by
  unfold State.Owns at h ⊢
  rwa [hd] at h

/-- A write at a home slice: the bytes are in memory, and no core holds the line in M (R98, R103). -/
theorem State.Quiet.sliceWriteBy (q : s.Quiet) (writer : Option Nat) (cache pa : Nat) (bs : List Byte) :
    s.Wrote (s.mem.writeBytes pa bs) (s.sliceWriteBy writer cache pa bs) ∧ ∀ o, ¬(s.sliceWriteBy writer cache pa bs).Owns o (lineOf pa) := by
  unfold State.sliceWriteBy
  extract_lets line u k f old new w
  have hu : u = s.recall line false := by
    unfold u
    rw [q.deliverAll]
  have hrecall : s.CopiesMove u := hu ▸ q.recall line false
  have hfill : u.SlicesMove (f.compareModules line old new) := ((hrecall.quiet q).fillAs line k).trans (f.compareModules_slicesMove line old new)
  obtain ⟨hcompare, howns⟩ := ((hrecall.trans hfill.copiesMove).quiet q).compareWrite writer line old new
  have hw : s.CopiesMove w := (hrecall.trans hfill.copiesMove).trans hcompare
  have hmerge := (hw.quiet q).wrote_lineWrite pa bs
  have hbump := hmerge.quiet.bumpAs line k
  rw [hw.mem] at hmerge
  refine ⟨(hw.wrote (hmerge.copiesMove hbump.copiesMove)).unpoison_wake pa bs.length, fun o ho => ?_⟩
  have hdir := hbump.dirOf.trans ((hw.quiet q).dirOf_lineWrite pa bs)
  rw [← State.dirOf_unpoison_wake] at hdir
  exact s.not_owns_recall line o (hu ▸ (howns o (ho.of_dirOf hdir)).of_dirOf hfill.dirOf)

/-- The slice's clock gives its new value to a line that the slice holds (R80). -/
theorem State.versionOf_bumpAs {line : Nat} (h : (s.versionOf line).isSome = true) :
    (s.bumpAs line 0).versionOf line = some ((s.die (homeDie line)).clocks.getD (homeSlice line) 0 + 1) := by
  obtain ⟨l, hl⟩ : ∃ l, (s.l2.find? fun l => l.line == line) = some l := by
    simpa [State.versionOf, Option.isSome_iff_exists] using h
  unfold State.bumpAs
  extract_lets d k v u w
  have hticked : w.l2 = s.l2 := s.tickSlice_l2 line
  have hw : w.l2.find? (fun l => l.line == line) = some l := by rw [hticked, hl]
  have hline : l.line = line := State.line_of_find_l2 hl
  have hrest : (w.l2.filter fun l => l.line != line).find? (fun l => l.line == line) = none :=
    find?_filter_not (fun l : L2Line => l.line == line) w.l2
  rw [hw]
  simp only [State.versionOf]
  rw [if_neg (by decide), List.find?_append, hrest]
  simp [hline, v, d, k]

theorem State.fillAs_of_held {line cache : Nat} (h : (s.versionOf line).isSome = true) :
    ∃ l2, s.fillAs line cache = { s with l2 := l2 } ∧ (State.versionOf { s with l2 := l2 } line).isSome = true := by
  obtain ⟨l, hl⟩ : ∃ l, (s.l2.find? fun l => l.line == line) = some l := by
    simpa [State.versionOf, Option.isSome_iff_exists] using h
  refine ⟨s.l2.filter (fun l => l.line != line) ++ [l], by simp only [State.fillAs, hl], ?_⟩
  simp [State.versionOf, State.line_of_find_l2 hl]

/-- A write at the home slice of a line that it holds, of which no core has a copy, gives the line the slice's next version (R80, R98). -/
theorem State.Quiet.versionOf_sliceWriteBy (q : s.Quiet) (writer : Option Nat) (cache : Nat) {pa : Nat} (bs : List Byte)
    (hd : s.dirOf (lineOf pa) = none) (hv : (s.versionOf (lineOf pa)).isSome = true) :
    (s.sliceWriteBy writer cache pa bs).versionOf (lineOf pa) =
      some ((s.die (homeDie (lineOf pa))).clocks.getD (homeSlice (lineOf pa)) 0 + 1) := by
  unfold State.sliceWriteBy
  extract_lets line u k f old new w
  have hu : u = s := by
    unfold u
    rw [q.deliverAll]
    exact State.recall_of_unowned (fun o ⟨d, hd', _⟩ => by rw [hd] at hd'; cases hd') false
  have hk : k = 0 := if_pos (hu ▸ hv)
  obtain ⟨l2, hf, hheld⟩ := s.fillAs_of_held (cache := k) hv
  obtain ⟨ds, fo, ma, hcompare, hclocks⟩ := f.compareModules_eq line old new
  have hf' : f = { s with l2 := l2 } := by rw [← hf, ← hu]
  have hdie : (ds.getD (homeDie line) {}).clocks = (s.die (homeDie line)).clocks := by rw [hclocks, hf']; rfl
  have hw : w = { s with l2 := l2, dies := ds, fabOut := fo, modAcks := ma } := by
    unfold w
    rw [hcompare, hf']
    exact State.compareWrite_of_none hd
  have qw : w.Quiet := by rw [hw]; exact ⟨q.defer, q.msgs, q.hostCopies⟩
  rw [State.versionOf_unpoison_wake, hk, qw.lineWrite, hw]
  refine (State.versionOf_bumpAs ?_).trans ?_
  · exact hheld
  · exact congrArg (fun cs : List W32 => some (cs.getD (homeSlice line) 0 + 1)) hdie

/-- A core that takes a line in M holds it at full precision with its bytes dirty, and they are in memory (R66, R89, R97). -/
theorem State.Quiet.takeOwned (q : s.Quiet) (core line cache : Nat) (valid dirty bm : W64) (pa : Nat) (bs : List Byte) :
    s.Wrote (s.mem.writeBytes pa bs) (s.takeOwned core line cache valid dirty bm pa bs) ∧
      (s.takeOwned core line cache valid dirty bm pa bs).dirOf line = some { line := line, state := .modified core } ∧
      ∃ c, (s.takeOwned core line cache valid dirty bm pa bs).l1Of core line = some c ∧ c.tag = .full ∧ c.dirty = dirty ||| bm := by
  unfold State.takeOwned
  extract_lets u base v
  have hothers : s.CopiesMove u := s.copiesMove_dir_l1 ..
  have hmerge := (hothers.quiet q).wrote_lineWrite pa bs
  rw [hothers.mem] at hmerge
  obtain ⟨hput, -, _, hnew⟩ := hmerge.quiet.putL1
    { core := core, line := line, tag := .full, valid := valid ||| bm, dirty := dirty ||| bm, base := base } cache
  have hentry : v.CopiesMove { v with dir := setDir { line := line, state := .modified core } v.dir } := v.copiesMove_dir_l1 ..
  rw [State.dirOf_unpoison_wake, State.l1Of_unpoison_wake]
  exact ⟨(hothers.wrote ((hmerge.copiesMove hput).copiesMove hentry)).unpoison_wake pa bs.length,
    find?_setDir { line := line, state := .modified core } v.dir, _, hnew, rfl, rfl⟩

theorem State.Quiet.storeThrough (q : s.Quiet) (core cache : Nat) (keep : Bool) (valid bm : W64) (pa : Nat) (bs : List Byte) :
    s.Wrote (s.mem.writeBytes pa bs) (s.storeThrough core cache keep valid bm pa bs) := by
  unfold State.storeThrough
  extract_lets line u r d v
  have hu : s.Wrote (s.mem.writeBytes pa bs) u := (q.sliceWriteBy ..).1
  have hroom := hu.quiet.dirRoom line
  have hput := ((hroom.quiet hu.quiet).putL1 { core := core, line := line, tag := .full, valid := valid ||| bm, dirty := 0 } cache).1
  have hv : s.Wrote (s.mem.writeBytes pa bs) v := by
    unfold v
    split
    · exact hu.copiesMove ((hroom.trans hput).trans (State.copiesMove_dir_l1 ..))
    · exact hu
  rw [hv.quiet.deliverDie]
  exact hv

/-- A store from an L1: its bytes are in memory, and where no core had a copy of the line the core owns it (R97). -/
theorem State.Quiet.l1StoreLine (q : s.Quiet) (core pa : Nat) (bs : List Byte) :
    s.Wrote (s.mem.writeBytes pa bs) (s.l1StoreLine core 0 pa bs) ∧
      (s.dirOf (lineOf pa) = none → (s.l1StoreLine core 0 pa bs).dirOf (lineOf pa) = some { line := lineOf pa, state := .modified core } ∧
        ∃ c, (s.l1StoreLine core 0 pa bs).l1Of core (lineOf pa) = some c ∧ c.tag = .full ∧ c.dirty = byteMask (pa - lineOf pa) bs.length) := by
  unfold State.l1StoreLine
  extract_lets line bm d u own valid keep
  have hd : d = s := q.deliverAll line
  have hdir : u.dirOf = s.dirOf := (congrArg State.dirOf hd : d.dirOf = s.dirOf)
  have hu : s.CopiesMove u := hd ▸ d.copiesMove_dir_l1 ..
  have qu := hu.quiet q
  have hmem : s.mem.writeBytes pa bs = u.mem.writeBytes pa bs := congrArg (fun m : Cells => m.writeBytes pa bs) hu.mem.symm
  rw [hmem, ← hdir]
  split
  · next o _ _ _ hm =>
    refine ⟨hu.wrote ?_, fun hnone => by rw [hm] at hnone; cases hnone⟩
    split
    · exact (qu.takeOwned ..).1
    · have hrecall := qu.recall line false
      rw [if_neg (by decide), ← hrecall.mem]
      exact hrecall.wrote ((hrecall.quiet qu).takeOwned ..).1
  · next e _ he =>
    refine ⟨hu.wrote ?_, fun hnone => by rw [he] at hnone; cases hnone⟩
    split
    · exact qu.storeThrough ..
    · exact (qu.takeOwned ..).1
  · have hroom := qu.dirRoom line
    rw [if_neg (by decide), ← hroom.mem]
    obtain ⟨hwrote, hentry, c, hc, htag, hdirty⟩ := (hroom.quiet qu).takeOwned core line 0 0 0 bm pa bs
    exact ⟨hu.wrote (hroom.wrote hwrote), fun _ => ⟨hentry, c, hc, htag, hdirty.trans (BitVec.zero_or ..)⟩⟩

/-- A run of bytes within one line is not cut. -/
theorem splitLines_of_line {pa : Nat} {bs : List Byte} (hne : bs ≠ []) (hline : pa / 64 = (pa + bs.length - 1) / 64) :
    splitLines pa bs = [(pa, bs)] := by
  have hpos := List.length_pos_iff.2 hne
  have hlines : linesOf pa bs.length = [lineOf pa] := by simp [linesOf, ← hline]
  have hlo : ¬pa < lineOf pa := by unfold lineOf; omega
  have hhi : (if pa + bs.length < lineOf pa + 64 then pa + bs.length else lineOf pa + 64) = pa + bs.length := by
    unfold lineOf
    split <;> omega
  simp [splitLines, hlines, hlo, hhi]

theorem State.l1Store_of_line {pa : Nat} {bs : List Byte} (hne : bs ≠ []) (hline : pa / 64 = (pa + bs.length - 1) / 64) (core cache : Nat) :
    s.l1Store core cache pa bs = s.l1StoreLine core cache pa bs := by
  rw [State.l1Store, if_neg (by simpa using hne), splitLines_of_line hne hline]
  rfl

theorem State.sliceWrite_of_line {pa : Nat} {bs : List Byte} (hne : bs ≠ []) (hline : pa / 64 = (pa + bs.length - 1) / 64) :
    s.sliceWrite pa bs = s.sliceWriteBy none 0 pa bs := by
  rw [State.sliceWrite, if_neg (by simpa using hne), splitLines_of_line hne hline]
  rfl

theorem sub_lineOf (pa : Nat) : pa - lineOf pa = pa % 64 := by
  unfold lineOf
  omega

theorem State.route_of_cacheable {pa : Nat} (h : s.cacheable pa = true) : s.route 0 pa = .plain := by
  simp only [State.cacheable, Bool.and_eq_true, decide_eq_true_eq] at h
  exact h.2

end

end Sys2Proof.Machine
end

section
/-!
The events of the directory (R94 to R103): for each, the one operation that it performs when its conditions hold, and what O43 says of it from the laws
of that operation.
-/
namespace Sys2Proof.Machine
open Sys2Proof

section
variable {s : State}

/-! ### What each event performs -/

theorem exec_dirLoadRequest {core pa : Nat} (h : s.cacheable pa = true) (hcore : core < 128) (tag : Tag) (upd : Bool) :
    exec (.dirLoadRequest core pa tag upd) s = .next (s.dirLoad core (lineOf pa) tag upd 0) :=
  congrArg Host.Outcome.next (if_pos (by simp [h, hcore]))

theorem exec_dirUpgradeRequest_of_none {core pa : Nat} (h : s.l1Of core (lineOf pa) = none) (tag : Tag) :
    exec (.dirUpgradeRequest core pa tag) s = .next s := by
  have hexec : exec (.dirUpgradeRequest core pa tag) s = execDirUpgradeRequest core pa tag s := rfl
  rw [hexec, execDirUpgradeRequest, h]

theorem exec_dirUpgradeRequest {core pa : Nat} {c : L1Line} {tag : Tag} (h : s.cacheable pa = true) (hc : s.l1Of core (lineOf pa) = some c)
    (ht : c.tag ≠ tag) :
    exec (.dirUpgradeRequest core pa tag) s = .next (s.dirLoad core (lineOf pa) tag false 0) := by
  have hexec : exec (.dirUpgradeRequest core pa tag) s = execDirUpgradeRequest core pa tag s := rfl
  rw [hexec, execDirUpgradeRequest, hc]
  exact congrArg Host.Outcome.next (if_pos (by simp [h, ht]))

theorem exec_dirStoreRequest {core pa : Nat} {data : List Byte} (h : s.cacheable pa = true) (hcore : core < 128) (hs : s.stores = []) (hne : data ≠ [])
    (hline : pa / 64 = (pa + data.length - 1) / 64) : exec (.dirStoreRequest core pa data) s = .next (s.l1StoreLine core 0 pa data) := by
  have hexec : exec (.dirStoreRequest core pa data) s = execDirStoreRequest core pa data s := rfl
  rw [hexec, execDirStoreRequest, hs, List.find?_nil, ← State.l1Store_of_line hne hline]
  exact congrArg Host.Outcome.next (if_pos (by simp [h, hcore, ← hline]))

theorem exec_sliceWrite {pa : Nat} {data : List Byte} (h : s.cacheable pa = true) (hne : data ≠ []) (hline : pa / 64 = (pa + data.length - 1) / 64) :
    exec (.sliceWrite pa data) s = .next (s.sliceWriteBy none 0 pa data) := by
  have hexec : exec (.sliceWrite pa data) s = execSliceWrite pa data s := rfl
  rw [hexec, execSliceWrite, if_neg (not_not_intro hline), State.route_of_cacheable h, if_neg (by decide), State.sliceWrite_of_line hne hline]

theorem exec_recallArrival_of_owns {core pa : Nat} (h : s.Owns core (lineOf pa)) (downgrade : Bool) :
    exec (.recallArrival core pa downgrade) s = .next (s.recall (lineOf pa) downgrade) := by
  obtain ⟨⟨_, _, _, _, _⟩, hd, rfl⟩ := h
  have hexec : exec (.recallArrival core pa downgrade) s = execRecallArrival core pa downgrade s := rfl
  simp only [hexec, execRecallArrival, hd, if_true]

theorem exec_recallArrival_of_not_owns {core pa : Nat} (h : ¬s.Owns core (lineOf pa)) (downgrade : Bool) :
    exec (.recallArrival core pa downgrade) s = .next s := by
  have hexec : exec (.recallArrival core pa downgrade) s = execRecallArrival core pa downgrade s := rfl
  rw [hexec]
  unfold execRecallArrival
  split
  · next o _ _ _ hd => rw [if_neg fun ho => h ⟨_, hd, congrArg DirState.modified ho⟩]
  · rfl

/-- A write-back by the owner is a recall of its line that does not downgrade (R101). -/
theorem exec_ownerWriteback (core pa : Nat) (s : State) : exec (.ownerWriteback core pa) s = exec (.recallArrival core pa false) s := rfl

/-! ### The obligation -/

/-- What a request that the directory answers with a copy leaves, as the obligation says it. -/
theorem State.Quiet.gives_reply (q : s.Quiet) {i : Instr} {core line : Nat} {tag : Tag} {upd : Bool}
    (hexec : exec i s = .next (s.dirLoad core line tag upd 0)) (hcore : core < 128) (hno : ¬(s.Owns core line ∧ tag = .full)) :
    Gives i s fun t => s.g.sameRegs t.g ∧ t.mem = s.mem ∧
      ((t.l1Of core line).any fun c => decide (c.tag = tag ∧ c.valid = BitVec.allOnes 64 ∧ c.dirty = 0 ∧ c.stale = none)) = true ∧
      ((t.dirOf line).any fun d => decide (d.state = .shared) && d.rinds.any fun r => laneOn r.mask (core / 4) && (r.tag == tag || d.col)) = true := by
  obtain ⟨hmove, ⟨c, hc, hcopy⟩, d, hd, hstate, hsharer⟩ := q.dirLoad_reply hno hcore upd
  refine ⟨_, hexec, hmove.sameRegs, hmove.mem, ?_, ?_⟩
  · rw [hc, Option.any_some]
    exact decide_eq_true hcopy
  · rw [hd, Option.any_some, decide_eq_true hstate]
    exact hsharer

end

/-- Settles O43: loads and recalls move copies and nothing else; a write puts its bytes in memory, behind the recall of an owner. -/
theorem directoryEvents : Obligations.DirectoryEvents := by
  unfold Obligations.DirectoryEvents
  intro s core pa tag upd data hdefer hmsgs hstores hhost hcore hcacheable line owned gets
  have q : s.Quiet := ⟨hdefer, hmsgs, hhost⟩
  have howned : owned core = true ↔ s.Owns core (lineOf pa) := s.any_owner_iff core (lineOf pa)
  refine ⟨fun hno => ?load, fun ho htag c hc => ?own, fun hnone => exec_dirUpgradeRequest_of_none hnone tag, fun c hc hne hno => ?upgrade,
    fun hne hsame => ⟨?store, ?write⟩, fun hno => ?unowned, fun ho => ?owner⟩
  case load => exact q.gives_reply (exec_dirLoadRequest hcacheable hcore tag upd) hcore (mt (And.imp_left howned.2) hno)
  case upgrade => exact q.gives_reply (exec_dirUpgradeRequest hcacheable hc hne) hcore (mt (And.imp_left howned.2) hno)
  case own =>
    subst htag
    obtain ⟨hmove, hdir, x, hx, hkept⟩ := q.dirLoad_own (howned.1 ho) hc upd 0
    refine ⟨_, exec_dirLoadRequest hcacheable hcore .full upd, hmove.sameRegs, hmove.mem, hdir, ?_⟩
    exact (congrArg (Option.any _) hx).trans (decide_eq_true hkept)
  case store =>
    obtain ⟨hwrote, hfirst⟩ := q.l1StoreLine core pa data
    refine ⟨_, exec_dirStoreRequest hcacheable hcore hstores hne hsame, hwrote.mem, hwrote.v, hwrote.s, fun hnone => ?_⟩
    obtain ⟨hentry, c, hc, htag, hdirty⟩ := hfirst hnone
    rw [sub_lineOf] at hdirty
    exact ⟨hentry, (congrArg (Option.any _) hc).trans (decide_eq_true ⟨htag, hdirty⟩)⟩
  case write =>
    obtain ⟨hwrote, hunowned⟩ := q.sliceWriteBy none 0 pa data
    refine ⟨_, exec_sliceWrite hcacheable hne hsame, hwrote.mem, hwrote.v, hwrote.s, ?_, q.versionOf_sliceWriteBy none 0 data⟩
    refine (Option.any_eq_false ..).2 fun d hd => decide_eq_false (not_not_intro ?_)
    cases hstate : d.state with
    | shared => rfl
    | modified o => exact absurd ⟨d, hd, hstate⟩ (hunowned o)
  case unowned =>
    have hno' : ¬s.Owns core (lineOf pa) := fun ho => Bool.false_ne_true (hno.symm.trans (howned.2 ho))
    exact ⟨exec_recallArrival_of_not_owns hno' false, exec_recallArrival_of_not_owns hno' true⟩
  case owner =>
    have ho' := howned.1 ho
    have hdrop := q.recall (lineOf pa) false
    have hdowngrade := q.recall (lineOf pa) true
    obtain ⟨hentry, hcopy⟩ := State.recall_drops ho'
    obtain ⟨hentry', hclean⟩ := q.recall_downgrades ho'
    exact ⟨⟨_, exec_recallArrival_of_owns ho' false, hdrop.sameRegs, hdrop.mem, hentry, hcopy⟩,
      ⟨_, exec_recallArrival_of_owns ho' false, hdrop.sameRegs, hdrop.mem, hentry, hcopy⟩,
      ⟨_, exec_recallArrival_of_owns ho' true, hdowngrade.sameRegs, hdowngrade.mem, hentry', hclean⟩⟩

end Sys2Proof.Machine
end

section
/-!
What an arrival at an L1 does besides the message it delivers (R90, R188): where the first message about the line is of the other kind it delivers
none, but an answer to another module that no sharer holds back any more still goes out.
-/
namespace Sys2Proof.Machine
open Sys2Proof

/-- An arrival of the other kind than the first message about the line delivers nothing, and sends the answers that are due. -/
theorem exec_l1UpdateArrival_of_invalidate {s : State} {core pa : Nat} {tag : Tag} {m : DirMsg}
    (hm : (s.msgs.find? fun x => x.core == core && x.line == lineOf pa) = some m) (hkind : m.kind = .invalidate) :
    exec (.l1UpdateArrival core pa tag) s = .next s.payOwed := by
  have hexec : exec (.l1UpdateArrival core pa tag) s = .next (s.deliverKind core (lineOf pa) true tag).payOwed := rfl
  rw [hexec, State.deliverKind, hm]
  simp [hkind]

/-- Core 0 holds a copy of the line at 0, and its invalidation is on the way. Every sharer of the line at 64 has acknowledged another module's write
of it, whose answer is still to go out. -/
def owing : State :=
  { l1 := [{ core := 0, line := 0, tag := .full, valid := BitVec.allOnes 64, dirty := 0 }]
    msgs := [{ core := 0, line := 0, kind := .invalidate, tag := .full, all := false }]
    owed := [([64], .data [])] }

theorem owing_payOwed_fabOut : owing.payOwed.fabOut = [.data []] := by decide

/-- Refutes O44: with an invalidation first, an update that arrives does not leave every state as it is, since the answer that is due goes out. -/
theorem not_memorySystemEvents : ¬ Obligations.MemorySystemEvents := by
  unfold Obligations.MemorySystemEvents
  rintro ⟨hmessages, -⟩
  obtain ⟨hinvalidate, -⟩ := hmessages owing 0 0 .full _ _ rfl rfl rfl (.inr rfl) (.inr rfl)
  obtain ⟨-, hsame⟩ := hinvalidate rfl
  have hpays : exec (.l1UpdateArrival 0 0 .full) owing = .next owing.payOwed := exec_l1UpdateArrival_of_invalidate rfl rfl
  have hstill : owing.payOwed = owing := Host.Outcome.next.inj (hpays.symm.trans hsame)
  have hout : owing.fabOut = [.data []] := (congrArg State.fabOut hstill).symm.trans owing_payOwed_fabOut
  exact absurd hout (by decide)

end Sys2Proof.Machine
end

section
/-!
Distributors (R213 to R216): where the first unit of a launch goes, who is asked for units and what it gives up, and the reports of counts.
-/
namespace Sys2Proof.Machine
open Sys2Proof

/-! ### Records changed in place -/

theorem getD_of_getElem? {α : Type} {xs : List α} {n : Nat} {x : α} (h : xs[n]? = some x) (d : α) : xs.getD n d = x := by
  rw [List.getD_eq_getElem?_getD, h, Option.getD_some]

theorem modifyAt_getElem? {α : Type} (f : α → α) (n k : Nat) (xs : List α) :
    (modifyAt f n xs)[k]? = if k = n then xs[k]?.map f else xs[k]? := by
  induction xs generalizing n k with
  | nil => cases n <;> simp [modifyAt]
  | cons x xs ih => cases n <;> cases k <;> simp [modifyAt, ih]

/-- What every change of a record keeps, a list of records keeps. -/
theorem modifyAt_map {α β : Type} {f : α → α} {p : α → β} (h : ∀ x, p (f x) = p x) (n : Nat) (xs : List α) : (modifyAt f n xs).map p = xs.map p := by
  induction xs generalizing n with
  | nil => cases n <;> rfl
  | cons x xs ih => cases n <;> simp [modifyAt, h, ih]

theorem State.die_updDie (s : State) (d k : Nat) (f : Die → Die) :
    (s.updDie d f).die k = if k = d ∧ d < s.dies.length then f (s.die k) else s.die k := modifyAt_getD f d k s.dies _

/-- The one launch there is, changed. -/
theorem State.updLaunch_single {s : State} {l : Launch} (h : s.launches = [l]) (f : Launch → Launch) :
    s.updLaunch l.handle f = { s with launches := [f l] } := by
  simp [State.updLaunch, h, modifyFirst]

/-! ### The best place (R216) -/

/-- The better of the best place so far and one more. -/
def bestStep (best : Option (Nat × Nat)) (x : Nat × Nat) : Option (Nat × Nat) :=
  match best with
  | none => some x
  | some b => if b.2 < x.2 then some x else some b

theorem bestOf_eq (xs : List (Nat × Nat)) : bestOf xs = (xs.foldl bestStep none).map fun b => b.1 := rfl

/-- Places that score no more leave the best one. -/
theorem foldl_bestStep_of_le {b : Nat × Nat} : ∀ {xs : List (Nat × Nat)}, (∀ x ∈ xs, x.2 ≤ b.2) → xs.foldl bestStep (some b) = some b
  | [], _ => rfl
  | x :: xs, h => by
    have hstep : bestStep (some b) x = some b := if_neg (Nat.not_lt.2 (h x List.mem_cons_self))
    rw [List.foldl_cons, hstep, foldl_bestStep_of_le fun y hy => h y (List.mem_cons_of_mem x hy)]

/-- The best of places that score less than a bound scores less than it. -/
theorem foldl_bestStep_lt {n : Nat} : ∀ {xs : List (Nat × Nat)} {best : Option (Nat × Nat)}, (∀ b ∈ best, b.2 < n) → (∀ x ∈ xs, x.2 < n) →
    ∀ b ∈ xs.foldl bestStep best, b.2 < n
  | [], _, hb, _ => hb
  | x :: xs, best, hb, hx => by
    refine foldl_bestStep_lt (xs := xs) (fun b h => ?_) fun y hy => hx y (List.mem_cons_of_mem x hy)
    have hstep : b = x ∨ b ∈ best := by
      cases best with
      | none => exact .inl (Option.some.inj h).symm
      | some a =>
        rw [bestStep] at h
        split at h
        · exact .inl (Option.some.inj h).symm
        · exact .inr h
    rcases hstep with rfl | hold
    · exact hx b List.mem_cons_self
    · exact hb b hold

/-- Among places in ascending order the best is the one that scores most, the lowest of equals. -/
theorem bestOf_eq_some {f : Nat → Nat} {xs : List Nat} {c : Nat} (hsorted : xs.Pairwise (· < ·)) (hc : c ∈ xs)
    (hbest : ∀ d ∈ xs, f d < f c ∨ (f d = f c ∧ c ≤ d)) : bestOf (xs.map fun d => (d, f d)) = some c := by
  obtain ⟨before, after, rfl⟩ := List.append_of_mem hc
  have hbefore : ∀ x ∈ before.map fun d => (d, f d), x.2 < f c := by
    simp only [List.mem_map, forall_exists_index, and_imp, forall_apply_eq_imp_iff₂]
    intro d hd
    have hlt : d < c := (List.pairwise_append.1 hsorted).2.2 d hd c List.mem_cons_self
    have := hbest d (List.mem_append_left _ hd)
    omega
  have hafter : ∀ x ∈ after.map fun d => (d, f d), x.2 ≤ f c := by
    simp only [List.mem_map, forall_exists_index, and_imp, forall_apply_eq_imp_iff₂]
    intro d hd
    have := hbest d (List.mem_append_right _ (List.mem_cons_of_mem c hd))
    omega
  have hlow := foldl_bestStep_lt (best := none) nofun hbefore
  have hstep : bestStep ((before.map fun d => (d, f d)).foldl bestStep none) (c, f c) = some (c, f c) := by
    cases h : (before.map fun d => (d, f d)).foldl bestStep none with
    | none => rfl
    | some b => exact if_pos (hlow b h)
  rw [bestOf_eq, List.map_append, List.map_cons, List.foldl_append, List.foldl_cons, hstep, foldl_bestStep_of_le hafter]
  rfl

theorem coresOf_sorted (die : Nat) : (coresOf die).Pairwise (· < ·) :=
  List.pairwise_map.2 (List.pairwise_lt_range.imp fun h => Nat.add_lt_add_left h _)

variable {s : State} {die : Nat} {l : Launch}

theorem State.bestCore_eq_none (h : (coresOf die).all (fun c => !s.fitsCore c 1 l 0) = true) : s.bestCore die l = none := by
  have hnone : (coresOf die).filter (fun c => s.fitsCore c 1 l 0) = [] := by
    simpa [List.filter_eq_nil_iff] using h
  rw [State.bestCore, hnone]
  rfl

theorem State.bestCore_eq_some {c : Nat} (hc : c ∈ coresOf die) (hfits : s.fitsCore c 1 l 0 = true)
    (hbest : ∀ d ∈ coresOf die, s.fitsCore d 1 l 0 = true →
      (s.freeSlots d).length < (s.freeSlots c).length ∨ ((s.freeSlots d).length = (s.freeSlots c).length ∧ c ≤ d)) : s.bestCore die l = some c :=
  bestOf_eq_some (f := fun d => (s.freeSlots d).length) ((coresOf_sorted die).sublist List.filter_sublist) (List.mem_filter.2 ⟨hc, hfits⟩) fun d hd =>
    hbest d (List.mem_filter.1 hd).1 (List.mem_filter.1 hd).2

/-! ### Placement (R213, R214) -/

/-- The one launch there is, not ended, is the one that a distributor considers. -/
theorem State.byPriority_single (hl : s.launches = [l]) (hcomplete : l.complete = false) (hkilled : l.killed = false) (hfaulted : l.faulted = false) :
    s.byPriority = [l] := by
  simp [State.byPriority, hl, hcomplete, hkilled, hfaulted, sortByKey, insertByKey]

/-- Only a launch of priority 3 pre-empts (R224). -/
theorem State.preemptPlan_eq_none (hl : s.byPriority = [l]) (hprio : l.prio < 3) : s.preemptPlan die = none := by
  have hne : (l.prio == 3) = false := by simpa using Nat.ne_of_lt hprio
  rw [State.preemptPlan, hl, List.findSome?_singleton, hne, Bool.false_and, Bool.false_and, if_neg Bool.false_ne_true, ite_self]

theorem State.placeFirst_single (hwaits : l.waitingOn die ≠ []) : s.placeFirst die [l] [] = s.placeNext die l := by
  rw [State.placeFirst, if_neg (by simp [hwaits])]
  split
  · next s' h => rw [h, List.foldl_nil]
  · next h =>
    rw [h]
    split <;> rfl

/-- The lowest unit of a launch of single workgroups goes to the best core, and leaves its distributor. -/
theorem State.placeNext_workgroup {u : Nat} {rest : List Nat} (hclb : l.clb = 0) (hsaved : l.savedOn die = []) (hwaits : l.waitingOn die = u :: rest) :
    s.placeNext die l = (s.bestCore die l).map fun c =>
      (s.placeWg l c u none).updLaunch l.handle fun x => { x with unplaced := x.unplaced.set die rest } := by
  simp only [State.placeNext, hsaved, hwaits, State.placeUnit, hclb, if_true, Option.map_map, Function.comp_def]

theorem exec_unitPlacement (hdie : die < 4) (hl : s.byPriority = [l]) (hprio : l.prio < 3) (hwaits : l.waitingOn die ≠ []) :
    exec (.unitPlacement die) s = .next ((s.placeNext die l).getD s) := by
  have hexec : exec (.unitPlacement die) s = execUnitPlacement die s := rfl
  rw [hexec, execUnitPlacement, if_neg (Nat.not_le.2 hdie), State.preemptPlan_eq_none hl hprio, hl, State.placeFirst_single hwaits]

/-- The groups of a workgroup that is placed take the lowest free slots of the core. -/
def State.newGroups (s : State) (l : Launch) (c u : Nat) : List Group :=
  (List.range l.groups).map fun k => l.newGroup c ((s.freeSlots c).getD k 0) s.nextKey u k s.clock (s.nextId + k)

/-- The state with a workgroup's record and its groups, its core's instruction cache emptied or not (R68). -/
def State.withWg (s : State) (l : Launch) (c u : Nat) (inst : Option Nat) (cores : List Core) : State :=
  { s with
    cores := cores, nextKey := s.nextKey + 1, nextId := s.nextId + l.groups, groups := s.groups ++ s.newGroups l c u
    wgs := s.wgs ++ [{ key := s.nextKey, launch := l.handle, index := u, core := c, inst := inst, groups := l.groups, spad := l.spad, priv := l.priv,
                       placed := s.nextId }] }

theorem State.placeWg_eq (s : State) (l : Launch) (c u : Nat) (inst : Option Nat) : ∃ cores, s.placeWg l c u inst = s.withWg l c u inst cores := by
  have hcache : ∃ cores, (if !(s.wgs.any fun w => w.launch == l.handle && w.core == c) then s.updCore c fun k => { k with icache := [] } else s) =
      { s with cores := cores } := by
    split
    · exact ⟨_, rfl⟩
    · exact ⟨s.cores, rfl⟩
  obtain ⟨cores, hcache⟩ := hcache
  refine ⟨cores, ?_⟩
  simp only [State.placeWg, hcache]
  rfl

/-- A group starts at ENTRY with its lanes, its registers zero (R195, R197). -/
theorem Launch.newGroup_starts (l : Launch) (core slot key index g clock born : Nat) :
    let h := l.newGroup core slot key index g clock born
    h.core = core ∧ h.launch = l.handle ∧ h.a.live = true ∧ h.a.pc = l.entry ∧ h.a.exm = h.lanes ∧ h.b.live = false ∧ h.save = [] ∧ h.status = .running ∧
      h.v = List.replicate (l.regs.getD 0 0) (List.replicate 32 0) ∧ h.p = List.replicate (l.regs.getD 2 0) 0 ∧ h.pcfg = 0 ∧ h.txst = List.replicate 32 0 :=
  ⟨rfl, rfl, rfl, rfl, rfl, rfl, rfl, rfl, rfl, rfl, rfl, rfl⟩

/-- Whether the unit of a launch that was passed over on a die has waited for too long (R214). -/
def Launch.late (l : Launch) (die clock : Nat) : Bool := (l.passed.getD die none).any fun m => l.holds die m.1 && decide (m.2 ≤ clock)

/-- R214: a unit passed over for too long stops what would be placed past it. -/
theorem exec_passOverTimeout (s : State) (die : Nat) :
    exec (.passOverTimeout die) s = .next { s with
      launches := s.launches.map fun l =>
        if l.late die s.clock then { l with passed := l.passed.set die ((l.passed.getD die none).map fun m => (m.1, 0)) } else l } := by
  have hexec : exec (.passOverTimeout die) s = .next (s.passOver die) := rfl
  rw [hexec, State.passOver]
  congr 3
  funext l
  unfold Launch.mark Launch.late
  cases l.passed.getD die none with
  | none => rfl
  | some m => cases hh : l.holds die m.1 <;> simp [Option.filter, hh]

/-! ### Steals (R215) -/

theorem exec_stealRequestArrival_of_not {victim thief : Nat} (h : s.wantsSteal thief = false ∨ s.stealFrom thief ≠ some victim) :
    exec (.stealRequestArrival victim thief) s = .next s := by
  have hexec : exec (.stealRequestArrival victim thief) s = execStealRequestArrival victim thief s := rfl
  rw [hexec, execStealRequestArrival, if_pos]
  rcases h with h | h <;> simp [h]

/-- The victim, whose one launch has units, keeps the lower half of them, rounded down; the rest is on its way to the thief. -/
theorem exec_stealRequestArrival {victim thief : Nat} (hl : s.launches = [l]) (hpriority : s.byPriority = [l]) (hwants : s.wantsSteal thief = true)
    (hfrom : s.stealFrom thief = some victim) (hunits : l.waitingOn victim ≠ []) :
    exec (.stealRequestArrival victim thief) s =
      .next (({ s with
        launches := [{ l with unplaced := l.unplaced.set victim ((l.waitingOn victim).take ((l.waitingOn victim).length / 2)) }] } : State).updDie thief
        fun d => { d with stealing := some victim, stolen := [(l.handle, (l.waitingOn victim).drop ((l.waitingOn victim).length / 2))] }) := by
  have hexec : exec (.stealRequestArrival victim thief) s = execStealRequestArrival victim thief s := rfl
  have hfirst : [l].find? (fun l => !(l.waitingOn victim).isEmpty) = some l := by simp [hunits]
  rw [hexec, execStealRequestArrival, if_neg (by simp [hwants, hfrom]), hpriority, hfirst]
  simp only [State.updLaunch_single hl]

theorem exec_stealReplyArrival_of_none {thief : Nat} (h : (s.die thief).stealing = none) : exec (.stealReplyArrival thief) s = .next s := by
  have hexec : exec (.stealReplyArrival thief) s = execStealReplyArrival thief s := rfl
  rw [hexec, execStealReplyArrival, h]

/-- The units of one launch that a reply brings join those that the thief has of it, in ascending order. -/
theorem exec_stealReplyArrival {thief victim : Nat} {us : List Nat} (hl : s.launches = [l]) (hsteal : (s.die thief).stealing = some victim)
    (hstolen : (s.die thief).stolen = [(l.handle, us)]) :
    exec (.stealReplyArrival thief) s =
      .next (({ s with
        launches := [{ l with unplaced := modifyAt (fun old => sortByKey id (old ++ us)) thief l.unplaced }] } : State).updDie thief
        fun d => { d with stealing := none, stolen := [], freshReport := d.freshReport && true }) := by
  have hexec : exec (.stealReplyArrival thief) s = execStealReplyArrival thief s := rfl
  rw [hexec, execStealReplyArrival, hsteal, hstolen]
  exact congrArg Host.Outcome.next (State.updLaunch_single (s := s.updDie thief _) hl _)

theorem insertByKey_perm {α : Type} (key : α → Nat) (x : α) (xs : List α) : (insertByKey key x xs).Perm (x :: xs) := by
  induction xs with
  | nil => exact .refl _
  | cons y ys ih =>
    rw [insertByKey]
    split
    · exact .refl _
    · exact (ih.cons y).trans (.swap x y ys)

theorem insertByKey_sorted {α : Type} (key : α → Nat) (x : α) {xs : List α} (h : xs.Pairwise fun a b => key a ≤ key b) :
    (insertByKey key x xs).Pairwise fun a b => key a ≤ key b := by
  induction xs with
  | nil => exact List.pairwise_singleton ..
  | cons y ys ih =>
    obtain ⟨hy, hys⟩ := List.pairwise_cons.1 h
    rw [insertByKey]
    split
    · next hlt =>
      refine List.pairwise_cons.2 ⟨fun z hz => ?_, h⟩
      rcases List.mem_cons.1 hz with rfl | hz
      · exact Nat.le_of_lt hlt
      · exact Nat.le_trans (Nat.le_of_lt hlt) (hy z hz)
    · next hle =>
      refine List.pairwise_cons.2 ⟨fun z hz => ?_, ih hys⟩
      rcases List.mem_cons.1 ((insertByKey_perm key x ys).mem_iff.1 hz) with rfl | hz
      · exact Nat.not_lt.1 hle
      · exact hy z hz

/-- Sorting loses no entry, adds none, and leaves them in ascending order. -/
theorem sortByKey_spec {α : Type} (key : α → Nat) (xs : List α) :
    (sortByKey key xs).Perm xs ∧ (sortByKey key xs).Pairwise fun a b => key a ≤ key b := by
  suffices h : ∀ acc : List α, acc.Pairwise (fun a b => key a ≤ key b) →
      (xs.foldl (fun acc x => insertByKey key x acc) acc).Perm (acc ++ xs) ∧
        (xs.foldl (fun acc x => insertByKey key x acc) acc).Pairwise fun a b => key a ≤ key b from h [] .nil
  induction xs with
  | nil => exact fun acc h => ⟨by rw [List.append_nil, List.foldl_nil], h⟩
  | cons x xs ih =>
    intro acc h
    obtain ⟨hperm, hsorted⟩ := ih (insertByKey key x acc) (insertByKey_sorted key x h)
    exact ⟨hperm.trans (((insertByKey_perm key x acc).append_right xs).trans List.perm_middle.symm), hsorted⟩

/-! ### Reports of counts (R215, R9) -/

theorem foldl_add_eq_sum {α : Type} (f : α → Nat) (xs : List α) (n : Nat) : xs.foldl (fun n x => n + f x) n = n + (xs.map f).sum := by
  induction xs generalizing n with
  | nil => rfl
  | cons x xs ih => rw [List.foldl_cons, ih, List.map_cons, List.sum_cons, Nat.add_assoc]

theorem State.unplacedCount_eq (s : State) (die : Nat) : s.unplacedCount die = (s.launches.map fun l => (l.unplaced.getD die []).length).sum := by
  rw [State.unplacedCount, foldl_add_eq_sum, Nat.zero_add]
  rfl

theorem State.reportDue_iff (s : State) (die : Nat) : s.reportDue die = true ↔ (s.die die).reported + 64 ≤ s.unplacedCount die ∨
    s.unplacedCount die + 64 ≤ (s.die die).reported ∨ (s.die die).reportedAt + 1880 ≤ s.clock := by
  simp only [State.reportDue, Bool.or_eq_true, decide_eq_true_eq, or_assoc]
  rfl

theorem exec_countReportTimer_of_not_due (h : s.reportDue die = false) : exec (.countReportTimer die) s = .next s := by
  have hexec : exec (.countReportTimer die) s = execCountReportTimer die s := rfl
  rw [hexec, execCountReportTimer, if_pos (by simp [h])]

/-- A distributor as it reports. -/
def State.noteReport (s : State) (die : Nat) : State :=
  s.updDie die fun d => { d with reported := s.unplacedCount die, reportedAt := s.clock }

/-- The dies that a distributor reports to. -/
def otherDies (die : Nat) : List Nat := (List.range 4).filter fun d => d != die

theorem exec_countReportTimer (hdie : die < 4) (h : s.reportDue die = true) : exec (.countReportTimer die) s = .next (if s.defer then
      { s.noteReport die with reports := s.reports ++ (otherDies die).map fun d => (die, d, s.unplacedCount die) }
    else (otherDies die).foldl (fun t d => t.recordCount d die (s.unplacedCount die)) (s.noteReport die)) := by
  have hexec : exec (.countReportTimer die) s = execCountReportTimer die s := rfl
  rw [hexec, execCountReportTimer, if_neg (by simp [hdie, h])]
  rfl

/-- Another die's record is left alone by the reports to some dies; nothing but the dies' records changes. -/
theorem State.recordCounts_eq (src n : Nat) : ∀ (ds : List Nat) (s : State), ∃ dies, ds.foldl (fun t d => t.recordCount d src n) s = { s with dies := dies } ∧
    dies.length = s.dies.length ∧ ∀ k, k < s.dies.length → dies.getD k {} =
      if k ∈ ds then { s.die k with counts := (s.die k).counts.set src n, freshReport := true } else s.die k
  | [], s => ⟨s.dies, rfl, rfl, fun _ _ => rfl⟩
  | d :: ds, s => by
    obtain ⟨dies, hfold, hlen, hdies⟩ := State.recordCounts_eq src n ds (s.recordCount d src n)
    have hlen' : (s.recordCount d src n).dies.length = s.dies.length := modifyAt_length ..
    refine ⟨dies, hfold, hlen.trans hlen', fun k hk => ?_⟩
    rw [hdies k (hlen'.symm ▸ hk), State.recordCount, State.die_updDie]
    by_cases hkd : k = d
    · subst hkd
      by_cases hmem : k ∈ ds <;> simp [hk, hmem]
    · simp [hkd]

/-- The reports under way from one die to another, oldest first, are counted in their order (R9). -/
theorem exec_countReportArrival {src count : Nat} (h : (s.reports.find? fun r => r.1 == src && r.2.1 == die) = some (src, die, count)) :
    exec (.countReportArrival die src count) s =
      .next (({ s with reports := removeFirst (fun x => x == (src, die, count)) s.reports } : State).recordCount die src count) := by
  have hexec : exec (.countReportArrival die src count) s = execCountReportArrival die src count s := rfl
  rw [hexec, execCountReportArrival, h]
  exact congrArg Host.Outcome.next (if_pos rfl)

theorem exec_countReportArrival_of_not_oldest {src count : Nat}
    (h : (s.reports.find? fun r => r.1 == src && r.2.1 == die) ≠ some (src, die, count)) : exec (.countReportArrival die src count) s = .next s := by
  have hexec : exec (.countReportArrival die src count) s = execCountReportArrival die src count s := rfl
  rw [hexec, execCountReportArrival]
  cases hfind : s.reports.find? fun r => r.1 == src && r.2.1 == die with
  | none => rfl
  | some r =>
    obtain ⟨rsrc, rdie, n⟩ := r
    have hnames : rsrc = src ∧ rdie = die := by simpa using List.find?_some hfind
    obtain ⟨rfl, rfl⟩ := hnames
    exact congrArg Host.Outcome.next (if_neg fun hn => h (hfind.trans (by rw [show n = count from hn])))

end Sys2Proof.Machine
end

section
/-!
How a draining group, its workgroup and its launch end (R208), of a launch of single workgroups and outside a recording: what each step leaves alone,
and when the launch completes.
-/
namespace Sys2Proof.Machine
open Sys2Proof

variable {s : State} {core slot : Nat} {g : Group} {w : Workgroup} {l : Launch}

/-- The state with other records of its cores. -/
def State.setCores (s : State) (cores : List Core) : State := { s with cores := cores }

@[simp] theorem State.setCores_cores (s : State) (cores : List Core) : (s.setCores cores).cores = cores := rfl

/-- The state with other groups, the first of which issues next. -/
def State.setGroups (s : State) (x : Group) (xs : List Group) : State := { s with g := x, groups := xs }

/-! ### Guards of a workgroup that ends (R223) -/

theorem freeGuard_cards (n : Nat) (k : Core) : (freeGuard n k).cards = k.cards := by
  rw [freeGuard]
  split <;> rfl

theorem foldl_freeGuard_cards (p : Core → Nat → Bool) (ns : List Nat) (k : Core) :
    (ns.foldl (fun k n => if p k n then freeGuard n k else k) k).cards = k.cards := by
  induction ns generalizing k with
  | nil => rfl
  | cons n ns ih =>
    rw [List.foldl_cons, ih]
    split
    · exact freeGuard_cards n k
    · rfl

/-- A core's guards of a workgroup that ends. -/
def Core.failGuards (w : Workgroup) (k : Core) : Core :=
  (List.range 16).foldl (fun k n => if (k.guards.getD n {}).wg == w.key then freeGuard n k else k)
    { k with guards := k.guards.map fun g => if g.wg == w.key && decide (g.state = .pending) then { g with state := .isFalse } else g }

theorem State.failGuards_def (s : State) (w : Workgroup) : s.failGuards w = s.updCore w.core (Core.failGuards w) := rfl

theorem Core.failGuards_cards (w : Workgroup) (k : Core) : (k.failGuards w).cards = k.cards := by
  rw [Core.failGuards, foldl_freeGuard_cards fun k n => (k.guards.getD n {}).wg == w.key]

/-- Guards change, and no card with them. -/
theorem State.failGuards_eq (s : State) (w : Workgroup) :
    ∃ cores, s.failGuards w = s.setCores cores ∧ cores.map Core.cards = s.cores.map Core.cards :=
  ⟨_, s.failGuards_def w, modifyAt_map (Core.failGuards_cards w) w.core s.cores⟩

theorem State.settleGuards_eq (s : State) (key : Nat) :
    ∃ cores, s.settleGuards key = s.setCores cores ∧ cores.map Core.cards = s.cores.map Core.cards := by
  rw [State.settleGuards]
  split
  · exact ⟨s.cores, rfl, rfl⟩
  · split
    · exact s.failGuards_eq _
    · exact ⟨s.cores, rfl, rfl⟩

/-- Whether a group's work is done depends on the cores' cards alone among what the cores hold. -/
theorem State.drained_setCores (s : State) {cores : List Core} (h : cores.map Core.cards = s.cores.map Core.cards) (g : Group) :
    (s.setCores cores).drained g = s.drained g := by
  have hany : ∀ ks : List Core, (ks.any fun k => k.cards.any fun c => c.wg == g.wg && c.gidx == g.gidx) =
      (ks.map Core.cards).any fun cs => cs.any fun c => c.wg == g.wg && c.gidx == g.gidx := fun ks => by rw [List.any_map]; rfl
  simp only [State.drained, hany, h, State.setCores_cores]
  rfl

/-! ### The groups that are left -/

theorem State.keepGroups_eq {keep : Group → Bool} (h : s.allGroups.filter keep ≠ []) :
    ∃ x xs, s.keepGroups keep = s.setGroups x xs ∧ x :: xs = s.allGroups.filter keep := by
  obtain ⟨x, xs, hfilter⟩ := List.exists_cons_of_ne_nil h
  exact ⟨x, xs, by rw [State.keepGroups, hfilter]; rfl, hfilter.symm⟩

/-- The one group in a slot is the one found there. -/
theorem State.groupAt_of_filter (h : s.allGroups.filter (Group.at_ core slot) = [g]) : s.groupAt core slot = some g := by
  rw [State.groupAt, ← List.head?_filter, h]
  rfl

/-- The one group in a slot is the one that a drain there is about, whether it drains or not. -/
theorem State.drainGroup_finds (h : s.allGroups.filter (Group.at_ core slot) = [g]) :
    ((s.allGroups.find? fun g => g.at_ core slot && decide (g.status = .draining)).or (s.groupAt core slot)) = some g := by
  have hfind : (s.allGroups.find? fun g => g.at_ core slot && decide (g.status = .draining)) = [g].find? fun g => decide (g.status = .draining) := by
    simp only [← h, List.find?_filter, Bool.decide_and, Bool.decide_eq_true]
  rw [State.groupAt_of_filter h, hfind, List.find?_singleton]
  split <;> rfl

theorem State.drainGroup_of_not_draining (h : s.allGroups.filter (Group.at_ core slot) = [g]) (hstatus : g.status ≠ .draining) :
    s.drainGroup core slot = s := by
  have hdrained : s.drained g = false := by simp [State.drained, hstatus]
  rw [State.drainGroup, State.drainGroup_finds h]
  simp [hstatus, hdrained]

/-- Without the group whose work is done: guards of its workgroup may have turned FALSE before, and no card has changed. -/
structure State.Left (s : State) (g : Group) (t : State) : Prop where
  eq : ∃ x xs cores, t = (s.setCores cores).setGroups x xs
  groups : t.allGroups = s.allGroups.filter fun x => x.ident != g.ident

/-- R208: a group whose work is done leaves its slot, with no failure to report and outside a recording. -/
theorem State.drainGroup_of_drained (h : s.allGroups.filter (Group.at_ core slot) = [g]) (hslot : slot ≠ 64) (hdrained : s.drained g = true)
    (hlate : g.lateFault = none) (hrr : s.rrMode = 0) (hw : s.wgAt g.wg = some w) (hothers : s.allGroups.filter (fun x => x.ident != g.ident) ≠ []) :
    ∃ t, s.Left g t ∧ s.drainGroup core slot = if (t.groupsOfWg g.wg).isEmpty then t.endWg g.wg else t.finishSave g (dieOf core) := by
  have hstatus : g.status = .draining := by
    rw [State.drained] at hdrained
    simp only [Bool.and_eq_true, decide_eq_true_eq] at hdrained
    exact hdrained.1.1.1.1
  obtain ⟨cores, hguards, hcards⟩ := s.settleGuards_eq g.wg
  have hdrained' := (s.drained_setCores hcards g).trans hdrained
  obtain ⟨x, xs, hkeep, hleft⟩ := State.keepGroups_eq (s := s.setCores cores) hothers
  refine ⟨(s.setCores cores).setGroups x xs, ⟨⟨x, xs, cores, rfl⟩, hleft⟩, ?_⟩
  rw [State.drainGroup, State.drainGroup_finds h]
  have hw' : (s.setCores cores).wgAt g.wg = some w := hw
  have hrr' : (s.setCores cores).rrMode = 0 := hrr
  simp only [hslot, hstatus, hguards, hdrained', hlate, hw', hrr', hkeep, ne_eq, not_true_eq_false, not_false_eq_true, false_and, and_self, if_true, if_false,
    decide_true, Bool.and_true, ite_self]

/-- Nothing of the state but its groups and its cores differs. -/
theorem State.Left.mem {t : State} (h : s.Left g t) : t.mem = s.mem := by
  obtain ⟨_, _, _, rfl⟩ := h.eq
  rfl
theorem State.Left.wgAt {t : State} (h : s.Left g t) : t.wgAt = s.wgAt := by
  obtain ⟨_, _, _, rfl⟩ := h.eq
  rfl
theorem State.Left.wgs {t : State} (h : s.Left g t) : t.wgs = s.wgs := by
  obtain ⟨_, _, _, rfl⟩ := h.eq
  rfl

/-- The slot of a group that has left is free: only it stood there. -/
theorem State.Left.groupAt {t : State} (h : s.Left g t) (hat : s.allGroups.filter (Group.at_ core slot) = [g]) : t.groupAt core slot = none := by
  rw [State.groupAt, h.groups, List.find?_eq_none]
  intro x hx hslot
  obtain ⟨hall, hident⟩ := List.mem_filter.1 hx
  have hxg : x ∈ s.allGroups.filter (Group.at_ core slot) := List.mem_filter.2 ⟨hall, hslot⟩
  rw [hat, List.mem_singleton] at hxg
  simp [hxg] at hident

/-- The groups of the workgroup that are left are those in other slots. -/
theorem State.Left.groupsOfWg {t : State} (h : s.Left g t) (hat : s.allGroups.filter (Group.at_ core slot) = [g])
    (hname : ∀ x ∈ s.allGroups, x.ident = g.ident → x.at_ core slot = true) :
    t.groupsOfWg g.wg = s.allGroups.filter fun x => x.wg == g.wg && x.slot != 64 && x.launch != 0 && !x.at_ core slot := by
  rw [State.groupsOfWg, h.groups, List.filter_filter]
  refine List.filter_congr fun x hx => ?_
  have hiff : (x.ident != g.ident) = !x.at_ core slot := by
    cases hslot : x.at_ core slot with
    | false => simpa using fun hi => Bool.false_ne_true (hslot.symm.trans (hname x hx hi))
    | true =>
      have hxg : x ∈ s.allGroups.filter (Group.at_ core slot) := List.mem_filter.2 ⟨hx, hslot⟩
      rw [hat, List.mem_singleton] at hxg
      simp [hxg]
  rw [hiff]

/-! ### The last group of a workgroup, and the last workgroup of a launch -/

/-- A workgroup that is not all saved is not put back to its distributor (R224). -/
theorem State.finishSave_of_running {die : Nat} (h : (s.groupsOfWg g.wg).any (fun x => decide (x.status ≠ .saved)) = true) : s.finishSave g die = s := by
  have hall : (s.groupsOfWg g.wg).all (fun x => decide (x.status = .saved)) = false := by
    rw [List.all_eq_not_any_not]
    simpa using h
  rw [State.finishSave, if_neg (by simp [hall])]

theorem State.tryComplete_of_not_quiet (h : s.quiet = false) (n : Nat) : s.tryComplete n = s := by
  rw [State.tryComplete]
  split
  · rfl
  · rw [if_neg (by simp [h])]

/-- The launch completes once its last workgroup has ended and DONE may be written. -/
theorem State.tryComplete_of_quiet (hl : s.launchOf l.handle = some l) (hended : s.ended l = true) (h : s.quiet = true) :
    s.tryComplete l.handle = (s.updLaunch l.handle fun l => { l with complete := true }).writeDone l := by
  rw [State.tryComplete, hl]
  exact if_pos (by simp [hended, h])

/-- A record that is changed is found changed, where the change leaves its name. -/
theorem find?_modifyFirst {α : Type} {p : α → Bool} {f : α → α} (hf : ∀ x, p (f x) = p x) (xs : List α) :
    (modifyFirst p f xs).find? p = (xs.find? p).map f := by
  induction xs with
  | nil => rfl
  | cons x xs ih =>
    rw [modifyFirst]
    cases hx : p x with
    | true => rw [if_pos rfl, List.find?_cons_of_pos ((hf x).trans hx), List.find?_cons_of_pos hx, Option.map_some]
    | false => rw [if_neg Bool.false_ne_true, List.find?_cons_of_neg (by simp [hx]), List.find?_cons_of_neg (by simp [hx]), ih]

theorem State.launchOf_updLaunch {f : Launch → Launch} (hf : ∀ x, (f x).handle = x.handle) (s : State) (n : Nat) :
    (s.updLaunch n f).launchOf n = (s.launchOf n).map f :=
  find?_modifyFirst (fun x => by rw [hf]) s.launches

/-- A walk looks at no group, core, launch or workgroup, and at no L1. -/
theorem State.translate_ended (s : State) (x : Group) (xs : List Group) (cores : List Core) (ls : List Launch) (ws : List Workgroup) (l1 : List L1Line) :
    ({ s with g := x, groups := xs, cores := cores, launches := ls, wgs := ws, l1 := l1 } : State).translate = s.translate := by
  have hwalk : ∀ die asid a n table, ({ s with g := x, groups := xs, cores := cores, launches := ls, wgs := ws, l1 := l1 } : State).walkFrom die asid a n table =
      s.walkFrom die asid a n table := by
    intro die asid a n
    induction n with
    | zero => exact fun _ => rfl
    | succ n ih =>
      intro table
      simp only [State.walkFrom, ih]
      rfl
  funext core asid root k va
  simp only [State.translate, State.walkRoot, hwalk]
  rfl

theorem State.translate_updLaunch (s : State) (n : Nat) (f : Launch → Launch) : (s.updLaunch n f).translate = s.translate :=
  s.translate_ended s.g s.groups s.cores _ s.wgs s.l1

/-- The state without a workgroup, as its end leaves it: guards of its core are FALSE, and marks of the L1s are gone. -/
structure State.WithoutWg (s : State) (key : Nat) (t : State) : Prop where
  mem : t.mem = s.mem
  launches : t.launches = s.launches
  dies : t.dies = s.dies
  wgs : t.wgs = s.wgs.filter fun x => x.key != key
  quiet : t.quiet = s.quiet
  translate : t.translate = s.translate

/-- What the end of a workgroup leaves after one of its groups has left, it leaves of the state before. -/
theorem State.WithoutWg.of_left {t u : State} {key : Nat} (h : s.Left g t) (k : t.WithoutWg key u) : s.WithoutWg key u := by
  obtain ⟨x, xs, cores, rfl⟩ := h.eq
  exact ⟨k.mem, k.launches, k.dies, k.wgs, k.quiet, k.translate.trans (s.translate_ended x xs cores s.launches s.wgs s.l1)⟩

/-- R208: a workgroup of no instance ends, and its launch may complete. -/
theorem State.endWg_eq (hw : s.wgAt g.wg = some w) (hinst : w.inst = none) :
    ∃ t, s.WithoutWg g.wg t ∧ t.groupAt = s.groupAt ∧ s.endWg g.wg = t.tryComplete w.launch := by
  obtain ⟨cores, hguards, -⟩ := s.failGuards_eq w
  have hgone : ∀ l1, s.WithoutWg g.wg { s with wgs := s.wgs.filter fun x => x.key != g.wg, cores := cores, l1 := l1 } := fun l1 =>
    ⟨rfl, rfl, rfl, rfl, rfl, s.translate_ended s.g s.groups cores s.launches _ l1⟩
  rw [State.endWg, hw]
  simp only [hguards, State.partyEnds, hinst]
  split
  · exact ⟨_, hgone s.l1, rfl, rfl⟩
  · exact ⟨_, hgone _, rfl, rfl⟩

/-- The launch of a workgroup that ends has ended when nothing of it is left to place and no other workgroup of it runs. -/
theorem State.WithoutWg.ended {t : State} {key : Nat} (h : s.WithoutWg key t) (hcomplete : l.complete = false)
    (hplaced : l.unplaced.all (fun u => u.isEmpty) = true) (hstolen : (s.dies.all fun d => d.stolen.isEmpty) = true)
    (hrest : (s.wgs.all fun x => x.key == key || x.launch != l.handle) = true) : t.ended l = true := by
  simp only [State.ended, h.dies, h.wgs, Bool.and_eq_true, Bool.not_eq_true', hcomplete, hplaced, true_and, List.any_eq_false]
  refine ⟨fun d hd hany => ?_, fun y hy hlaunch => ?_⟩
  · have hempty := List.isEmpty_iff.1 (List.all_eq_true.1 hstolen d hd)
    simp [hempty] at hany
  · obtain ⟨hy, hkey⟩ := List.mem_filter.1 hy
    have hother := List.all_eq_true.1 hrest y hy
    simp_all

/-- A launch without DONE writes none. -/
theorem State.writeDone_of_zero (h : l.done = 0) : s.writeDone l = s := by
  rw [State.writeDone, if_pos h]

/-- R208: the status word of a launch is written to its DONE. -/
theorem State.writeDone_leaf {f : Leaf} (h : l.done ≠ 0) (ht : s.translate 0 l.asid l.root .store l.done = .leaf f) :
    (s.writeDone l).mem = s.mem.writeNat (f.pa l.done) 8 l.status.toNat ∧ (s.writeDone l).launches = s.launches := by
  rw [State.writeDone, if_neg h, ht]
  obtain ⟨_, _, hwake, -⟩ := (s.caveWrite (f.pa l.done) (toBytes 8 l.status.toNat)).wake_eq (f.pa l.done) 8
  simp only [hwake]
  exact ⟨rfl, rfl⟩

end Sys2Proof.Machine
end

section
/-!
O49, from what each of its events does.
-/
namespace Sys2Proof.Machine
open Sys2Proof

section
variable {s : State} {core slot : Nat} {g : Group} {w : Workgroup} {l : Launch}

/-- The first unplaced unit of the one launch, placed on the best core. -/
theorem gives_unitPlacement {die u c : Nat} {rest : List Nat} (hdie : die < 4) (hl : s.launches = [l]) (hpriority : s.byPriority = [l]) (hclb : l.clb = 0)
    (hprio : l.prio < 3) (hunits : l.unplaced[die]? = some (u :: rest)) (hsaved : l.toResume.getD die [] = []) (hbest : s.bestCore die l = some c) :
    Gives (.unitPlacement die) s fun t => t.mem = s.mem ∧ t.g = s.g ∧ t.groups = s.groups ++ s.newGroups l c u ∧
      t.wgs.map (fun w => (w.key, w.launch, w.index, w.core, w.groups)) =
        s.wgs.map (fun w => (w.key, w.launch, w.index, w.core, w.groups)) ++ [(s.nextKey, l.handle, u, c, l.groups)] ∧
      (t.launches.any fun x => x.unplaced[die]? == some rest) = true := by
  have hwaits : l.waitingOn die = u :: rest := getD_of_getElem? hunits []
  obtain ⟨cores, hplace⟩ := s.placeWg_eq l c u none
  have hexec := exec_unitPlacement hdie hpriority hprio (hwaits ▸ List.cons_ne_nil u rest)
  rw [State.placeNext_workgroup hclb hsaved hwaits, hbest] at hexec
  refine ⟨_, hexec, ?_⟩
  have hl' : (s.withWg l c u none cores).launches = [l] := hl
  simp only [Option.map_some, Option.getD_some, hplace, State.updLaunch_single hl']
  obtain ⟨hlt, -⟩ := List.getElem?_eq_some_iff.1 hunits
  exact ⟨rfl, rfl, rfl, List.map_append, by simp [hlt]⟩

/-- What the thief and the victim have after a steal request of the one launch. -/
theorem gives_stealRequestArrival {victim thief : Nat} {us : List Nat} (hthief : thief < s.dies.length) (hl : s.launches = [l])
    (hus : l.unplaced[victim]? = some us) (hwants : s.wantsSteal thief = true) (hfrom : s.stealFrom thief = some victim) (hpriority : s.byPriority = [l])
    (hne : us ≠ []) :
    Gives (.stealRequestArrival victim thief) s fun t => t.g = s.g ∧ t.mem = s.mem ∧ (t.die thief).stealing = some victim ∧
      (t.die thief).stolen = [(l.handle, us.drop (us.length / 2))] ∧ (t.launches.any fun x => x.unplaced[victim]? == some (us.take (us.length / 2))) = true := by
  have hwaits : l.waitingOn victim = us := getD_of_getElem? hus []
  obtain ⟨hlt, -⟩ := List.getElem?_eq_some_iff.1 hus
  refine ⟨_, exec_stealRequestArrival hl hpriority hwants hfrom (hwaits ▸ hne), rfl, rfl, ?_, ?_, ?_⟩
  · rw [State.die_updDie, if_pos ⟨rfl, hthief⟩]
  · rw [State.die_updDie, if_pos ⟨rfl, hthief⟩, hwaits]
  · simp [State.updDie, hwaits, hlt]

/-- What the thief has after the reply, of one launch. -/
theorem gives_stealReplyArrival {victim thief : Nat} {x : Nat × List Nat} {old : List Nat} (hthief : thief < s.dies.length) (hl : s.launches = [l])
    (hstolen : (s.die thief).stolen = [x]) (hold : l.unplaced[thief]? = some old) (hsteal : (s.die thief).stealing = some victim) (hx : x.1 = l.handle) :
    Gives (.stealReplyArrival thief) s fun t => t.g = s.g ∧ t.mem = s.mem ∧ (t.die thief).stealing = none ∧
      ((t.launches[0]?).bind fun x => x.unplaced[thief]?).any (fun new => decide (new.Perm (old ++ x.2) ∧ new.Pairwise (· ≤ ·))) = true := by
  obtain ⟨h, us⟩ := x
  obtain rfl : h = l.handle := hx
  refine ⟨_, exec_stealReplyArrival hl hsteal hstolen, rfl, rfl, ?_, ?_⟩
  · rw [State.die_updDie, if_pos ⟨rfl, hthief⟩]
  · have hunits : (modifyAt (fun old => sortByKey id (old ++ us)) thief l.unplaced)[thief]? = some (sortByKey id (old ++ us)) := by
      rw [modifyAt_getElem?, if_pos rfl, hold, Option.map_some]
    simp only [State.updDie, List.getElem?_cons_zero, Option.bind_some, hunits, Option.any_some]
    exact decide_eq_true (sortByKey_spec id (old ++ us))

/-- A report that is due: noted by its distributor, and on its way or received. -/
theorem gives_countReportTimer {die src : Nat} (hdie : die < 4) (hsrc : src < 4) (hne : die ≠ src) (hlen : s.dies.length = 4)
    (hcounts : ∀ d < 4, (s.die d).counts.length = 4) (hdue : s.reportDue die = true) :
    Gives (.countReportTimer die) s fun t => t.g = s.g ∧ t.mem = s.mem ∧ (t.die die).reported = s.unplacedCount die ∧ (t.die die).reportedAt = s.clock ∧
      (s.defer = true → t.reports = s.reports ++ (((List.range 4).filter fun d => d != die).map fun d => (die, d, s.unplacedCount die))) ∧
      (s.defer = false → t.reports = s.reports ∧ (t.die src).counts.getD die 0 = s.unplacedCount die ∧ (t.die src).freshReport = true) := by
  have hnoted : (s.noteReport die).die die = { s.die die with reported := s.unplacedCount die, reportedAt := s.clock } := by
    rw [State.noteReport, State.die_updDie, if_pos ⟨rfl, hlen ▸ hdie⟩]
  refine ⟨_, exec_countReportTimer hdie hdue, ?_⟩
  cases hdefer : s.defer with
  | true =>
    have hstays : ∀ rs, ({ s.noteReport die with reports := rs } : State).die die = (s.noteReport die).die die := fun _ => rfl
    rw [if_pos rfl, hstays, hnoted]
    exact ⟨rfl, rfl, rfl, rfl, fun _ => rfl, nofun⟩
  | false =>
    obtain ⟨dies, hfold, -, hdies⟩ := State.recordCounts_eq die (s.unplacedCount die) (otherDies die) (s.noteReport die)
    have hlen' : (s.noteReport die).dies.length = 4 := (modifyAt_length ..).trans hlen
    have hat : ∀ k, ({ s.noteReport die with dies := dies } : State).die k = dies.getD k {} := fun _ => rfl
    have hself : die ∉ otherDies die := by simp [otherDies]
    have hother : src ∈ otherDies die := by simp [otherDies, hsrc, hne.symm]
    have hsrcDie : (s.noteReport die).die src = s.die src := by
      rw [State.noteReport, State.die_updDie, if_neg fun h => hne h.1.symm]
    rw [if_neg Bool.false_ne_true, hfold, hat, hat, hdies die (hlen' ▸ hdie), hdies src (hlen' ▸ hsrc), if_neg hself, if_pos hother, hnoted, hsrcDie]
    refine ⟨rfl, rfl, rfl, rfl, nofun, fun _ => ⟨rfl, ?_, rfl⟩⟩
    simp [hcounts src hsrc, hdie]

theorem gives_countReportArrival {die src count : Nat} (hdie : die < 4) (hsrc : src < 4) (hlen : s.dies.length = 4)
    (hcounts : ∀ d < 4, (s.die d).counts.length = 4) (holdest : (s.reports.find? fun r => r.1 == src && r.2.1 == die) = some (src, die, count)) :
    Gives (.countReportArrival die src count) s fun t => t.g = s.g ∧ t.mem = s.mem ∧ t.reports = removeFirst (fun x => x == (src, die, count)) s.reports ∧
      (t.die die).counts.getD src 0 = count ∧ (t.die die).freshReport = true := by
  refine ⟨_, exec_countReportArrival holdest, rfl, rfl, rfl, ?_⟩
  have hat : ({ s with reports := removeFirst (fun x => x == (src, die, count)) s.reports } : State).die die = s.die die := rfl
  rw [State.recordCount, State.die_updDie, if_pos ⟨rfl, hlen ▸ hdie⟩, hat]
  exact ⟨by simp [hcounts die hdie, hsrc], rfl⟩

/-! ### Drains (R208) -/

/-- A group whose work is done, alone in its slot and by its name, of a launch that runs: what every clause about its end supposes. -/
structure Drains (s : State) (core slot : Nat) (g : Group) (w : Workgroup) : Prop where
  inSlot : slot < 64
  unrecorded : s.rrMode = 0
  notAlone : s.groups ≠ []
  atSlot : s.allGroups.filter (Group.at_ core slot) = [g]
  wg : s.wgAt g.wg = some w
  late : g.lateFault = none
  name : ∀ x ∈ s.allGroups, x.ident = g.ident → x.at_ core slot = true

/-- Some group is left when one of two or more leaves. -/
theorem Drains.others (d : Drains s core slot g w) : s.allGroups.filter (fun x => x.ident != g.ident) ≠ [] := by
  intro hnone
  have hat : ∀ x ∈ s.allGroups, x.at_ core slot = true := fun x hx =>
    d.name x hx (by simpa using List.filter_eq_nil_iff.1 hnone x hx)
  have hlen : s.allGroups.length = 1 := by
    rw [← List.filter_eq_self.2 hat, d.atSlot]
    rfl
  obtain ⟨x, xs, hxs⟩ := List.exists_cons_of_ne_nil d.notAlone
  simp [State.allGroups, hxs] at hlen

theorem exec_groupDrainDone (core slot : Nat) (s : State) : exec (.groupDrainDone core slot) s = .next (s.drainGroup core slot) := rfl

/-- The groups of a workgroup in other slots than one. -/
def State.otherGroups (s : State) (key core slot : Nat) : List Group :=
  s.allGroups.filter fun x => x.wg == key && x.slot != 64 && x.launch != 0 && !x.at_ core slot

theorem Drains.drainGroup (d : Drains s core slot g w) (hdrained : s.drained g = true) :
    ∃ t, s.Left g t ∧ t.groupsOfWg g.wg = s.otherGroups g.wg core slot ∧ t.groupAt core slot = none ∧
      s.drainGroup core slot = if (t.groupsOfWg g.wg).isEmpty then t.endWg g.wg else t.finishSave g (dieOf core) := by
  obtain ⟨t, hleft, hdrain⟩ := State.drainGroup_of_drained d.atSlot (Nat.ne_of_lt d.inSlot) hdrained d.late d.unrecorded d.wg d.others
  exact ⟨t, hleft, hleft.groupsOfWg d.atSlot d.name, hleft.groupAt d.atSlot, hdrain⟩

/-- A group that is not the last of its workgroup leaves its slot, and nothing more. -/
theorem Drains.gives_of_others (d : Drains s core slot g w) (hdrained : s.drained g = true)
    (hrunning : (s.otherGroups g.wg core slot).any (fun x => decide (x.status ≠ .saved)) = true) :
    Gives (.groupDrainDone core slot) s fun t => t.mem = s.mem ∧ t.groupAt core slot = none ∧ t.wgs = s.wgs := by
  obtain ⟨t, hleft, hgroups, hat, hdrain⟩ := d.drainGroup hdrained
  have hsome : (t.groupsOfWg g.wg).isEmpty = false := by
    rw [hgroups]
    cases hos : s.otherGroups g.wg core slot with
    | nil => simp [hos] at hrunning
    | cons => rfl
  refine ⟨t, ?_, hleft.mem, hat, hleft.wgs⟩
  rw [exec_groupDrainDone, hdrain, hsome, if_neg Bool.false_ne_true, State.finishSave_of_running (hgroups.symm ▸ hrunning)]

/-- The last group of a workgroup of no instance leaves its slot, and the workgroup ends with it; then its launch may complete. -/
theorem Drains.ends (d : Drains s core slot g w) (hdrained : s.drained g = true) (hlast : s.otherGroups g.wg core slot = []) (hinst : w.inst = none) :
    ∃ t, s.WithoutWg g.wg t ∧ t.groupAt core slot = none ∧ exec (.groupDrainDone core slot) s = .next (t.tryComplete w.launch) := by
  obtain ⟨t, hleft, hgroups, hat, hdrain⟩ := d.drainGroup hdrained
  obtain ⟨u, hgone, hslots, hend⟩ := State.endWg_eq (s := t) (g := g) (hleft.wgAt ▸ d.wg) hinst
  refine ⟨u, hgone.of_left hleft, by rw [hslots, hat], ?_⟩
  rw [exec_groupDrainDone, hdrain, hgroups, hlast, List.isEmpty_nil, if_pos rfl, hend]

end

/-- Settles O49: each event does what its rule says, and leaves the rest alone. -/
theorem distributorEvents : Obligations.DistributorEvents := by
  unfold Obligations.DistributorEvents
  refine ⟨?placement, exec_passOverTimeout, ?steal, ?report, ?drain⟩
  case placement =>
    intro s die u rest l hdie hl hcomplete hkilled hfaulted hclb hprio hunits hsaved
    have hpriority := State.byPriority_single hl hcomplete hkilled hfaulted
    have hwaits : l.waitingOn die = u :: rest := getD_of_getElem? hunits []
    refine ⟨fun hnowhere => ?_, fun c hc hfits hbest => ?_⟩
    · rw [exec_unitPlacement hdie hpriority hprio (hwaits ▸ List.cons_ne_nil u rest), State.placeNext_workgroup hclb hsaved hwaits,
        State.bestCore_eq_none hnowhere]
      rfl
    · obtain ⟨t, hexec, hmem, hg, hgroups, hwgs, hleft⟩ :=
        gives_unitPlacement hdie hl hpriority hclb hprio hunits hsaved (State.bestCore_eq_some hc hfits hbest)
      refine ⟨t, hexec, hmem, hg, hgroups, hwgs, hleft, List.all_eq_true.2 fun h hh => ?_⟩
      obtain ⟨k, -, rfl⟩ := List.mem_map.1 hh
      exact decide_eq_true (l.newGroup_starts ..)
  case steal =>
    intro s victim thief _ hthief hlen
    exact ⟨exec_stealRequestArrival_of_not, fun l hl us hus hwants hfrom hpriority hne =>
        gives_stealRequestArrival (hlen ▸ hthief) hl hus hwants hfrom hpriority hne,
      exec_stealReplyArrival_of_none, fun l hl x hx old hold hsteal hname => gives_stealReplyArrival (hlen ▸ hthief) hl hx hold hsteal hname⟩
  case report =>
    intro s die src count hdie hsrc hne hlen hcounts n due
    have hn : s.unplacedCount die = n := s.unplacedCount_eq die
    have hdue : s.reportDue die = true ↔ due := by rw [s.reportDue_iff die, hn]
    have hcounts' : ∀ d < 4, (s.die d).counts.length = 4 := fun d hd => by
      have hlt : d < s.dies.length := hlen ▸ hd
      have hmem : s.dies[d] ∈ s.dies := List.getElem_mem hlt
      have hget : s.die d = s.dies[d] := getD_of_getElem? (List.getElem?_eq_getElem hlt) _
      rw [hget]
      simpa using List.all_eq_true.1 hcounts _ hmem
    exact ⟨fun hnot => exec_countReportTimer_of_not_due (Bool.eq_false_iff.2 (mt hdue.1 hnot)),
      fun h => hn ▸ gives_countReportTimer hdie hsrc hne hlen hcounts' (hdue.2 h),
      gives_countReportArrival hdie hsrc hlen hcounts', exec_countReportArrival_of_not_oldest⟩
  case drain =>
    intro s core slot g w l hslot hrr hgroups halone hlaunch hhandle hw hl hlate hwl hkey hname others
    have d : Drains s core slot g w := ⟨hslot, hrr, hgroups, halone, hw, hlate, hname⟩
    refine ⟨fun hstatus => congrArg _ (State.drainGroup_of_not_draining halone hstatus), fun hdrained _ hrunning => ?some_left,
      fun hdrained hlast hinst hcomplete hplaced hstolen hrest => ?last⟩
    case some_left =>
      refine d.gives_of_others hdrained ?_
      rw [State.otherGroups, List.any_filter]
      exact hrunning
    case last =>
      have hnone : s.otherGroups g.wg core slot = [] := by
        rw [State.otherGroups, List.filter_eq_nil_iff]
        exact List.any_eq_false.1 hlast
      obtain ⟨t, hgone, hat, hexec⟩ := d.ends hdrained hnone hinst
      rw [hwl] at hexec
      have hended := hgone.ended hcomplete hplaced hstolen hrest
      have hl' : t.launchOf l.handle = some l := by rw [State.launchOf, hgone.launches, ← hlaunch]; exact hl
      have hfound := State.launchOf_updLaunch (f := fun l => { l with complete := true }) (fun _ => rfl) t l.handle
      rw [hl', Option.map_some] at hfound
      rw [← hgone.quiet, ← hgone.mem, ← hgone.translate, ← hgone.wgs]
      refine ⟨fun hquiet => ?waits, fun hquiet hdone => ?silent, fun hquiet hdone f hleaf => ?writes⟩
      case waits =>
        rw [State.tryComplete_of_not_quiet hquiet] at hexec
        exact ⟨t, hexec, rfl, hat, rfl, by rw [hl', Option.map_some, hcomplete]⟩
      case silent =>
        rw [State.tryComplete_of_quiet hl' hended hquiet, State.writeDone_of_zero hdone] at hexec
        exact ⟨_, hexec, rfl, hat, rfl, by rw [hfound, Option.map_some]⟩
      case writes =>
        rw [State.tryComplete_of_quiet hl' hended hquiet] at hexec
        rw [← State.translate_updLaunch t l.handle] at hleaf
        obtain ⟨hmem, hlaunches⟩ := State.writeDone_leaf hdone hleaf
        refine ⟨_, hexec, hmem, ?_⟩
        rw [State.launchOf, hlaunches, ← State.launchOf, hfound, Option.map_some]

end Sys2Proof.Machine
end

section
/-!
What the engines of the cores do to workgroups and cards (R334, R336): writes of scratchpads, cards that change and cards that end.
-/
namespace Sys2Proof.Machine
open Sys2Proof

variable {s : State} {core : Nat} {k : Core} {c : Card}

/-! ### Records found by their keys -/

/-- A change of records that satisfy one test is not seen by a test that none of them passes. -/
theorem find?_modifyFirst_of_not {α : Type} {p q : α → Bool} {f : α → α} (hf : ∀ x, q (f x) = q x) (hpq : ∀ x, p x = true → q x = false) (xs : List α) :
    (modifyFirst p f xs).find? q = xs.find? q := by
  induction xs with
  | nil => rfl
  | cons x xs ih =>
    rw [modifyFirst]
    cases hx : p x with
    | true => rw [if_pos rfl, List.find?_cons_of_neg (by simp [hf, hpq x hx]), List.find?_cons_of_neg (by simp [hpq x hx])]
    | false =>
      rw [if_neg Bool.false_ne_true, List.find?_cons, List.find?_cons, ih]

theorem State.core_of_getElem? (h : s.cores[core]? = some k) : s.core core = k := getD_of_getElem? h _

theorem State.cores_updCore_self (h : s.cores[core]? = some k) (f : Core → Core) : (s.updCore core f).cores[core]? = some (f k) := by
  rw [State.updCore_cores, modifyAt_getElem?, if_pos rfl, h, Option.map_some]

theorem State.core_updCore (s : State) (n m : Nat) (f : Core → Core) :
    (s.updCore n f).core m = if m = n ∧ n < s.cores.length then f (s.core m) else s.core m := modifyAt_getD f n m s.cores _

/-! ### Scratchpads written (R336, R341) -/

/-- A write of a workgroup's scratchpad: its key, the offset and the bytes. -/
abbrev WgWrite := Nat × Nat × List Byte

/-- A workgroup with bytes written to its scratchpad. -/
def Workgroup.write (x : WgWrite) (w : Workgroup) : Workgroup := { w with cells := w.cells.writeBytes x.2.1 x.2.2 }

/-- The workgroups after a write of one of them. -/
def writeWg (ws : List Workgroup) (x : WgWrite) : List Workgroup := modifyFirst (fun w => w.key == x.1) (Workgroup.write x) ws

theorem find?_writeWg_self (ws : List Workgroup) (x : WgWrite) : (writeWg ws x).find? (fun w => w.key == x.1) =
    (ws.find? fun w => w.key == x.1).map (Workgroup.write x) :=
  find?_modifyFirst (p := fun w : Workgroup => w.key == x.1) (f := Workgroup.write x) (fun _ => rfl) ws

theorem find?_writeWg_of_ne (ws : List Workgroup) {x : WgWrite} {key : Nat} (h : x.1 ≠ key) :
    (writeWg ws x).find? (fun w => w.key == key) = ws.find? fun w => w.key == key := by
  refine find?_modifyFirst_of_not (f := Workgroup.write x) (fun _ => rfl) (fun w hw => ?_) ws
  have hkey : w.key = x.1 := by simpa using hw
  simpa [hkey] using h

/-- Writes of other workgroups leave a workgroup alone. -/
theorem find?_writeWgs_of_ne {key : Nat} : ∀ (xs : List WgWrite) (ws : List Workgroup), (∀ x ∈ xs, x.1 ≠ key) →
    (xs.foldl writeWg ws).find? (fun w => w.key == key) = ws.find? fun w => w.key == key
  | [], _, _ => rfl
  | x :: xs, ws, h => by
    rw [List.foldl_cons, find?_writeWgs_of_ne xs _ fun y hy => h y (List.mem_cons_of_mem x hy), find?_writeWg_of_ne ws (h x List.mem_cons_self)]

/-- Of writes to different workgroups each one's is found in it. -/
theorem find?_writeWgs {x : WgWrite} : ∀ {xs : List WgWrite} (ws : List Workgroup), xs.Pairwise (fun x y => x.1 ≠ y.1) → x ∈ xs →
    (xs.foldl writeWg ws).find? (fun w => w.key == x.1) =
      (ws.find? fun w => w.key == x.1).map (Workgroup.write x)
  | y :: ys, ws, hdiff, hx => by
    obtain ⟨hy, hys⟩ := List.pairwise_cons.1 hdiff
    rw [List.foldl_cons]
    rcases List.mem_cons.1 hx with rfl | hx
    · rw [find?_writeWgs_of_ne ys _ fun z hz => (hy z hz).symm, find?_writeWg_self]
    · rw [find?_writeWgs _ hys hx, find?_writeWg_of_ne ws (hy x hx)]

/-! ### Cards that change -/

@[simp] theorem State.updCards_mem (s : State) (core : Nat) (f : List Card → List Card) : (s.updCards core f).mem = s.mem := rfl
@[simp] theorem State.updCards_wgs (s : State) (core : Nat) (f : List Card → List Card) : (s.updCards core f).wgs = s.wgs := rfl

theorem find?_map_of_seq {f : Card → Card} (hf : ∀ x, (f x).seq = x.seq) (cs : List Card) (seq : Nat) :
    (cs.map f).find? (fun x => x.seq == seq) = (cs.find? fun x => x.seq == seq).map f := by
  rw [List.find?_map]
  congr 2
  funext x
  simp [hf]

/-! ### Cards that end (R334, R222, R223) -/

theorem freeGuard_queue (n : Nat) (k : Core) : (freeGuard n k).queue = k.queue := by
  rw [freeGuard]
  split <;> rfl

/-- A core without a card, and without the edges from it. -/
def Core.without (c : Card) (k : Core) : Core :=
  { k with
    cards := (k.cards.filter fun x => x.seq != c.seq).map fun x => { x with edges := x.edges.filter fun e => e != c.seq }
    queue := k.queue.filter fun x => x != c.seq }

/-- What a core keeps of its cards, its queue and its guards as a card ends. -/
def Core.dropCard (c : Card) (k : Core) : Core :=
  enqueueReady (match c.guard with
    | some g => freeGuard g (k.without c)
    | none => k.without c)

/-- Cards that stay have become ready or not; which guard is freed is no matter for them. -/
theorem Core.dropCard_eq (c : Card) (k : Core) : ∃ k', k.dropCard c = enqueueReady k' ∧ k'.cards = (k.without c).cards ∧ k'.queue = (k.without c).queue := by
  rw [Core.dropCard]
  cases c.guard with
  | none => exact ⟨_, rfl, rfl, rfl⟩
  | some g => exact ⟨_, rfl, freeGuard_cards g _, freeGuard_queue g _⟩

/-- A core's only card takes its place in the queue with it. -/
theorem Core.dropCard_of_single (hcards : k.cards = [c]) (hqueue : k.queue = [c.seq]) : (k.dropCard c).cards = [] ∧ (k.dropCard c).queue = [] := by
  obtain ⟨k', hdrop, hc, hq⟩ := k.dropCard_eq c
  have hc' : k'.cards = [] := hc.trans (by simp [Core.without, hcards])
  have hq' : k'.queue = [] := hq.trans (by simp [Core.without, hqueue])
  simp [hdrop, enqueueReady, hc', hq']

/-- Cards without edges get none as one of them ends. -/
theorem Core.dropCard_edges (h : ∀ y ∈ k.cards, y.edges = []) (c : Card) : ∀ y ∈ (k.dropCard c).cards, y.edges = [] := by
  obtain ⟨k', hdrop, hc, -⟩ := k.dropCard_eq c
  have hstay : ∀ y ∈ k'.cards, y.edges = [] := by
    intro y hy
    rw [hc] at hy
    obtain ⟨x, hx, rfl⟩ := List.mem_map.1 hy
    simp [h x (List.mem_filter.1 hx).1]
  intro y hy
  rw [hdrop] at hy
  obtain ⟨x, hx, rfl⟩ := List.mem_map.1 hy
  split <;> exact hstay x hx

/-- The status word of a card that ends (R334). -/
def statusWord (state elem fcode : Nat) : Nat := elem * 2 ^ 32 + fcode * 2 ^ 8 + state

/-- A card without a barrier ends: its status word is written, it leaves its core, and paths that yielded to it wake. -/
theorem State.finishCard_eq (hbar : c.bar = none) (s : State) (core state elem fcode : Nat) : s.finishCard core c state elem fcode =
    ((s.wgWrite c.wg c.stat (toBytes 8 (statusWord state elem fcode))).updCore core (Core.dropCard c)).mapGroups (wakeYield core c.handle s.clock) := by
  rw [State.finishCard, hbar]
  rfl

/-- Without edges no card depends on another. -/
theorem dependents_of_no_edges {cards : List Card} (h : ∀ y ∈ cards, y.edges = []) (n : Nat) (set : List Nat) : dependents cards n set = set := by
  have hnone : ∀ set : List Nat, (cards.filter fun c => !set.elem c.seq && c.edges.any fun e => set.elem e) = [] := fun set =>
    List.filter_eq_nil_iff.2 fun y hy => by simp [h y hy]
  induction n with
  | zero => rfl
  | succ n ih => rw [dependents, hnone, List.map_nil, List.append_nil, ih]

/-- A card that ends neither faulted with others behind it, nor as a lost party of a collective, ends alone. -/
theorem State.endCard_eq (s : State) {state : Nat} (elem fcode : Nat)
    (hdeps : state = 1 → ∀ x ∈ (s.core core).cards, x.seq = c.seq ∨ x.seq ∉ dependents (s.core core).cards (s.core core).cards.length [c.seq])
    (hlost : state = 2 ∨ state = 3 → c.kind = .job) : s.endCard core c state elem fcode = s.finishCard core c state elem fcode := by
  have hnone : (if state = 1 then (s.core core).cards.filter fun x =>
      x.seq != c.seq && (dependents (s.core core).cards (s.core core).cards.length [c.seq]).elem x.seq else []) = [] := by
    split
    · next hstate =>
      refine List.filter_eq_nil_iff.2 fun x hx => ?_
      rcases hdeps hstate x hx with heq | hnot
      · simp [heq]
      · simp [hnot]
    · rfl
  rw [State.endCard]
  simp only [hnone, List.foldl_nil, List.append_nil]
  split
  · next hstate => rw [List.foldl_cons, List.foldl_nil, hlost hstate]; rfl
  · rfl

end Sys2Proof.Machine
end

section
/-!
The only card of a core (R223, R334, R336, R60): how it starts, moves its elements, ends, and goes on after its page request is answered.
-/
namespace Sys2Proof.Machine
open Sys2Proof

/-- A core holds one card, a job without a barrier, and its workgroup is there. -/
structure LoneCard (s : State) (core : Nat) (k : Core) (c : Card) (w : Workgroup) : Prop where
  atCore : s.cores[core]? = some k
  cards : k.cards = [c]
  queue : k.queue = [c.seq]
  wg : s.wgAt c.wg = some w
  placed : w.saved = false
  job : c.kind = .job
  bar : c.bar = none

section
variable {s : State} {core : Nat} {k : Core} {c : Card} {w : Workgroup}

/-! ### What stands at the head of the queue -/

theorem LoneCard.cardOf (h : LoneCard s core k c w) : s.cardOf core c.seq = some c := by
  rw [State.cardOf, State.core_of_getElem? h.atCore, h.cards]
  simp

theorem LoneCard.headCard (h : LoneCard s core k c w) : s.headCard core = some c := by
  have hcore := State.core_of_getElem? h.atCore
  rw [State.headCard, hcore, h.queue, List.head?_cons, Option.bind_some, h.cardOf]

theorem LoneCard.not_saved (h : LoneCard s core k c w) : s.cardSaved c = false := by
  simp [State.cardSaved, h.wg, h.placed]

/-- A job is no party of a collective. -/
theorem LoneCard.not_lacks (h : LoneCard s core k c w) : s.cardLacks c = false := by
  rw [State.cardLacks, h.job]
  rfl

/-- Nothing depends on the only card of a core, and a job is no party of a collective: it ends alone. -/
theorem LoneCard.endCard (h : LoneCard s core k c w) (state elem fcode : Nat) :
    s.endCard core c state elem fcode = s.finishCard core c state elem fcode := by
  refine s.endCard_eq elem fcode (fun _ x hx => .inl ?_) fun _ => h.job
  rw [State.core_of_getElem? h.atCore, h.cards, List.mem_singleton] at hx
  rw [hx]

/-- The card ends: memory stays, the core is empty, and the status word stands in the scratchpad. -/
theorem LoneCard.ended (h : LoneCard s core k c w) (state elem fcode : Nat) : ∃ t, s.endCard core c state elem fcode = t ∧ t.mem = s.mem ∧
    ((t.cores[core]?).map fun x => (x.cards, x.queue)) = some ([], []) ∧
    ((t.wgAt c.wg).map fun x => x.cells) = some (w.cells.writeNat c.stat 8 (elem * 2 ^ 32 + fcode * 2 ^ 8 + state)) := by
  obtain ⟨hcards, hqueue⟩ := Core.dropCard_of_single h.cards h.queue
  refine ⟨_, (h.endCard state elem fcode).trans (State.finishCard_eq h.bar s core state elem fcode), rfl, ?_, ?_⟩
  · have hcore : (s.wgWrite c.wg c.stat (toBytes 8 (statusWord state elem fcode))).cores[core]? = some k := h.atCore
    have hafter := State.cores_updCore_self hcore (Core.dropCard c)
    exact (congrArg (Option.map _) hafter).trans (by rw [Option.map_some, hcards, hqueue])
  · have hafter := find?_writeWg_self s.wgs (c.wg, c.stat, toBytes 8 (statusWord state elem fcode))
    have hwg : (s.wgs.find? fun w => w.key == c.wg) = some w := h.wg
    exact congrArg (Option.map fun x => x.cells) (hafter.trans (by rw [hwg, Option.map_some]))

/-- The card changed, and nothing else. -/
theorem LoneCard.updCards (h : LoneCard s core k c w) (f : Card → Card) :
    (((s.updCards core fun cs => cs.map fun x => if x.seq == c.seq then f x else x).cores[core]?).map fun x => (x.cards, x.queue)) =
      some ([f c], [c.seq]) := by
  rw [State.updCards, State.cores_updCore_self h.atCore]
  simp [h.cards, h.queue]

/-! ### Starts (R223, R336) -/

theorem exec_engineJobStart (hhead : s.headCard core = some c) (hready : c.state = .ready) :
    exec (.engineJobStart core) s = .next ((s.startHead core c).getD s) := by
  have hexec : exec (.engineJobStart core) s = execEngineJobStart core s := rfl
  rw [hexec, execEngineJobStart, hhead]
  exact congrArg Host.Outcome.next (if_pos hready)

/-- The guard that a card is bound to, read from its core; a card bound to none goes on as with TRUE. -/
theorem LoneCard.guardOf (h : LoneCard s core k c w) :
    s.guardOf core c = (c.guard.map fun n => (k.guards.getD n {}).state).getD .isTrue := by
  rw [State.guardOf, State.core_of_getElem? h.atCore]
  cases c.guard <;> rfl

theorem State.startHead_pending (hguard : s.guardOf core c = .pending) : s.startHead core c = none := by
  rw [State.startHead, hguard]

theorem State.startHead_false (hguard : s.guardOf core c = .isFalse) :
    s.startHead core c = some (s.endCard core c 3 0 0) := by
  rw [State.startHead, hguard]

theorem LoneCard.startHead_true (h : LoneCard s core k c w) (hguard : s.guardOf core c = .isTrue) : s.startHead core c =
    some (s.updCards core fun cs => cs.map fun x => if x.seq == c.seq then { x with state := .running } else x) := by
  rw [State.startHead, hguard]
  simp [h.not_lacks, h.job, h.not_saved]

/-- A guarded card at the head of its queue waits, is discarded, or starts. -/
theorem LoneCard.starts (h : LoneCard s core k c w) (hready : c.state = .ready) :
    let guard := c.guard.map fun n => (k.guards.getD n {}).state
    (guard = some .pending → exec (.engineJobStart core) s = .next s) ∧
    (guard = some .isFalse → Gives (.engineJobStart core) s fun t => t.mem = s.mem ∧ ((t.cores[core]?).map fun x => (x.cards, x.queue)) = some ([], []) ∧
      ((t.wgAt c.wg).map fun x => x.cells) = some (w.cells.writeNat c.stat 8 (0 * 2 ^ 32 + 0 * 2 ^ 8 + 3))) ∧
    (guard = none ∨ guard = some .isTrue → Gives (.engineJobStart core) s fun t => t.mem = s.mem ∧ t.wgs = s.wgs ∧
      ((t.cores[core]?).map fun x => (x.cards, x.queue)) = some ([{ c with state := .running }], [c.seq])) := by
  intro guard
  have hexec := exec_engineJobStart h.headCard hready
  have hguard : s.guardOf core c = guard.getD .isTrue := h.guardOf
  refine ⟨fun hpending => ?_, fun hfalse => ?_, fun htrue => ?_⟩
  · rw [hexec, State.startHead_pending (by rw [hguard, hpending, Option.getD_some]), Option.getD_none]
  · rw [State.startHead_false (by rw [hguard, hfalse, Option.getD_some])] at hexec
    obtain ⟨t, rfl, hafter⟩ := h.ended 3 0 0
    exact ⟨_, hexec, hafter⟩
  · have hgo : guard.getD .isTrue = .isTrue := by rcases htrue with h | h <;> rw [h] <;> rfl
    rw [h.startHead_true (hguard.trans hgo)] at hexec
    exact ⟨_, hexec, rfl, rfl, h.updCards fun x => { x with state := .running }⟩

/-! ### Elements (R332, R336) -/

/-- A copy of whole 64-byte blocks within the scratchpad, whose bytes need no wait: a contiguous job of the form that R332 gives, its footprints its
own and outside any recording. -/
structure Card.CopiesBlocks (c : Card) : Prop where
  op : c.op = 0
  ssp : c.ssp = 1
  dsp : c.dsp = 1
  undeclared : c.declared = false
  launch : c.launch = 0
  aligned : c.dst.toNat % 64 = 0
  whole : c.len % 64 = 0
  dst : c.dst.toNat + c.len ≤ 2 ^ 20
  src : c.src.toNat + c.len ≤ 2 ^ 20
  kept : c.lost = false

theorem Card.CopiesBlocks.not_byRows (h : c.CopiesBlocks) : c.byRows = false := by simp [Card.byRows, h.op]

theorem Card.CopiesBlocks.elements (h : c.CopiesBlocks) : 64 * c.elements = c.len := by
  obtain ⟨haligned, hwhole⟩ := And.intro h.aligned h.whole
  rw [Card.elements, h.not_byRows, h.op]
  simp only [Nat.reduceEqDiff, if_false, Bool.false_eq_true]
  split
  · omega
  · omega

/-- Element `e` moves the 64 bytes at `64 × e`. -/
theorem Card.CopiesBlocks.pieces (h : c.CopiesBlocks) {e : Nat} (he : 64 * e < c.len) (i : Nat) : ∃ a b : W64,
    c.pieces e i = ({ space := 1, addr := a, len := 64 }, { space := 1, addr := b, len := 64 }) ∧ a.toNat = c.src.toNat + 64 * e ∧
      b.toNat = c.dst.toNat + 64 * e := by
  obtain ⟨haligned, hwhole⟩ := And.intro h.aligned h.whole
  obtain ⟨hdst, hsrc⟩ := And.intro h.dst h.src
  have hlo : max c.dst.toNat ((c.dst.toNat / 64 + e) * 64) = c.dst.toNat + 64 * e := by omega
  have hn : min (c.dst.toNat + c.len) ((c.dst.toNat / 64 + e) * 64 + 64) - (c.dst.toNat + 64 * e) = 64 := by omega
  refine ⟨c.src + BitVec.ofNat 64 (64 * e), BitVec.ofNat 64 (c.dst.toNat + 64 * e), ?_, ?_, ?_⟩
  · rw [Card.pieces, h.op]
    simp only [h.ssp, h.dsp, hlo, hn, Nat.add_sub_cancel_left]
  · rw [BitVec.toNat_add, BitVec.toNat_ofNat]
    omega
  · rw [BitVec.toNat_ofNat]
    omega

/-- Nothing of the engine is on its way: no message, no unit at an intake, no request. -/
structure State.EngineQuiet (s : State) (core : Nat) : Prop where
  intake : (s.clusters.all fun x => x.intake.isEmpty) = true
  msgs : s.msgs = []
  fabric : (s.fabric.all fun r => r.ident != engineIdent core) = true

theorem State.EngineQuiet.not_waits (q : s.EngineQuiet core) : s.engineWaits core = false := by
  have hintake : (s.clusters.any fun k => k.intake.any fun u => u.ident == engineIdent core) = false :=
    List.any_eq_false.2 fun x hx => by simp [List.isEmpty_iff.1 (List.all_eq_true.1 q.intake x hx)]
  have hfabric : (s.fabric.any fun r => r.ident == engineIdent core && r.posted) = false :=
    List.any_eq_false.2 fun r hr => by simp [bne_iff_ne.1 (List.all_eq_true.1 q.fabric r hr)]
  simp [State.engineWaits, q.msgs, hintake, hfabric]

theorem State.EngineQuiet.not_held (q : s.EngineQuiet core) : s.held (engineIdent core) = false := by
  have hintake : (s.clusters.any fun k => k.outside.any fun u => u.ident == engineIdent core) = false :=
    List.any_eq_false.2 fun x hx => by simp [Cluster.outside, List.isEmpty_iff.1 (List.all_eq_true.1 q.intake x hx)]
  have hfabric : (s.fabric.any fun r => r.ident == engineIdent core && !r.sent) = false :=
    List.any_eq_false.2 fun r hr => by simp [bne_iff_ne.1 (List.all_eq_true.1 q.fabric r hr)]
  simp [State.held, hintake, hfabric]

theorem State.spoiled_of_no_bad (h : s.bad = []) (st : BadStore) (off n : Nat) : s.spoiled st off n = false := by
  rw [State.spoiled, h, List.any_nil]

/-- The lookups of no page await no walk. -/
theorem State.engineWalks_nil (s : State) (core asid root : Nat) : s.engineWalks core asid root [] = .ok () := by
  have hnone : s.awaitWalksOf core engineSlot false asid root .load [] .memDep = .ok () := by
    rw [State.awaitWalksOf]
    split <;> rfl
  rw [State.engineWalks, hnone]

/-- A card one more of whose elements has begun, and one whose 64 bytes of that element have arrived as well. -/
def Card.begun (c : Card) : Card := { c with next := c.next + 1 }
def Card.counted (c : Card) : Card := { c with arrived := c.arrived + 1, delivered := c.delivered + 64 }

/-- An element performed within the scratchpad: the bytes moved, and the card's count of elements begun. -/
def State.moved (s : State) (core : Nat) (c : Card) (a b : Nat) : State :=
  ((({ s with misses := s.misses.filter fun m => !m.of core engineSlot false } : State).wgWrite c.wg b
    (((s.wgAt c.wg).map fun w => w.cells.readBytes a 64).getD [])).updCards core fun cs =>
      cs.map fun x => if x.seq == c.seq then x.begun else x)

theorem State.element_of_block (h : c.CopiesBlocks) (q : s.EngineQuiet core) (hbad : s.bad = []) {a b : W64}
    (hpieces : c.pieces c.next 0 = ({ space := 1, addr := a, len := 64 }, { space := 1, addr := b, len := 64 })) :
    s.element core c = .done (s.moved core c a.toNat b.toNat) := by
  have hcovers : ∀ write p, c.covers write p = true := fun _ _ => by simp [Card.covers, h.undeclared]
  have hgate : ∀ who w lines, s.gateLines c.launch who w lines = .ok s := fun _ _ _ => if_pos (.inr (.inr h.launch))
  have hask : s.engineAsk core (c.sender core) [] = .ok s := rfl
  have hpages : ∀ p : Piece, p.space = 1 → p.pages = [] := fun p hp => if_pos (by simp [hp])
  have hbad' : ∀ p : Piece, p.space = 1 → s.pieceBad core c p = false := fun p hp => by rw [State.pieceBad, hp]; exact State.spoiled_of_no_bad hbad ..
  have hparts : ∀ who kind (p : Piece), p.space = 1 → s.parts who kind p = .ok [] := fun _ _ p hp => if_pos (by simp [hp])
  unfold State.element
  simp only [h.not_byRows, Bool.false_and, Bool.false_eq_true, if_false, hpieces, hcovers, Bool.and_self, Bool.not_true, hpages, List.append_nil,
    State.engineWalks_nil, hparts, State.partFails, List.any_nil, hbad', q.not_held, hask, hgate, List.flatMap_nil, List.foldl_nil, Bool.and_false]
  rfl

/-- What one element of a block copy leaves: the card with its count, 64 bytes in place, and memory as it was. -/
theorem LoneCard.moved (h : LoneCard s core k c w) (a b : Nat) : (s.moved core c a b).mem = s.mem ∧
    LoneCard (s.moved core c a b) core { k with cards := [c.begun] } c.begun
      { w with cells := w.cells.writeBytes b (w.cells.readBytes a 64) } := by
  have hbytes : (((s.wgAt c.wg).map fun w => w.cells.readBytes a 64).getD []) = w.cells.readBytes a 64 := by rw [h.wg]; rfl
  have hwg : (s.wgs.find? fun w => w.key == c.wg) = some w := h.wg
  have hafter := find?_writeWg_self s.wgs (c.wg, b, w.cells.readBytes a 64)
  refine ⟨rfl, ?_, rfl, h.queue, ?_, h.placed, h.job, h.bar⟩
  · have hcore := State.cores_updCore_self h.atCore fun k : Core =>
      { k with cards := k.cards.map fun x => if x.seq == c.seq then x.begun else x }
    refine Eq.trans hcore ?_
    simp [h.cards]
  · rw [State.moved, hbytes]
    exact hafter.trans (by rw [hwg]; rfl)

theorem State.EngineQuiet.moved (q : s.EngineQuiet core) (a b : Nat) : (s.moved core c a b).EngineQuiet core := by
  refine ⟨?_, q.msgs, q.fabric⟩
  have hclusters : ((s.moved core c a b).clusters.all fun x => x.intake.isEmpty) = s.clusters.all fun x => x.intake.isEmpty := List.all_map
  exact hclusters.trans q.intake

/-- The arrival of an element of 64 bytes is counted on the card, which has no barrier. -/
theorem LoneCard.arrived (h : LoneCard s core k c w) (b : c.CopiesBlocks) (he : 64 * c.arrived < c.len) : (s.arrive core c).mem = s.mem ∧
    (s.arrive core c).wgAt = s.wgAt ∧ (((s.arrive core c).cores[core]?).map fun x => (x.cards, x.queue)) =
      some ([c.counted], [c.seq]) := by
  obtain ⟨_, _, hpieces, -⟩ := b.pieces he 0
  have harrive : s.arrive core c = s.updCards core fun cs => cs.map fun x => if x.seq == c.seq then x.counted else x := by
    simp only [State.arrive, h.bar, b.not_byRows, hpieces, Bool.false_eq_true, if_false]
    rfl
  rw [harrive]
  exact ⟨rfl, rfl, h.updCards Card.counted⟩

theorem exec_engineChunkArrival (hhead : s.headCard core = some c) (hrunning : c.state = .running) (hleft : c.next < c.elements) :
    exec (.engineChunkArrival core c.seq c.next) s = .next ((s.runHead core c).getD s) := by
  have hexec : exec (.engineChunkArrival core c.seq c.next) s = execEngineChunkArrival core c.seq c.next s := rfl
  rw [hexec, execEngineChunkArrival, hhead]
  exact congrArg Host.Outcome.next (if_pos ⟨hrunning, rfl, rfl, hleft⟩)

/-- The next element of a block copy is performed; it has arrived at once, but for the last one, which is counted as the job ends (R334). -/
theorem LoneCard.runHead (h : LoneCard s core k c w) (b : c.CopiesBlocks) (q : s.EngineQuiet core) (hbad : s.bad = []) (harrived : c.arrived = c.next)
    {x y : W64} (hpieces : c.pieces c.next 0 = ({ space := 1, addr := x, len := 64 }, { space := 1, addr := y, len := 64 })) :
    s.runHead core c = some (if c.elements ≤ c.next + 1 then s.moved core c x.toNat y.toNat
      else (s.moved core c x.toNat y.toNat).arrive core c.begun) := by
  obtain ⟨-, hcard⟩ := h.moved x.toNat y.toNat
  have hlater : c.begun.elements = c.elements := rfl
  have hseq : c.begun.seq = c.seq := rfl
  have hnext : c.begun.next = c.next + 1 := rfl
  rw [State.runHead, b.kept, if_neg Bool.false_ne_true, if_neg (by omega), h.not_saved, if_neg Bool.false_ne_true, State.element_of_block b q hbad hpieces]
  simp only [hseq ▸ hcard.cardOf, hnext, (q.moved x.toNat y.toNat).not_waits, Bool.false_or, decide_eq_true_eq, hlater]

/-- The next element of a block copy: its 64 bytes moved, and counted as arrived where it is not the last. -/
theorem LoneCard.chunk (h : LoneCard s core k c w) (b : c.CopiesBlocks) (q : s.EngineQuiet core) (hbad : s.bad = []) (harrived : c.arrived = c.next)
    (hrunning : c.state = .running) (hnext : 64 * c.next < c.len) :
    Gives (.engineChunkArrival core c.seq c.next) s fun t => t.mem = s.mem ∧ ((t.cores[core]?).map fun x => (x.cards, x.queue)) =
      some ([if 64 * (c.next + 1) < c.len then { c with next := c.next + 1, arrived := c.next + 1, delivered := c.delivered + 64 }
        else { c with next := c.next + 1 }], [c.seq]) ∧
      ((t.wgAt c.wg).map fun x => x.cells) = some (w.cells.writeBytes (c.dst.toNat + 64 * c.next) (w.cells.readBytes (c.src.toNat + 64 * c.next) 64)) := by
  obtain ⟨x, y, hpieces, hx, hy⟩ := b.pieces hnext 0
  have helements := b.elements
  have hexec := exec_engineChunkArrival h.headCard hrunning (by omega)
  rw [h.runHead b q hbad harrived hpieces, hx, hy, Option.getD_some] at hexec
  obtain ⟨hmem, hcard⟩ := h.moved (c.src.toNat + 64 * c.next) (c.dst.toNat + 64 * c.next)
  have hwg : (s.moved core c (c.src.toNat + 64 * c.next) (c.dst.toNat + 64 * c.next)).wgAt c.wg = _ := hcard.wg
  have hcells : ((s.moved core c (c.src.toNat + 64 * c.next) (c.dst.toNat + 64 * c.next)).wgAt c.wg).map (fun x => x.cells) = some
      (w.cells.writeBytes (c.dst.toNat + 64 * c.next) (w.cells.readBytes (c.src.toNat + 64 * c.next) 64)) := by
    rw [hwg, Option.map_some]
  refine ⟨_, hexec, ?_⟩
  by_cases hmore : 64 * (c.next + 1) < c.len
  · have b' : c.begun.CopiesBlocks := ⟨b.op, b.ssp, b.dsp, b.undeclared, b.launch, b.aligned, b.whole, b.dst, b.src, b.kept⟩
    have harrivedLt : 64 * c.arrived < c.len := by omega
    obtain ⟨hmem', hwgs, hcards⟩ := hcard.arrived b' harrivedLt
    have hcounted : c.begun.counted = { c with next := c.next + 1, arrived := c.next + 1, delivered := c.delivered + 64 } := by
      simp [Card.counted, Card.begun, harrived]
    rw [if_pos hmore, if_neg (by omega), ← hcounted]
    exact ⟨hmem'.trans hmem, hcards, by rw [hwgs]; exact hcells⟩
  · rw [if_neg hmore, if_pos (by omega)]
    exact ⟨hmem, by rw [hcard.atCore, Option.map_some, h.queue]; rfl, hcells⟩

/-! ### Ends (R334) -/

theorem exec_engineJobEnd (hhead : s.headCard core = some c) (hrunning : c.state = .running) (hdone : c.elements ≤ c.next) :
    exec (.engineJobEnd core c.seq) s = .next ((s.endHead core c).getD s) := by
  have hexec : exec (.engineJobEnd core c.seq) s = execEngineJobEnd core c.seq s := rfl
  rw [hexec, execEngineJobEnd, hhead]
  exact congrArg Host.Outcome.next (if_pos ⟨hrunning, rfl, hdone⟩)

/-- A block copy all of whose elements are done ends. -/
theorem LoneCard.ends (h : LoneCard s core k c w) (b : c.CopiesBlocks) (q : s.EngineQuiet core) (hrunning : c.state = .running)
    (hdone : c.len ≤ 64 * c.next) :
    Gives (.engineJobEnd core c.seq) s fun t => t.mem = s.mem ∧ ((t.cores[core]?).map fun x => (x.cards, x.queue)) = some ([], []) ∧
      ((t.wgAt c.wg).map fun x => x.cells) = some (w.cells.writeNat c.stat 8 (0 * 2 ^ 32 + 0 * 2 ^ 8 + 0)) := by
  have helements := b.elements
  have hexec := exec_engineJobEnd h.headCard hrunning (by omega)
  obtain ⟨t, rfl, hafter⟩ := h.ended 0 0 0
  rw [State.endHead, q.not_waits, if_neg Bool.false_ne_true, b.kept, if_neg Bool.false_ne_true, Option.getD_some] at hexec
  exact ⟨_, hexec, hafter⟩

/-! ### Answers to a page request (R60, R361) -/

/-- STATE of a ring entry written: groups may wake, and of memory only its 8 bytes change. -/
theorem State.setRing_eq (s : State) (n v : Nat) : ∃ g gs bad, s.setRing n v =
    { s with g := g, groups := gs, bad := bad, mem := s.mem.writeNat (s.ringPa n + 16) 8 v } := by
  obtain ⟨g, gs, hwake, -⟩ := (s.caveWrite (s.ringPa n + 16) (toBytes 8 v)).wake_eq (s.ringPa n + 16) 8
  exact ⟨g, gs, _, hwake⟩

/-- Nothing answered, nothing done. -/
theorem State.readAnswer_of_unanswered {q : PageRequest} {n : Nat} (hentries : q.entries = [n]) (h : s.ringState n < 2) : s.readAnswer core q = none := by
  have hfind : [n].find? (fun n => decide (2 ≤ s.ringState n)) = none := by simp [h]
  rw [State.readAnswer, hentries, hfind, Option.map_none]

/-- The answer to a request of one entry for a job: the entry is given back, the request is gone, and the engine is told. -/
theorem State.readAnswer_of_card {q : PageRequest} {n seq : Nat} (hentries : q.entries = [n]) (hrefused : q.refused = false)
    (hcard : q.event.card = some seq) (h : 2 ≤ s.ringState n) :
    s.readAnswer core q = some (((s.setRing n 0).putRequest core q none).tellEngine core seq (!(s.ringState n == 3))) := by
  have hfind : [n].find? (fun n => decide (2 ≤ s.ringState n)) = some n := by simp [h]
  have hleft : [n].filter (fun x => x != n) = [] := by simp
  rw [State.readAnswer, hentries, hfind, Option.map_some]
  simp only [hleft, List.isEmpty_nil, if_true, hrefused, Bool.false_eq_true, if_false, Bool.true_or, State.answered, hcard]

/-- The trap context of a core that serves nothing reads the answer to the only request it has, one for its only card. -/
theorem LoneCard.exec_engineJobResume (h : LoneCard s core k c w) {q : PageRequest} {n : Nat} (hserving : k.serving = none) (hposted : k.frozenPosted = false)
    (hpages : k.pages = [q]) (hcard : q.event.card = some c.seq) (hentries : q.entries = [n]) :
    exec (.engineJobResume core c.seq) s = .next ((s.readAnswer core q).getD s) := by
  have hcore := State.core_of_getElem? h.atCore
  have hexec : exec (.engineJobResume core c.seq) s = .next ((s.resumeCard core c.seq).getD s) := rfl
  have hfind : [q].find? (fun q => decide (q.event.card = some c.seq)) = some q := by simp [hcard]
  rw [hexec, State.resumeCard, hcore, hserving, hposted, hpages, hfind]
  simp [hentries]

/-- A request read and given back leaves the card and its workgroup. -/
theorem LoneCard.afterAnswer (h : LoneCard s core k c w) (n : Nat) (q : PageRequest) : ∃ k',
    LoneCard ((s.setRing n 0).putRequest core q none) core k' c w ∧
      ((s.setRing n 0).putRequest core q none).mem = s.mem.writeNat (s.ringPa n + 16) 8 0 ∧ ((s.setRing n 0).putRequest core q none).wgs = s.wgs := by
  obtain ⟨g, gs, bad, hring⟩ := s.setRing_eq n 0
  rw [hring]
  exact ⟨_, ⟨State.cores_updCore_self h.atCore _, h.cards, h.queue, h.wg, h.placed, h.job, h.bar⟩, rfl, rfl⟩

/-- A suspended job told that its page is there goes on; told that it is refused, it ends faulted at its element. -/
theorem LoneCard.tellEngine (h : LoneCard s core k c w) (hsuspended : c.state = .suspended) (present : Bool) : s.tellEngine core c.seq present =
    if present then s.updCards core fun cs => cs.map fun x => if x.seq == c.seq then { x with state := .running } else x
    else s.endCard core c 1 c.next codePageNp := by
  rw [State.tellEngine, h.cardOf]
  exact if_neg (not_not_intro hsuspended)

/-- The answer to a suspended job's page request: none yet, the page is there, or it is refused. -/
theorem LoneCard.resumes (h : LoneCard s core k c w) (hsuspended : c.state = .suspended) {q : PageRequest} {n : Nat} (hserving : k.serving = none)
    (hposted : k.frozenPosted = false) (hpages : k.pages = [q]) (hcard : q.event.card = some c.seq) (hentries : q.entries = [n]) (hrefused : q.refused = false) :
    let ring := s.ringPa n + 16
    (s.mem.readNat ring 8 < 2 → exec (.engineJobResume core c.seq) s = .next s) ∧
    (s.mem.readNat ring 8 = 2 → Gives (.engineJobResume core c.seq) s fun t => t.mem = s.mem.writeNat ring 8 0 ∧ t.wgs = s.wgs ∧
      ((t.cores[core]?).map fun x => (x.cards, x.queue)) = some ([{ c with state := .running }], [c.seq])) ∧
    (s.mem.readNat ring 8 = 3 → Gives (.engineJobResume core c.seq) s fun t => t.mem = s.mem.writeNat ring 8 0 ∧
      ((t.cores[core]?).map fun x => (x.cards, x.queue)) = some ([], []) ∧
      ((t.wgAt c.wg).map fun x => x.cells) = some (w.cells.writeNat c.stat 8 (c.next * 2 ^ 32 + codePageNp * 2 ^ 8 + 1))) := by
  intro ring
  have hexec := h.exec_engineJobResume hserving hposted hpages hcard hentries
  obtain ⟨k', hafter, hmem, hwgs⟩ := h.afterAnswer n q
  have hstate : s.ringState n = s.mem.readNat ring 8 := rfl
  refine ⟨fun hnone => ?_, fun hpresent => ?_, fun hno => ?_⟩
  · rw [hexec, State.readAnswer_of_unanswered hentries hnone, Option.getD_none]
  · rw [State.readAnswer_of_card hentries hrefused hcard (by omega), hstate, hpresent, hafter.tellEngine hsuspended, if_pos (by decide), Option.getD_some] at hexec
    refine ⟨_, hexec, ?_, ?_, hafter.updCards fun x => { x with state := .running }⟩
    · rw [State.updCards_mem, hmem]
    · rw [State.updCards_wgs, hwgs]
  · rw [State.readAnswer_of_card hentries hrefused hcard (by omega), hstate, hno, hafter.tellEngine hsuspended, if_neg (by decide), Option.getD_some] at hexec
    obtain ⟨t, rfl, hmem', hcards, hcells⟩ := hafter.ended 1 c.next codePageNp
    exact ⟨_, hexec, hmem'.trans hmem, hcards, hcells⟩

end
end Sys2Proof.Machine
end

section
/-!
Rotations of a party (R340, R341): the four cards at the heads of their queues, the step that moves 512 bytes of each tile, and how the cards end.
-/
namespace Sys2Proof.Machine
open Sys2Proof

section
variable {s : State} {cluster : Nat} {ps : List (Nat × Card)}

/-! ### Parties -/

theorem exec_collectiveStart (cluster : Nat) (s : State) : exec (.collectiveStart cluster) s = .next ((s.startCollective cluster).getD s) := rfl

/-- The cards of a party are of one kind, and their workgroups are there. -/
theorem State.partyCards_spec {a b c d : Nat × Card} (h : s.partyCards cluster = some [a, b, c, d]) :
    ∀ x ∈ [a, b, c, d], x.2.kind = a.2.kind ∧ (s.wgAt x.2.wg).isSome = true := by
  rw [State.partyCards] at h
  simp only at h
  split at h
  · next a' b' c' d' hheads =>
    split at h
    · next hok =>
      obtain ⟨-, hall⟩ := hok
      cases h
      rw [hheads] at hall
      intro x hx
      have hx' := List.all_eq_true.1 hall x hx
      simp only [Bool.and_eq_true, decide_eq_true_eq] at hx'
      obtain ⟨⟨⟨⟨hkind, -⟩, -⟩, hsome⟩, -⟩ := hx'
      exact ⟨hkind, hsome⟩
    · exact absurd h nofun
  · exact absurd h nofun

/-! ### A step (R341) -/

/-- A card of a party one step further, on its core. -/
def Core.turnCard (p : Nat × Card) (k : Core) : Core :=
  { k with cards := k.cards.map fun x => if x.seq == p.2.seq then { x with state := .running, next := x.next + 1 } else x }

/-- Every card of a party one step further. -/
def State.turnCards (s : State) (ps : List (Nat × Card)) : State := ps.foldl (fun s p => s.updCore p.1 (Core.turnCard p)) s

/-- A core is changed by the cards of the party that stand on it. -/
theorem State.core_turnCards (n : Nat) : ∀ (ps : List (Nat × Card)) (s : State), n < s.cores.length →
    (s.turnCards ps).core n = (ps.filter fun p => p.1 == n).foldl (fun k p => k.turnCard p) (s.core n)
  | [], _, _ => rfl
  | p :: ps, s, hn => by
    have hlen : (s.updCore p.1 (Core.turnCard p)).cores.length = s.cores.length := modifyAt_length ..
    have hstep : s.turnCards (p :: ps) = (s.updCore p.1 (Core.turnCard p)).turnCards ps := rfl
    rw [hstep, State.core_turnCards n ps _ (hlen ▸ hn), State.core_updCore]
    by_cases hp : p.1 = n
    · rw [List.filter_cons_of_pos (by simp [hp]), List.foldl_cons, if_pos ⟨hp.symm, hp ▸ hn⟩]
    · rw [List.filter_cons_of_neg (by simp [hp]), if_neg fun h => hp h.1.symm]

/-- The only card of a party on a core is found one step further. -/
theorem State.cardOf_turnCards {x : Nat × Card} (hone : ps.filter (fun y => y.1 == x.1) = [x]) (hcore : x.1 < s.cores.length)
    (hcard : s.cardOf x.1 x.2.seq = some x.2) :
    (s.turnCards ps).cardOf x.1 x.2.seq = some { x.2 with state := .running, next := x.2.next + 1 } := by
  rw [State.cardOf, State.core_turnCards x.1 ps s hcore, hone, List.foldl_cons, List.foldl_nil, Core.turnCard]
  rw [find?_map_of_seq fun y => by split <;> rfl]
  rw [State.cardOf] at hcard
  rw [hcard, Option.map_some, if_pos (beq_self_eq_true _)]

/-- Changes of cards leave memory and workgroups alone. -/
theorem State.turnCards_frame : ∀ (ps : List (Nat × Card)) (s : State), (s.turnCards ps).mem = s.mem ∧ (s.turnCards ps).wgs = s.wgs
  | [], _ => ⟨rfl, rfl⟩
  | p :: ps, s => State.turnCards_frame ps (s.updCore p.1 (Core.turnCard p))

/-- The writes of a step of a rotation, in their order: each tile's 512 bytes at `k` go to the next core, and core 3's to core 0. -/
def State.turnWrites (s : State) (a b c d : Card) (k : Nat) : List WgWrite :=
  let bytes := fun x : Card => s.partyRead x (tileSrc x.src + 512 * k) 512
  [(b.wg, tileDst b.src + 512 * k, bytes a), (c.wg, tileDst c.src + 512 * k, bytes b), (d.wg, tileDst d.src + 512 * k, bytes c),
    (a.wg, tileDst a.src + 512 * k, bytes d)]

/-- The state after writes of workgroups' scratchpads. -/
def State.wgWrites (s : State) (xs : List WgWrite) : State := xs.foldl (fun s x => s.wgWrite x.1 x.2.1 x.2.2) s

theorem State.rotate_eq (s : State) (a b c d : Card) (k : Nat) : s.rotate [a, b, c, d] k = s.wgWrites (s.turnWrites a b c d k) := by
  have hrange : List.range 4 = [0, 1, 2, 3] := rfl
  simp only [State.rotate, State.wgWrites, State.turnWrites, hrange, List.foldl_cons, List.foldl_nil, List.map_cons, List.map_nil, Nat.reduceAdd, Nat.reduceMod,
    List.getElem?_cons_succ, List.getElem?_cons_zero, List.getD_cons_succ, List.getD_cons_zero]

/-- Writes of scratchpads leave memory and the cores alone. -/
theorem State.wgWrites_frame : ∀ (xs : List WgWrite) (s : State),
    (s.wgWrites xs).mem = s.mem ∧ (s.wgWrites xs).cores = s.cores ∧ (s.wgWrites xs).wgs = xs.foldl writeWg s.wgs
  | [], _ => ⟨rfl, rfl, rfl⟩
  | x :: xs, s => State.wgWrites_frame xs (s.wgWrite x.1 x.2.1 x.2.2)

/-- A workgroup that is there reads back what was written last, where it was written. -/
theorem readBytes_writeWgs {ws : List Workgroup} {xs : List WgWrite} {x : WgWrite} (hwf : ∀ w ∈ ws, Memory.wf w.cells = true)
    (hdiff : xs.Pairwise fun x y => x.1 ≠ y.1) (hx : x ∈ xs) (hsome : (ws.find? fun w => w.key == x.1).isSome = true) :
    ((xs.foldl writeWg ws).find? fun w => w.key == x.1).map (fun w => w.cells.readBytes x.2.1 x.2.2.length) = some x.2.2 := by
  obtain ⟨w, hw⟩ := Option.isSome_iff_exists.1 hsome
  rw [find?_writeWgs ws hdiff hx, hw, Option.map_some, Option.map_some]
  exact congrArg some (Cells.readBytes_writeBytes (hwf w (List.mem_of_find?_eq_some hw)) x.2.1 x.2.2)

/-! ### Ends (R340, R341) -/

/-- The cards of a party end one after the other. -/
def State.finishParty (s : State) (ps : List (Nat × Card)) (state fcode : Nat) : State := ps.foldl (fun s p => s.endCard p.1 p.2 state 0 fcode) s

/-- Cards on which none depends end alone: memory stays, and each status word is written. -/
theorem State.finishParty_spec {state : Nat} (fcode : Nat) (hstate : state ≤ 1) : ∀ (ps : List (Nat × Card)) (s : State), (∀ p ∈ ps, p.2.bar = none) →
    (state = 1 → ∀ p ∈ ps, ∀ y ∈ (s.core p.1).cards, y.edges = []) → (s.finishParty ps state fcode).mem = s.mem ∧
      (s.finishParty ps state fcode).wgs = (ps.map fun p => (p.2.wg, p.2.stat, toBytes 8 (statusWord state 0 fcode))).foldl writeWg s.wgs
  | [], _, _, _ => ⟨rfl, rfl⟩
  | p :: ps, s, hbar, hedges => by
    have halone : s.endCard p.1 p.2 state 0 fcode = s.finishCard p.1 p.2 state 0 fcode := by
      refine s.endCard_eq 0 fcode (fun h1 x hx => ?_) fun h23 => absurd hstate (by omega)
      rw [dependents_of_no_edges (hedges h1 p List.mem_cons_self), List.mem_singleton]
      exact Decidable.em _
    have hend := State.finishCard_eq (hbar p List.mem_cons_self) s p.1 state 0 fcode
    have hkept : state = 1 → ∀ q ∈ ps, ∀ y ∈ ((s.finishCard p.1 p.2 state 0 fcode).core q.1).cards, y.edges = [] := by
      intro h1 q hq
      have hcore : (s.finishCard p.1 p.2 state 0 fcode).core q.1 =
          ((s.wgWrite p.2.wg p.2.stat (toBytes 8 (statusWord state 0 fcode))).updCore p.1 (Core.dropCard p.2)).core q.1 := by rw [hend]; rfl
      have hbefore := hedges h1 q (List.mem_cons_of_mem p hq)
      rw [hcore, State.core_updCore]
      split
      · exact Core.dropCard_edges hbefore p.2
      · exact hbefore
    obtain ⟨hmem, hwgs⟩ := State.finishParty_spec fcode hstate ps (s.finishCard p.1 p.2 state 0 fcode) (fun q hq => hbar q (List.mem_cons_of_mem p hq)) hkept
    have hstep : s.finishParty (p :: ps) state fcode = (s.finishCard p.1 p.2 state 0 fcode).finishParty ps state fcode := by
      rw [State.finishParty, List.foldl_cons, halone]
      rfl
    rw [hstep, hmem, hwgs, hend]
    exact ⟨rfl, rfl⟩

/-! ### What a rotation does -/

variable {a b c d : Nat × Card} {n : Nat}

theorem State.startCollective_rotate (h : s.partyCards cluster = some [a, b, c, d]) (hkind : a.2.kind = .rotate n) (hbad : s.bad = []) :
    s.startCollective cluster = some (
      if ([b, c, d].all fun x => rotLen x.2.src == rotLen a.2.src) = false then s.finishParty [a, b, c, d] 1 codeFmt
      else if rotLen a.2.src ≤ 512 * a.2.next then s.finishParty [a, b, c, d] 0 0
      else (s.rotate [a.2, b.2, c.2, d.2] a.2.next).turnCards [a, b, c, d]) := by
  rw [State.startCollective, h, Option.map_some]
  simp only [List.map_cons, List.map_nil, List.headD_cons, hkind, State.spoiled_of_no_bad hbad, List.all_cons, List.any_cons, List.any_nil, beq_self_eq_true,
    Bool.true_and, Bool.not_eq_true', Bool.or_self, Bool.false_eq_true, if_false]
  rfl

/-- What a party's workgroup holds, where it is there. -/
theorem State.partyRead_eq {x : Card} (h : (s.wgAt x.wg).isSome = true) (off len : Nat) :
    (s.wgAt x.wg).map (fun w => w.cells.readBytes off len) = some (s.partyRead x off len) ∧ (s.partyRead x off len).length = len := by
  obtain ⟨w, hw⟩ := Option.isSome_iff_exists.1 h
  rw [State.partyRead, hw, Option.map_some, Option.getD_some]
  exact ⟨rfl, Cells.readBytes_length ..⟩

/-- Different parties' workgroups are different in the order of the writes as well. -/
theorem State.turnWrites_pairwise (hdiff : [a, b, c, d].Pairwise fun x y => x.2.wg ≠ y.2.wg) (k : Nat) :
    (s.turnWrites a.2 b.2 c.2 d.2 k).Pairwise fun x y => x.1 ≠ y.1 := by
  simp only [List.pairwise_cons, List.mem_cons, List.not_mem_nil, or_false, forall_eq_or_imp, forall_eq, false_imp_iff, implies_true, List.Pairwise.nil,
    and_true] at hdiff
  obtain ⟨⟨hab, hac, had⟩, ⟨hbc, hbd⟩, hcd⟩ := hdiff
  simp only [State.turnWrites, List.pairwise_cons, List.mem_cons, List.not_mem_nil, or_false, forall_eq_or_imp, forall_eq, false_imp_iff, implies_true,
    List.Pairwise.nil, and_true]
  exact ⟨⟨hbc, hbd, hab.symm⟩, ⟨hcd, hac.symm⟩, had.symm⟩

/-- A step of a rotation: 512 bytes of one party's source reach the destination of the next. -/
theorem State.turned {y z : Card} {k : Nat} (hwf : (s.wgs.all fun w => Memory.wf w.cells) = true)
    (hdiff : [a, b, c, d].Pairwise fun x y => x.2.wg ≠ y.2.wg)
    (hmem : (y.wg, tileDst y.src + 512 * k, s.partyRead z (tileSrc z.src + 512 * k) 512) ∈ s.turnWrites a.2 b.2 c.2 d.2 k)
    (hy : (s.wgAt y.wg).isSome = true) (hz : (s.wgAt z.wg).isSome = true) :
    ((s.wgWrites (s.turnWrites a.2 b.2 c.2 d.2 k)).wgAt y.wg).map (fun w => w.cells.readBytes (tileDst y.src + 512 * k) 512) =
      (s.wgAt z.wg).map fun w => w.cells.readBytes (tileSrc z.src + 512 * k) 512 := by
  obtain ⟨hread, hlen⟩ := State.partyRead_eq hz (tileSrc z.src + 512 * k) 512
  obtain ⟨-, -, hwgs⟩ := State.wgWrites_frame (s.turnWrites a.2 b.2 c.2 d.2 k) s
  have hafter := readBytes_writeWgs (List.all_eq_true.1 hwf) (State.turnWrites_pairwise hdiff k) hmem hy
  rw [hread, State.wgAt, hwgs]
  simpa only [hlen] using hafter

/-- R341: 512 bytes of every tile have reached the next core, and every card is one step further. -/
theorem State.gives_turn (hstart : s.startCollective cluster = some ((s.rotate [a.2, b.2, c.2, d.2] a.2.next).turnCards [a, b, c, d]))
    (hwf : (s.wgs.all fun w => Memory.wf w.cells) = true) (hdiff : [a, b, c, d].Pairwise fun x y => x.2.wg ≠ y.2.wg)
    (hsome : ∀ x ∈ [a, b, c, d], (s.wgAt x.2.wg).isSome = true) :
    let k := 512 * a.2.next
    let tile := fun (t : State) (x : Nat × Card) off => (t.wgAt x.2.wg).map fun w => w.cells.readBytes off 512
    Gives (.collectiveStart cluster) s fun t => t.mem = s.mem ∧
      tile t b (tileDst b.2.src + k) = tile s a (tileSrc a.2.src + k) ∧ tile t c (tileDst c.2.src + k) = tile s b (tileSrc b.2.src + k) ∧
      tile t d (tileDst d.2.src + k) = tile s c (tileSrc c.2.src + k) ∧ tile t a (tileDst a.2.src + k) = tile s d (tileSrc d.2.src + k) ∧
      ∀ x ∈ [a, b, c, d], ([a, b, c, d].filter fun y => y.1 == x.1) = [x] → x.1 < s.cores.length → s.cardOf x.1 x.2.seq = some x.2 →
        t.cardOf x.1 x.2.seq = some { x.2 with state := .running, next := x.2.next + 1 } := by
  intro k tile
  have hexec := exec_collectiveStart cluster s
  rw [hstart, Option.getD_some, State.rotate_eq] at hexec
  obtain ⟨hmem, hcores, -⟩ := State.wgWrites_frame (s.turnWrites a.2 b.2 c.2 d.2 a.2.next) s
  obtain ⟨hmem', hwgs⟩ := State.turnCards_frame [a, b, c, d] (s.wgWrites (s.turnWrites a.2 b.2 c.2 d.2 a.2.next))
  have htile : ∀ x off, tile ((s.wgWrites (s.turnWrites a.2 b.2 c.2 d.2 a.2.next)).turnCards [a, b, c, d]) x off =
      tile (s.wgWrites (s.turnWrites a.2 b.2 c.2 d.2 a.2.next)) x off := fun x off => by simp only [tile, State.wgAt, hwgs]
  refine ⟨_, hexec, hmem'.trans hmem, (htile ..).trans ?_, (htile ..).trans ?_, (htile ..).trans ?_, (htile ..).trans ?_, fun x _ hone hcore hcard => ?_⟩
  · exact State.turned hwf hdiff (by simp [State.turnWrites]) (hsome b (by simp)) (hsome a (by simp))
  · exact State.turned hwf hdiff (by simp [State.turnWrites]) (hsome c (by simp)) (hsome b (by simp))
  · exact State.turned hwf hdiff (by simp [State.turnWrites]) (hsome d (by simp)) (hsome c (by simp))
  · exact State.turned hwf hdiff (by simp [State.turnWrites]) (hsome a (by simp)) (hsome d (by simp))
  · refine State.cardOf_turnCards hone (by rw [hcores]; exact hcore) ?_
    rw [State.cardOf, State.core, hcores]
    exact hcard

/-- The status word of each card of a party that has ended. -/
theorem State.finishParty_word {state : Nat} (fcode : Nat) (hstate : state ≤ 1) (hwf : (s.wgs.all fun w => Memory.wf w.cells) = true)
    (hdiff : ps.Pairwise fun x y => x.2.wg ≠ y.2.wg) (hbar : ∀ p ∈ ps, p.2.bar = none) (hsome : ∀ p ∈ ps, (s.wgAt p.2.wg).isSome = true)
    (hedges : state = 1 → ∀ p ∈ ps, ∀ y ∈ (s.core p.1).cards, y.edges = []) :
    (ps.all fun x => (((s.finishParty ps state fcode).wgAt x.2.wg).map fun w => w.cells.readNat x.2.stat 8) == some (statusWord state 0 fcode % 256 ^ 8)) =
      true := by
  obtain ⟨-, hwgs⟩ := State.finishParty_spec fcode hstate ps s hbar hedges
  have hdiff' : (ps.map fun p => (p.2.wg, p.2.stat, toBytes 8 (statusWord state 0 fcode))).Pairwise fun x y => x.1 ≠ y.1 := List.pairwise_map.2 hdiff
  refine List.all_eq_true.2 fun x hx => ?_
  obtain ⟨w, hw⟩ := Option.isSome_iff_exists.1 (hsome x hx)
  have hfound := find?_writeWgs s.wgs hdiff' (List.mem_map_of_mem hx)
  have hwgs' : (s.finishParty ps state fcode).wgAt x.2.wg = some (w.write (x.2.wg, x.2.stat, toBytes 8 (statusWord state 0 fcode))) := by
    rw [State.wgAt, hwgs, hfound]
    exact congrArg (Option.map _) hw
  have hcells : Memory.wf w.cells = true := List.all_eq_true.1 hwf w (List.mem_of_find?_eq_some hw)
  rw [hwgs', Option.map_some, beq_iff_eq]
  exact congrArg some (Cells.readNat_writeNat hcells x.2.stat 8 _)

end

/-- Settles O50: the only card of a core starts, moves its elements, ends and goes on; a party's cards turn their tiles and end together. -/
theorem engineEvents : Obligations.EngineEvents := by
  unfold Obligations.EngineEvents
  refine ⟨?jobs, ?rotations⟩
  case jobs =>
    intro s core k c w hcore hcards hqueue hwg _ hplaced _ hjob hbar card cells status guard
    have h : LoneCard s core k c w := ⟨hcore, hcards, hqueue, hwg, hplaced, hjob, if_neg fun hb => Bool.false_ne_true (hbar.symm.trans hb.2)⟩
    refine ⟨h.starts, fun hrunning hop hssp hdsp hdeclared hlaunch haligned hwhole hdst hsrc hlost hintake hmsgs hfabric => ?running,
      fun hsuspended n q hserving hposted hpages hcard hentries hrefused => ?suspended⟩
    case running =>
      have hcopy : c.CopiesBlocks := ⟨hop, hssp, hdsp, hdeclared, hlaunch, haligned, hwhole, hdst, hsrc, hlost⟩
      have hquiet : s.EngineQuiet core := ⟨hintake, hmsgs, hfabric⟩
      exact ⟨fun hnext harrived hbad => h.chunk hcopy hquiet hbad harrived hrunning hnext, h.ends hcopy hquiet hrunning⟩
    case suspended =>
      intro ring
      have hring : s.ringPa n + 16 = ring := by simp only [State.ringPa, State.cavePa, ring, Nat.zero_mul, Nat.add_zero, Nat.add_assoc]
      exact hring ▸ h.resumes hsuspended hserving hposted hpages hcard hentries hrefused
  case rotations =>
    intro s cluster n a b c d
    refine ⟨fun hnone => ?_, fun hparty hkind hbad hdiff => ?_⟩
    · rw [exec_collectiveStart, State.startCollective, hnone]
      rfl
    intro tile alike word k hwf
    have hspec := State.partyCards_spec hparty
    have hsome : ∀ x ∈ [a, b, c, d], (s.wgAt x.2.wg).isSome = true := fun x hx => (hspec x hx).2
    have hbar : ∀ x ∈ [a, b, c, d], x.2.bar = none := fun x hx => by simp [Card.bar, (hspec x hx).1, hkind]
    have hstart := State.startCollective_rotate hparty hkind hbad
    have hends : ∀ state fcode, s.startCollective cluster = some (s.finishParty [a, b, c, d] state fcode) →
        exec (.collectiveStart cluster) s = .next (s.finishParty [a, b, c, d] state fcode) := fun _ _ h => by
      rw [exec_collectiveStart, h, Option.getD_some]
    refine ⟨fun halike hlen => ?turn, fun halike hlen => ?done, fun halike hedges => ?faulted⟩
    case turn =>
      rw [if_neg (by simpa [alike] using halike), if_neg (Nat.not_le.2 hlen)] at hstart
      exact State.gives_turn hstart hwf hdiff hsome
    case done =>
      rw [if_neg (by simpa [alike] using halike), if_pos hlen] at hstart
      obtain ⟨hmem, -⟩ := State.finishParty_spec (state := 0) 0 (Nat.zero_le 1) [a, b, c, d] s hbar nofun
      exact ⟨_, hends _ _ hstart, hmem, State.finishParty_word 0 (Nat.zero_le 1) hwf hdiff hbar hsome nofun⟩
    case faulted =>
      rw [if_pos halike] at hstart
      obtain ⟨hmem, -⟩ := State.finishParty_spec codeFmt (Nat.le_refl 1) [a, b, c, d] s hbar fun _ => hedges
      exact ⟨_, hends _ _ hstart, hmem, State.finishParty_word codeFmt (Nat.le_refl 1) hwf hdiff hbar hsome fun _ => hedges⟩

end Sys2Proof.Machine
end
